-- ==== Sys2Proof/Word.lean ====
section
/-! DEFINITION. Words, bytes, and the plain types of a register field, a register table row and a sparse store. -/

namespace Sys2Proof

/-- A 32-bit register word (R1: bit 0 is the least significant). -/
abbrev Word := BitVec 32

/-- A byte. -/
abbrev Byte := BitVec 8

namespace Machine

/-- A named register field: the register's address, the field's lowest bit, its width and its value at reset. -/
structure Fld where
  addr : Nat
  lo : Nat
  wid : Nat
  rst : Nat
  deriving DecidableEq, Repr

/-- The access codes of R12. -/
inductive Acc where
  | rw | ro | wo | w1c | rwl
  deriving DecidableEq, Repr

/-- The reset domains of R16: POR and CHIP, and the regions (link port registers belong to LKA or LKB by their address). -/
inductive Dom where
  | por | chip | sup | net | acq | frm | mod | lnk | grd
  deriving DecidableEq, Repr

/-- A field in a row of the register table. -/
structure CardFld where
  lo : Nat
  wid : Nat
  acc : Acc
  rst : Nat
  deriving DecidableEq, Repr

/-- A row of the register table: a register, or an array of registers with the stride and count of each index. -/
structure Card where
  name : String
  base : Nat
  dims : List (Nat × Nat)
  dom : Dom
  flds : List CardFld
  deriving DecidableEq, Repr

/-- A sparse store: keys strictly rising, each listed once. -/
abbrev Sparse (α : Type) := List (Nat × α)

end Machine

end Sys2Proof
end

