-- ==== Sys2Proof/Syntax.lean ====
section
/-! DEFINITION. The commands of the block and the types of their operands. -/

namespace Sys2Proof

/-- A master of the device's bus (R33): 0 host, 1 to 4 cores 0 to 3, 5 DMA, 6 partner, 7 debug, 8 loader. -/
abbrev Master := Fin 9

/-- The eight regions (R23). -/
inductive Region where
  | sup | net | acq | frm | mod | lka | lkb | grd
  deriving DecidableEq, Repr

/-- The blocks with the common registers of R32; `lnk n` is link port n. -/
inductive Block where
  | mbx | sem | int | dma | rng | mqt | sec | pat | bst
  | net | ptp | svs | mir
  | acq | ang | cst
  | frm | prf | arm
  | mod | rsp
  | lnk (n : Fin 32)
  | lbr | prt | saf
  deriving DecidableEq, Repr

/-- What is lost in a region loss (R446, R449): a rail, a clock, or the crossbar or region control. -/
inductive LossKind where
  | supply | clock | xbar
  deriving DecidableEq, Repr

/-- The four PLLs (R39). -/
inductive Pll where
  | core | ser | time | sup
  deriving DecidableEq, Repr

/-- The access kinds on SUP SRAM: plain loads and stores, and the atomics of R366. -/
inductive SramOp where
  | load | store | lr | sc
  | amoSwap | amoAdd | amoXor | amoAnd | amoOr | amoMin | amoMax | amoMinu | amoMaxu
  deriving DecidableEq, Repr

/-- The conditions of R128 for an island. -/
inductive IslandCause where
  | breaker | angle | deadGrid
  deriving DecidableEq, Repr

/-- What strikes an Armature instruction (R156, R157), as the bits it flips: of the operand words A and B and of the accumulators, each with its
residue above its value, as they are read; of the result; of the result of the trigonometric unit's second copy; and of the second
residue generator. All zeros: nothing does. -/
structure ArmHit where
  a : BitVec 20
  b : BitVec 20
  acc : BitVec 44
  acc2 : BitVec 44
  out : BitVec 48
  copy : BitVec 16
  gen : BitVec 4
  deriving DecidableEq, Repr

/-- Nothing strikes the instruction. -/
def ArmHit.clear : ArmHit := { a := 0, b := 0, acc := 0, acc2 := 0, out := 0, copy := 0, gen := 0 }

/-- The issue of an Armature instruction that reads no operand: its cycle after fabric start, and what strikes it. -/
structure ArmIssue where
  cycle : Fin 800
  hit : ArmHit
  deriving DecidableEq, Repr

/-- What meets a frame start: the offset of the partner's time measured over the mirror link in this frame, in units of 0.25 ns (R259), and
the channel among the values copied for ANG_ whose residue does not fit, if any (R38, R63). -/
structure FrameIn where
  tofs : Int
  angBad : Option (Fin 64)
  deriving DecidableEq, Repr

/-- A fault input whose pin has stood at its level for `steps` CORE cycles of 1.25 ns (R280). -/
structure FaultPin where
  input : Fin 4
  steps : Nat
  deriving DecidableEq, Repr

/-- What a node senses and measures itself: the Vcap and aux telemetry codes, its two temperatures, a warning, a fault of its submodule,
and the causes it puts into point 15. -/
structure NodeSense where
  vcap : BitVec 16
  aux : BitVec 16
  temp : BitVec 16
  temp2 : BitVec 16
  warn : Bool
  fault : Bool
  cause : Word
  deriving DecidableEq, Repr

/-- A lease message of the partner (R246) on a path (lanes 0 and 1, ETH6, ETH7): the sender's member number, epoch and highest epoch seen,
the lease end, the sequence number, the hand-over frame, whether its CRC-32C is right, and the state the sender tells (R244): in SHADOW,
and with IMGDIFF set. -/
structure LeaseMsg where
  path : Fin 4
  member : Fin 2
  epoch : Word
  seen : Word
  le : Word
  seq : Word
  frame : BitVec 16
  crcOk : Bool
  shadow : Bool
  differs : Bool
  deriving DecidableEq, Repr

/-- A mirror record (R261): frame number, epoch, operating mode code, list digest, the words in their fixed order, and whether the CRC-32C
and every word residue are right. -/
structure MirRecord where
  frame : BitVec 16
  epoch : Word
  mode : Fin 16
  digest : Nat
  words : List Word
  ok : Bool
  deriving DecidableEq, Repr

/-- What a heartbeat of the partner carries (R246, R254, R267): the sender's epoch, a lease message with its type (0 RENEW, 1 ACK, 2 RELEASE, 3 HANDOVER), and a
snapshot: mode code, the eight targets, FRM_SEQCTRL and the 32 words. -/
structure Heartbeat where
  epoch : Word
  lease : Option (Fin 4 × LeaseMsg)
  snap : Option (Fin 16 × List Word × Word × List Word)
  deriving DecidableEq, Repr

/-- What a request of the host to the PCIe endpoint addresses (R361, R362): BAR0 or BAR2, the register of the power state, or the
uncorrectable error status of advanced error reporting. -/
inductive PcieTo where
  | bar0 | bar2 | power | aer
  deriving DecidableEq, Repr

/-- What strikes the device before a scrub pass: upset bits `x` of word `w` of the array of the pass (R440); an uncorrectable error in the
interconnect buffer that the next transaction of master `m` passes (R447); a class B error that PRT_ or PTP_ finds in itself, which fences
it (R19, R447). -/
inductive Strike where
  | bits (w x : Nat)
  | bus (m : Master)
  | fence (prt : Bool)
  deriving DecidableEq, Repr

/-- What External Debug does with a core (R370): halt it, let it run, step it, set its mode or a protection entry (R364), or inspect the
address of one. -/
inductive DebugOp where
  | halt (c : Fin 4)
  | resume (c : Fin 4)
  | step (c : Fin 4)
  | setMode (c : Fin 4) (user : Bool)
  | setPmp (c : Fin 4) (i : Fin 16) (cfg : Byte) (addr : Word)
  | inspect (c : Fin 4) (i : Fin 16)
  deriving DecidableEq, Repr

/-- What the boundary scan chain holds for the gate pins (`4 * pair` up: LBG high and low side, LBS high and low side), the safety outputs
(SOA0, SOB0 to SOB3) and the Pointing pins (R417). -/
structure ScanChain where
  gate : BitVec 48
  safety : BitVec 8
  acp : BitVec 4
  deriving DecidableEq, Repr

/-- The JTAG instructions that R417 distinguishes: BYPASS, IDCODE, SAMPLE/PRELOAD, EXTEST and INTEST with what the scan chain holds, core debug
with device halt, and the access of master 7. -/
inductive Jtag where
  | bypass | idcode | sample
  | extest (x : ScanChain)
  | intest (x : ScanChain)
  | debug (op : DebugOp)
  | access
  deriving DecidableEq, Repr

/-- A Patina measurement (R451): the SRAM minimum voltage in mV; the margins of the next lane; the drift of the ADC reference in ppm and
the shift of the oscillator in 0.01 %, both signed. -/
inductive PatMeas where
  | sram (mv : BitVec 16)
  | eye (h v : Byte)
  | ref (drift : BitVec 16)
  | osc (shift : BitVec 16)
  deriving DecidableEq, Repr

/-- The commands of the block: one constructor per row of spec/opcode_table.json, in the table's order, those without
operands last. -/
inductive Instr where
  /-- `REGISTER_WRITE` (R13). Master `m` writes `v` at address `a` with an access of `size` bytes. -/
  | registerWrite (m : Master) (a : Word) (size : Nat) (v : Word)
  /-- `UNMAPPED_ACCESS` (R27). Master `m` reads or writes at `a`. -/
  | unmappedAccess (m : Master) (write : Bool) (a : Word)
  /-- `REGION_OFF_ACCESS` (R28). Master `m` reads or writes at `a`. -/
  | regionOffAccess (m : Master) (write : Bool) (a : Word)
  /-- `BLOCK_EN_CLEAR` (R45). -/
  | blockEnClear (m : Master) (b : Block)
  /-- `BLOCK_EN_SET` (R46). -/
  | blockEnSet (m : Master) (b : Block)
  /-- `BLOCK_UNIT_COMPLETE` (R45). -/
  | blockUnitComplete (b : Block)
  /-- `REGION_POWER_DOWN` (R48). -/
  | regionPowerDown (m : Master) (r : Region)
  /-- `REGION_DRAIN_END` (R48). -/
  | regionDrainEnd (r : Region)
  /-- `REGION_POWER_UP` (R49). -/
  | regionPowerUp (m : Master) (r : Region)
  /-- `REGION_RESET` (R50). -/
  | regionReset (m : Master) (r : Region)
  /-- `REGION_RELOAD` (R407). -/
  | regionReload (r : Region)
  /-- `REGION_LOST` (R446). -/
  | regionLost (r : Region) (k : LossKind)
  /-- `FRAME_START` (R34). -/
  | frameStart (x : FrameIn)
  /-- `ZC_EDGE` (R76). The sector code after the deglitched change. -/
  | zcEdge (code : Fin 8)
  /-- `IDXARM` (R78). -/
  | idxarm (m : Master)
  /-- `ANG_ENABLE_CHANGE` (R481). -/
  | angEnableChange (m : Master) (en : Bool)
  /-- `SAW_WORD_RECEIVED` (R85). -/
  | sawWordReceived (w : BitVec 48)
  /-- `ACP_FIRE` (R87). -/
  | acpFire (n : Fin 4)
  /-- `ACP_PULSE_END` (R87). -/
  | acpPulseEnd (n : Fin 4)
  /-- `ACP_ARM` (R88). -/
  | acpArm (m : Master) (n : Fin 4)
  /-- `SEQ_GO` (R60). -/
  | seqGo (m : Master) (n : Fin 4)
  /-- `SEQ_DELAY_EXPIRY` (R60). -/
  | seqDelayExpiry (n : Fin 4)
  /-- `ADC_ENTRY_RESULT` (R59). The raw samples of entry `e` of sequencer `n`, those of the converter that samples along in a hand-over (empty when none), and whether the residue check finds the datum right. -/
  | adcEntryResult (n : Fin 4) (e : Fin 32) (raw : List Int) (incoming : List Int) (resOk : Bool)
  /-- `QUEUE_READ` (R65). -/
  | queueRead (m : Master) (q : Fin 4)
  /-- `CAL_START` (R58). -/
  | calStart (m : Master)
  /-- `CAL_COMPLETE` (R58). The new factors of converters 0 to 12, as words of ACQ_CALp. -/
  | calComplete (factors : List Word)
  /-- `ROT_CAL_COMPLETE` (R57). The new factors of the released converter, as a word of ACQ_CALp. -/
  | rotCalComplete (factors : Word)
  /-- `BURNOUT_TEST_RESULT` (R68). The raw result of the extra conversion. -/
  | burnoutTestResult (raw : Int)
  /-- `SV_STREAM_STALE` (R73). -/
  | svStreamStale (st : Fin 8)
  /-- `FORMING_FRAME` (R97). The channel in which a residue check of FRM_ (a measurement channel) or of PRF_ (a profile channel) fails, if any. -/
  | formingFrame (frmBad prfBad : Option (BitVec 8))
  /-- `ISLAND_DETECT` (R128). Which condition of R128 has held for its time. -/
  | islandDetect (why : IslandCause)
  /-- `BSARM_WRITE` (R129). -/
  | bsarmWrite (m : Master) (v : Word)
  /-- `PRF_LOAD` (R114). -/
  | prfLoad (m : Master) (n : Fin 8)
  /-- `PORT_WORD_ARRIVAL` (R153). The next word on its way to input port `p` of tile `t`. -/
  | portWordArrival (t : Fin 128) (p : Fin 8)
  /-- `NOP` (R151). Tile `t` issues it in cycle `c` after fabric start. -/
  | nop (t : Fin 128) (c : Fin 800)
  /-- `END` (R151). Tile `t` issues it in cycle `c` after fabric start. -/
  | endOp (t : Fin 128) (c : Fin 800)
  /-- `CLR` (R151). Tile `t` issues it at `c`. -/
  | clr (t : Fin 128) (c : ArmIssue)
  /-- `LDA` (R151). Tile `t` issues it in cycle `c` after fabric start; `hit` is what strikes it. -/
  | lda (t : Fin 128) (c : Fin 800) (hit : ArmHit)
  /-- `MUL` (R151). Tile `t` issues it in cycle `c` after fabric start; `hit` is what strikes it. -/
  | mul (t : Fin 128) (c : Fin 800) (hit : ArmHit)
  /-- `MAC` (R151). Tile `t` issues it in cycle `c` after fabric start; `hit` is what strikes it. -/
  | mac (t : Fin 128) (c : Fin 800) (hit : ArmHit)
  /-- `MSU` (R151). Tile `t` issues it in cycle `c` after fabric start; `hit` is what strikes it. -/
  | msu (t : Fin 128) (c : Fin 800) (hit : ArmHit)
  /-- `ADD` (R151). Tile `t` issues it in cycle `c` after fabric start; `hit` is what strikes it. -/
  | add (t : Fin 128) (c : Fin 800) (hit : ArmHit)
  /-- `SUB` (R151). Tile `t` issues it in cycle `c` after fabric start; `hit` is what strikes it. -/
  | sub (t : Fin 128) (c : Fin 800) (hit : ArmHit)
  /-- `ADDA` (R151). Tile `t` issues it in cycle `c` after fabric start; `hit` is what strikes it. -/
  | adda (t : Fin 128) (c : Fin 800) (hit : ArmHit)
  /-- `SUBA` (R151). Tile `t` issues it in cycle `c` after fabric start; `hit` is what strikes it. -/
  | suba (t : Fin 128) (c : Fin 800) (hit : ArmHit)
  /-- `SHA` (R151). Tile `t` issues it in cycle `c` after fabric start; `hit` is what strikes it. -/
  | sha (t : Fin 128) (c : Fin 800) (hit : ArmHit)
  /-- `NEG` (R151). Tile `t` issues it in cycle `c` after fabric start; `hit` is what strikes it. -/
  | neg (t : Fin 128) (c : Fin 800) (hit : ArmHit)
  /-- `ABS` (R151). Tile `t` issues it in cycle `c` after fabric start; `hit` is what strikes it. -/
  | abs (t : Fin 128) (c : Fin 800) (hit : ArmHit)
  /-- `MAX` (R151). Tile `t` issues it in cycle `c` after fabric start; `hit` is what strikes it. -/
  | max (t : Fin 128) (c : Fin 800) (hit : ArmHit)
  /-- `MIN` (R151). Tile `t` issues it in cycle `c` after fabric start; `hit` is what strikes it. -/
  | min (t : Fin 128) (c : Fin 800) (hit : ArmHit)
  /-- `LIM` (R151). Tile `t` issues it in cycle `c` after fabric start; `hit` is what strikes it. -/
  | lim (t : Fin 128) (c : Fin 800) (hit : ArmHit)
  /-- `STR` (R147). Tile `t` issues it in cycle `c` after fabric start; `hit` is what strikes it. -/
  | str (t : Fin 128) (c : Fin 800) (hit : ArmHit)
  /-- `MOV` (R151). Tile `t` issues it in cycle `c` after fabric start; `hit` is what strikes it. -/
  | mov (t : Fin 128) (c : Fin 800) (hit : ArmHit)
  /-- `SEL` (R151). Tile `t` issues it in cycle `c` after fabric start; `hit` is what strikes it. -/
  | sel (t : Fin 128) (c : Fin 800) (hit : ArmHit)
  /-- `LDX` (R151). Tile `t` issues it in cycle `c` after fabric start; `hit` is what strikes it. -/
  | ldx (t : Fin 128) (c : Fin 800) (hit : ArmHit)
  /-- `STX` (R151). Tile `t` issues it in cycle `c` after fabric start; `hit` is what strikes it. -/
  | stx (t : Fin 128) (c : Fin 800) (hit : ArmHit)
  /-- `SIN` (R151). Tile `t` issues it in cycle `c` after fabric start; `hit` is what strikes it. -/
  | sin (t : Fin 128) (c : Fin 800) (hit : ArmHit)
  /-- `COS` (R151). Tile `t` issues it in cycle `c` after fabric start; `hit` is what strikes it. -/
  | cos (t : Fin 128) (c : Fin 800) (hit : ArmHit)
  /-- `ATN` (R155). Tile `t` issues it in cycle `c` after fabric start; `hit` is what strikes it. -/
  | atn (t : Fin 128) (c : Fin 800) (hit : ArmHit)
  /-- `SQR` (R155). Tile `t` issues it in cycle `c` after fabric start; `hit` is what strikes it. -/
  | sqr (t : Fin 128) (c : Fin 800) (hit : ArmHit)
  /-- `DIV` (R155). Tile `t` issues it in cycle `c` after fabric start; `hit` is what strikes it. -/
  | div (t : Fin 128) (c : Fin 800) (hit : ArmHit)
  /-- `MAG` (R151). Tile `t` issues it in cycle `c` after fabric start; `hit` is what strikes it. -/
  | mag (t : Fin 128) (c : Fin 800) (hit : ArmHit)
  /-- `ILLEGAL_INSTRUCTION` (R154). Tile `t` issues it in cycle `c` after fabric start. -/
  | illegalInstruction (t : Fin 128) (c : Fin 800)
  /-- `ARM_RUN1` (R169). The write of RUN1 = 1 leaves EN at `en`. -/
  | armRun1 (m : Master) (en : Bool)
  /-- `PCOMMIT` (R171). -/
  | pcommit (m : Master)
  /-- `TILE_DATA_WRITE` (R171). -/
  | tileDataWrite (m : Master) (t : Fin 128) (a : Fin 1024) (v : Word)
  /-- `PROGRAM_FIRST_WORD_WRITE` (R172). -/
  | programFirstWordWrite (m : Master) (t : Fin 128) (slot : Fin 256) (v : Word)
  /-- `PROGRAM_SECOND_WORD_WRITE` (R172). -/
  | programSecondWordWrite (m : Master) (t : Fin 128) (slot : Fin 256) (v : Word)
  /-- `MODULATOR_FRAME` (R196). The slot, by global index, in which a residue check of MOD_ or of RSP_ fails, if any. -/
  | modulatorFrame (modBad rspBad : Option (Fin 8192))
  /-- `TELEMETRY_STALE` (R181). -/
  | telemetryStale (j : Fin 8192)
  /-- `LINK_FRAME_LAUNCH` (R215). `bad` lists the slots whose residue check fails at the transmitter. -/
  | linkFrameLaunch (p : Fin 32) (bad : List (Fin 512))
  /-- `LINK_FRAME_RECEIVED` (R212). A frame after SOF_R (`ret`) or SOF_P, from the header to its CRC-32C; `rt` is the interval of R219 or R221 that the port measured with it, in 0.05 ns. -/
  | linkFrameReceived (p : Fin 32) (ret : Bool) (f : List Byte) (rt : BitVec 24)
  /-- `LINK_RX_ALIGN` (R206). `invert`: 16 violations in 1,024 code groups have inverted the polarity. -/
  | linkRxAlign (p : Fin 32) (invert : Bool)
  /-- `LINK_RX_LOS` (R239). -/
  | linkRxLos (p : Fin 32)
  /-- `LINK_RANGE_START` (R238). -/
  | linkRangeStart (p : Fin 32)
  /-- `LINK_IDCHECK_START` (R238). -/
  | linkIdcheckStart (p : Fin 32)
  /-- `RESTART` (R238). -/
  | restart (m : Master) (p : Fin 32)
  /-- `LINK_BREAK` (R239). -/
  | linkBreak (p : Fin 32)
  /-- `LINK_SWAP_DETECTED` (R239). -/
  | linkSwapDetected (p : Fin 32)
  /-- `POINT_MIRROR_WRITE` (R233). The point with point address `a` (R11). -/
  | pointMirrorWrite (m : Master) (a : BitVec 18) (v : Word)
  /-- `POINT_REPLY_TIMEOUT` (R234). -/
  | pointReplyTimeout (j : Fin 8192)
  /-- `NODE_SELF_TEST_PASS` (R224). -/
  | nodeSelfTestPass (j : Fin 8192)
  /-- `NODE_FRAME_PROCESS` (R212). The frame from header to CRC-32C, received on side D or U at the local time `arr` of the node's free-running count, in 0.05 ns. -/
  | nodeFrameProcess (j : Fin 8192) (fromD : Bool) (f : List Byte) (arr : Nat) (x : NodeSense)
  /-- `NODE_FRAME_REPEAT` (R213). A returning frame at the local time `arr`. -/
  | nodeFrameRepeat (j : Fin 8192) (fromD : Bool) (f : List Byte) (arr : Nat)
  /-- `NODE_FOLD` (R214). The downstream side on which it folds. -/
  | nodeFold (j : Fin 8192) (sideD : Bool)
  /-- `NODE_UNFOLD` (R214). -/
  | nodeUnfold (j : Fin 8192) (sideD : Bool)
  /-- `NODE_APPLY` (R217). At APPLY (0), at t1 (1) or at t2 (2). -/
  | nodeApply (j : Fin 8192) (phase : Fin 3)
  /-- `NODE_HOLD_ENTRY` (R228). -/
  | nodeHoldEntry (j : Fin 8192)
  /-- `NODE_BLOCK_ENTRY` (R228). -/
  | nodeBlockEntry (j : Fin 8192)
  /-- `NODE_ACQUIRE_TIMEOUT` (R224). -/
  | nodeAcquireTimeout (j : Fin 8192)
  /-- `NODE_PROTECTION_TRIP` (R224). `sw` is the switch state that the node's own design takes (4 blocked). -/
  | nodeProtectionTrip (j : Fin 8192) (cause : Fin 16) (sw : Fin 5)
  /-- `LEASE_RENEW_RECEIVED` (R247). -/
  | leaseRenewReceived (x : LeaseMsg)
  /-- `LEASE_ACK_RECEIVED` (R247). -/
  | leaseAckReceived (x : LeaseMsg)
  /-- `LEASE_RELEASE_RECEIVED` (R249). -/
  | leaseReleaseReceived (x : LeaseMsg)
  /-- `LEASE_HANDOVER_RECEIVED` (R252). -/
  | leaseHandoverReceived (x : LeaseMsg)
  /-- `HANDOVER` (R252). -/
  | handover (m : Master)
  /-- `MIR_EPOCH_WRITE` (R256). -/
  | mirEpochWrite (m : Master) (v : Word)
  /-- `MIRROR_RECORD_RECEIVED` (R263). -/
  | mirrorRecordReceived (r : MirRecord)
  /-- `MIRROR_LANE_LOSS` (R245). -/
  | mirrorLaneLoss (l : Fin 2)
  /-- `PAIR_PERIOD_START` (R272). The word of the frame input bank whose residue does not fit, if any. -/
  | pairPeriodStart (p : Fin 12) (bad : Option (BitVec 8))
  /-- `PAIR_ENABLE` (R273). -/
  | pairEnable (m : Master) (p : Fin 12)
  /-- `PAIR_DISABLE` (R283). -/
  | pairDisable (m : Master) (p : Fin 12)
  /-- `FAULT_INPUT_ACTIVE` (R280). The pin is at its active level. -/
  | faultInputActive (n : FaultPin)
  /-- `FAULT_INPUT_INACTIVE` (R281). The pin is at its inactive level. -/
  | faultInputInactive (n : FaultPin)
  /-- `ROG_DETECTION` (R290). The levels of the two comparators of channel `n` after a change; a rise is a crossing. -/
  | rogDetection (n : Fin 12) (soft hard : Bool)
  /-- `ROG_BLANK_END` (R288). -/
  | rogBlankEnd (n : Fin 12)
  /-- `ROG_SOFT_STAGE_START` (R291). -/
  | rogSoftStageStart (p : Fin 12)
  /-- `ROG_SOFT_STAGE_END` (R290). -/
  | rogSoftStageEnd (p : Fin 12)
  /-- `ROG_THRESHOLD_UPDATE` (R288). -/
  | rogThresholdUpdate (n : Fin 12)
  /-- `COIL_CHECK` (R294). The bias voltage of the coil, in 10 uV. -/
  | coilCheck (n : Fin 12) (vb : BitVec 16)
  /-- `POLARITY_TEST_START` (R295). -/
  | polarityTestStart (m : Master)
  /-- `POLARITY_TEST_DONE` (R295). -/
  | polarityTestDone (n : Fin 12)
  /-- `OV_CONTROLLER_RESULT` (R286). -/
  | ovControllerResult (c : Fin 2)
  /-- `OV_INVALID_TIMEOUT` (R287). -/
  | ovInvalidTimeout (c : Fin 2)
  /-- `FICLR` (R292). -/
  | ficlr (m : Master)
  /-- `DEVICE_HALT` (R370). -/
  | deviceHalt (m : Master)
  /-- `DEVICE_HALT_END` (R370). -/
  | deviceHaltEnd (m : Master)
  /-- `SAFETY_INPUT_FILTERED` (R299). Channel SIBn (`b`) or SIAn has been stable at `level`. -/
  | safetyInputFiltered (n : Fin 8) (b level : Bool)
  /-- `SAFETY_SCAN` (R302). The read-back levels of SOA0, SOB0 to SOB3, the first lowest. -/
  | safetyScan (rb : BitVec 8)
  /-- `DISCREPANCY_TIMEOUT` (R300). -/
  | discrepancyTimeout (n : Fin 8)
  /-- `TEST_PULSE_START` (R308). -/
  | testPulseStart (c : Fin 8)
  /-- `TEST_PULSE_END` (R308). The read-back levels at the end of the pulse. -/
  | testPulseEnd (rb : BitVec 8)
  /-- `READBACK_TIMEOUT` (R309). Channel `c` has read high (or low) for the time of R309. -/
  | readbackTimeout (c : Fin 8) (high : Bool)
  /-- `SAFETY_PTEST` (R308). -/
  | safetyPtest (m : Master)
  /-- `CST_ROW` (R321). The word of the row whose residue does not fit, if any. -/
  | cstRow (bad : Option (Fin 8))
  /-- `CAST_ARM` (R326). The write of ARM = 1 carries NCAST and OVW. -/
  | castArm (m : Master) (ncast : BitVec 12) (ovw : Bool)
  /-- `SWTRIG` (R328). -/
  | swtrig (m : Master)
  /-- `CST_HOLD` (R335). -/
  | cstHold (m : Master) (seg : BitVec 12)
  /-- `CST_REL` (R335). -/
  | cstRel (m : Master) (seg : BitVec 12)
  /-- `ETH_FRAME_RECEIVED` (R340). The frame from the destination address to the last payload byte, whether its FCS is right, what it carries where it is a heartbeat of the partner, and the channel whose value has a residue that does not fit, if any. -/
  | ethFrameReceived (p : Fin 8) (f : List Byte) (fcsOk : Bool) (hb : Heartbeat) (bad : Option (Fin 64))
  /-- `ETH_TX_RECORD` (R342). -/
  | ethTxRecord (p : Fin 8)
  /-- `ETH_FRAME_SENT` (R351). -/
  | ethFrameSent (p : Fin 8)
  /-- `LAUNCH_TIME_REACHED` (R356). -/
  | launchTimeReached (p : Fin 8)
  /-- `ETH_LINK_CHANGE` (R339). -/
  | ethLinkChange (p : Fin 8) (up : Bool)
  /-- `TXQHEAD_READ` (R351). -/
  | txqheadRead (m : Master)
  /-- `PTP_INCF_WRITE` (R344). -/
  | ptpIncfWrite (m : Master) (v : Word)
  /-- `PTP_TIME_WRITE` (R346). -/
  | ptpTimeWrite (m : Master) (v : Word)
  /-- `PPS_IN_EDGE` (R349). A deglitched edge of PPS_IN. -/
  | ppsInEdge (rising : Bool)
  /-- `TIME_TRIGGER_FIRE` (R354). -/
  | timeTriggerFire (k : Fin 16)
  /-- `PCIE_REQUEST` (R362). A read or write of `len` bytes from offset `ofs` of `dst` on, with what a write carries. -/
  | pcieRequest (dst : PcieTo) (write : Bool) (ofs len : Nat) (data : List Byte)
  /-- `CORE_RUN` (R365). -/
  | coreRun (m : Master) (c : Fin 4)
  /-- `CORE_RESET` (R365). -/
  | coreReset (m : Master) (c : Fin 4)
  /-- `WDT_KICK` (R369). -/
  | wdtKick (m : Master) (c : Fin 4) (v : Word)
  /-- `WDT_TIMEOUT` (R369). -/
  | wdtTimeout (c : Fin 4)
  /-- `MTIME_COMPARE_MATCH` (R368). -/
  | mtimeCompareMatch (c : Fin 4)
  /-- `RING_WR_WRITE` (R372). -/
  | ringWrWrite (m : Master) (n : Fin 64) (v : Word)
  /-- `RING_RD_WRITE` (R372). -/
  | ringRdWrite (m : Master) (n : Fin 64) (v : Word)
  /-- `DMA_START` (R375). -/
  | dmaStart (m : Master) (c : Fin 32)
  /-- `DMA_STOP` (R380). -/
  | dmaStop (m : Master) (c : Fin 32)
  /-- `DMA_KICK` (R376). -/
  | dmaKick (m : Master) (c : Fin 32)
  /-- `DMA_RESUME` (R380). -/
  | dmaResume (m : Master) (c : Fin 32)
  /-- `MBX_DATA_WRITE` (R382). -/
  | mbxDataWrite (m : Master) (c : Fin 32) (i : Fin 16) (v : Word)
  /-- `MBX_GO` (R382). -/
  | mbxGo (m : Master) (c : Fin 32)
  /-- `MBX_ACK` (R383). -/
  | mbxAck (m : Master) (c : Fin 32)
  /-- `MBX_EXPIRY` (R384). -/
  | mbxExpiry (c : Fin 32)
  /-- `MBX_NOTE_CLR` (R386). -/
  | mbxNoteClr (m : Master) (c : Fin 32)
  /-- `SEM_LOCK_READ` (R387). The masters whose reads meet in one crossbar cycle, in any order. -/
  | semLockRead (ms : List Master) (n : Fin 64)
  /-- `SEM_LOCK_WRITE` (R388). -/
  | semLockWrite (m : Master) (n : Fin 64)
  /-- `SEM_FORCE` (R388). -/
  | semForce (m : Master) (n : Fin 64)
  /-- `INT_HACK` (R392). -/
  | intHack (m : Master) (v : Byte)
  /-- `MAQUETTE_LOAD` (R404). Whether the flash reads at the primary and at the fallback place. -/
  | maquetteLoad (ok okFallback : Bool)
  /-- `MQT_HOSTGO` (R403). -/
  | mqtHostgo (m : Master) (len : Word)
  /-- `UART_IMAGE_RECEIVED` (R403). The bytes that followed the length. -/
  | uartImageReceived (bytes : List Byte)
  /-- `STAGE` (R421). -/
  | stage (m : Master)
  /-- `COMMIT` (R422). -/
  | commit (m : Master)
  /-- `CANCEL` (R421). -/
  | cancel (m : Master)
  /-- `ARB_COMMIT` (R419). -/
  | arbCommit (m : Master)
  /-- `KEY_REVOKE` (R419). -/
  | keyRevoke (m : Master) (slot : Fin 4)
  /-- `KEY_PROGRAM` (R419). -/
  | keyProgram (m : Master) (slot : Fin 4)
  /-- `CLOSE` (R419). -/
  | close (m : Master)
  /-- `FUSE_COMMAND_COMPLETE` (R419). Bit `k`: the `k`-th fuse of the command did not take (R419). -/
  | fuseCommandComplete (bad : BitVec 257)
  /-- `TAMPER_ACTIVE` (R418). The level of TAMP`n` that has been stable for 10 µs. -/
  | tamperActive (n : Fin 2) (level : Bool)
  /-- `MODE_REQUEST` (R427). -/
  | modeRequest (m : Master) (target : Fin 16)
  /-- `TRIP_REQUEST` (R430). -/
  | tripRequest (m : Master)
  /-- `PLL_LOCK` (R42). -/
  | pllLock (p : Pll)
  /-- `PLL_LOSS_OF_LOCK` (R42). -/
  | pllLossOfLock (p : Pll)
  /-- `CHIP_RESET` (R437). `boot` is what BOOT0 to BOOT2 show when the CHIP reset is released. -/
  | chipReset (m : Master) (key : Word) (boot : Fin 8)
  /-- `RST_N_LOW` (R433). RST_N goes low, or is released with `boot` on BOOT0 to BOOT2. -/
  | rstNLow (low : Bool) (boot : Fin 8)
  /-- `HIB` (R434). The KEY written with HIB = 1. -/
  | hib (m : Master) (key : BitVec 16)
  /-- `WAKE` (R435). The level of WAKE. -/
  | wake (level : Bool)
  /-- `SCRUB_PASS` (R443). A pass over array `a`; `struck` gives the words that have been upset since the last command and the bits flipped, and `late` whether the pass overran SI. -/
  | scrubPass (a : Fin 11) (struck : List Strike) (late : Bool)
  /-- `LBIST` (R458). The write of LBIST = 1 carries RMASK. -/
  | lbist (m : Master) (rmask : BitVec 8)
  /-- `LBIST_REGION_DONE` (R458). The signature of the region under test, and whether the boot ROM expects it. -/
  | lbistRegionDone (sig : Word) (good : Bool)
  /-- `MBIST` (R459). The write of MBIST = 1 carries AMASK. -/
  | mbist (m : Master) (amask : BitVec 16)
  /-- `MBIST_DONE` (R459). The arrays that failed, each with its first failing address. -/
  | mbistDone (failed : List (Fin 11 × Word))
  /-- `ABORT` (R460). -/
  | abort (m : Master)
  /-- `TRANSPARENT_TEST_WORD` (R461). Word `w` of array `a`; `differs`: a read-back differed from what was written; `last`: it is the last word of the array. -/
  | transparentTestWord (a : Fin 11) (w : Nat) (differs last : Bool)
  /-- `PATINA_JUDGEMENT` (R452). The worst slacks over 100 ms, signed, in ps. -/
  | patinaJudgement (core sup : BitVec 16)
  /-- `RESTORE` (R453). -/
  | restore (m : Master)
  /-- `BASECAP` (R455). -/
  | basecap (m : Master)
  /-- `PATINA_MEASUREMENT` (R451). -/
  | patinaMeasurement (x : PatMeas)
  /-- `PMBUS_ENABLE` (R456). The fields written with EN = 1, the exponent read from VOUT_MODE and the word read from READ_VOUT. -/
  | pmbusEnable (m : Master) (pagen : Bool) (page : Byte) (addr : BitVec 7) (mode : BitVec 5) (vout : BitVec 16)
  /-- `PMBUS_CONFIRM` (R456). The word read from READ_VOUT. -/
  | pmbusConfirm (vout : BitVec 16)
  /-- `PMBUS_ALERT` (R456). The level of PMB_ALERT, and the STATUS_WORD read while it is low. -/
  | pmbusAlert (low : Bool) (status : BitVec 16)
  /-- `TJ_MEASURE` (R477). The measured junction temperature, signed, in 1/16 degree Celsius. -/
  | tjMeasure (tj : BitVec 16)
  /-- `CONDENSE_CHANGE` (R477). The level of CONDENSE after the filter. -/
  | condenseChange (level : Bool)
  /-- `NODE_RX_ALIGN` (R206). The receiver of side D or U gains or loses alignment; `invert`: its polarity was inverted. -/
  | nodeRxAlign (j : Fin 8192) (sideD aligned invert : Bool)
  /-- `MIRROR_LANE_ALIGN` (R245). -/
  | mirrorLaneAlign (l : Fin 2)
  /-- `PCIE_LINK_UP` (R363). The link trains at Gen `speed + 1` with width x1 or x2. -/
  | pcieLinkUp (speed : Fin 3) (width : Fin 2)
  /-- `HOST_MSI_ENABLE` (R392). The host enables MSI and grants 2^`granted` vectors. -/
  | hostMsiEnable (granted : Fin 4)
  /-- `PAIR_OUTPUT_EDGE` (R288). The next placed edge of the pair; `exc` gives the channels on which a first excursion beyond SOFT / 4 follows within 5 us, and whether it is negative. -/
  | pairOutputEdge (p : Fin 12) (exc : List (Fin 12 × Bool))
  /-- `RAIL_MONITOR_RELEASE` (R433). `boot` is what BOOT0 to BOOT2 show when the CHIP reset is released. -/
  | railMonitorRelease (boot : Fin 8)
  /-- `SUP_SRAM_ACCESS` (R441). An access of `size` bytes at `a`; `v` is the stored value or the operand of the atomic. -/
  | supSramAccess (m : Master) (op : SramOp) (a : Word) (size : Nat) (v : Word)
  /-- `LATE_TRANSITION` (R452). The worst slacks with the late transition, signed, in ps. -/
  | lateTransition (core sup : BitVec 16)
  /-- `JTAG_INSTRUCTION` (R417). -/
  | jtagInstruction (i : Jtag)
  /-- `ANG_FRAME_UPDATE` (R82). -/
  | angFrameUpdate
  /-- `PLL_PERSISTENCE_EXPIRY` (R83). -/
  | pllPersistenceExpiry
  /-- `SECTOR_DEAD_TIMEOUT` (R80). -/
  | sectorDeadTimeout
  /-- `SAW_TIMEOUT` (R85). -/
  | sawTimeout
  /-- `ROT_SLOT_START` (R55). -/
  | rotSlotStart
  /-- `ROT_HANDOVER_DECISION` (R56). -/
  | rotHandoverDecision
  /-- `BURNOUT_TEST_START` (R68). -/
  | burnoutTestStart
  /-- `STAGE2_END` (R118). -/
  | stage2End
  /-- `IHOLD_TRIP` (R105). -/
  | iholdTrip
  /-- `RIDE_THROUGH_EXIT` (R124). -/
  | rideThroughExit
  /-- `BREAKER_CLOSED_DETECT` (R128). -/
  | breakerClosedDetect
  /-- `WAIT_DEAD_EXPIRY` (R130). -/
  | waitDeadExpiry
  /-- `CLAIM_SLOT_EXPIRY` (R132). -/
  | claimSlotExpiry
  /-- `JOIN_SETTLE` (R134). -/
  | joinSettle
  /-- `RESYNC_CLOSE_TIMEOUT` (R140). -/
  | resyncCloseTimeout
  /-- `RESYNC_GRID_TIMEOUT` (R138). -/
  | resyncGridTimeout
  /-- `FABRIC_START` (R162). -/
  | fabricStart
  /-- `ARMATURE_DEADLINE` (R164). -/
  | armatureDeadline
  /-- `RENEW_SEND` (R247). -/
  | renewSend
  /-- `MALLET_CLAIM` (R250). -/
  | malletClaim
  /-- `PAIR_IDLE_WAIT_END` (R253). -/
  | pairIdleWaitEnd
  /-- `HEARTBEAT_SEND` (R246). -/
  | heartbeatSend
  /-- `HBLOST` (R246). -/
  | hblost
  /-- `MIRROR_RECORD_SEND` (R262). -/
  | mirrorRecordSend
  /-- `SNAPSHOT_SEND` (R267). -/
  | snapshotSend
  /-- `SNAPLATE` (R267). -/
  | snaplate
  /-- `SAFETY_COPY_MISMATCH` (R311). -/
  | safetyCopyMismatch
  /-- `SAFETY_CFG_CRC_CHECK` (R317). -/
  | safetyCfgCrcCheck
  /-- `SAFETY_COMPARE_TIMEOUT` (R314). -/
  | safetyCompareTimeout
  /-- `SAFETY_NET_PERMIT` (R315). -/
  | safetyNetPermit
  /-- `SAFETY_NET_DEMAND` (R315). -/
  | safetyNetDemand
  /-- `SAFETY_NET_RESET` (R304). -/
  | safetyNetReset
  /-- `SAFETY_NET_PTEST` (R308). -/
  | safetyNetPtest
  /-- `NETTMO` (R315). -/
  | nettmo
  /-- `CAST_REARM` (R331). -/
  | castRearm
  /-- `MEASUREMENT_COMPLETE` (R333). -/
  | measurementComplete
  /-- `DEVICE_TIME_WRAP` (R347). -/
  | deviceTimeWrap
  /-- `SECOND_BOUNDARY` (R348). -/
  | secondBoundary
  /-- `PPS_PULSE_END` (R348). -/
  | ppsPulseEnd
  /-- `PCIE_LINK_LOSS` (R363). -/
  | pcieLinkLoss
  /-- `DMA_BURST_START` (R378). -/
  | dmaBurstStart
  /-- `DMA_BURST_END` (R377). -/
  | dmaBurstEnd
  /-- `UART_IMAGE_GAP_TIMEOUT` (R403). -/
  | uartImageGapTimeout
  /-- `STAGE_CHECK_COMPLETE` (R421). -/
  | stageCheckComplete
  /-- `LOCKOUT_ENTRY` (R436). -/
  | lockoutEntry
  /-- `REFCLK_LOST` (R43). -/
  | refclkLost
  /-- `POWER_ON` (R433). -/
  | powerOn
  /-- `HIBERNATE_ENTRY` (R434). -/
  | hibernateEntry
  /-- `PATINA_SUP_DERATE` (R453). -/
  | patinaSupDerate
  /-- `PATINA_LOG_WRITE` (R457). -/
  | patinaLogWrite
  /-- `VWAKE_LOSS` (R471). -/
  | vwakeLoss
  /-- `POWERED_HOUR` (R457). -/
  | poweredHour
  deriving DecidableEq, Repr

end Sys2Proof
end

