-- ==== Sys2Proof/Decode.lean ====
section
/-! DEFINITION. Decoding. No row of the table of operations and events gives bits: a command is no word of an instruction stream, and no
word spells one. -/

namespace Sys2Proof

/-- The command that a word of `nbits` bits spells: none, since no row gives bits. -/
def decodeTableWord (nbits w : Nat) : Option Instr :=
  match nbits, w with
  | _, _ => none

end Sys2Proof
end

