-- ==== Sys2Proof/Machine/Codes.lean ====
section
/-! DEFINITION. Byte strings and the codes computed over them: CRC-16 (R210), CRC-32C (R211), CRC-32 (R332, R394), SHA-256 (R264, R399)
and the signature check of R399. -/

namespace Sys2Proof.Machine

/-! ## Byte strings -/

/-- The `k` low bytes of `v`, little-endian (R1). -/
def leBytes (k v : Nat) : List Nat :=
  match k with
  | 0 => []
  | k + 1 => v % 256 :: leBytes k (v / 256)

/-- The number whose little-endian bytes are `l`. -/
def leNat : List Nat → Nat
  | [] => 0
  | b :: r => b % 256 + 256 * leNat r

/-- The number whose big-endian bytes are `l`. -/
def beNat (l : List Nat) : Nat := l.foldl (fun a b => a * 256 + b % 256) 0

/-- The `k` low bytes of `v`, big-endian. -/
def beBytes (k v : Nat) : List Nat := (leBytes k v).reverse

/-- `n` bits of `v` from bit `lo`. -/
def bitsOf (v lo n : Nat) : Nat := v / 2 ^ lo % 2 ^ n

/-- `v` with `n` bits from bit `lo` replaced by `x`. -/
def putBits (v lo n x : Nat) : Nat := v - bitsOf v lo n * 2 ^ lo + x % 2 ^ n * 2 ^ lo

/-! ## Cyclic redundancy codes -/

/-- `k` shifts of a CRC-16 register, polynomial 0x1021, most significant bit first. -/
def crc16Bits (k c : Nat) : Nat :=
  match k with
  | 0 => c
  | k + 1 => crc16Bits k (if 32768 ≤ c then (c * 2 % 65536) ^^^ 0x1021 else c * 2)

/-- The CRC-16 of R210 over a byte string. -/
def crc16 (l : List Nat) : Nat := l.foldl (fun c b => crc16Bits 8 (c ^^^ (b % 256 * 256))) 0xFFFF

/-- `k` shifts of a reflected CRC-32 register with polynomial `p` (reflected). -/
def crc32Bits (p k c : Nat) : Nat :=
  match k with
  | 0 => c
  | k + 1 => crc32Bits p k (if c % 2 = 1 then (c / 2) ^^^ p else c / 2)

/-- A reflected CRC-32 with initial value and final exclusive OR 0xFFFF_FFFF. -/
def crc32With (p : Nat) (l : List Nat) : Nat :=
  (l.foldl (fun c b => crc32Bits p 8 (c ^^^ (b % 256))) 0xFFFFFFFF) ^^^ 0xFFFFFFFF

/-- The CRC-32C of R211: polynomial 0x1EDC_6F41. -/
def crc32c (l : List Nat) : Nat := crc32With 0x82F63B78 l

/-! ## SHA-256 -/

/-- The integer part of the `k`-th root of `x`, on top of `r`, from bit `n - 1` down. -/
def rootBits (k x n r : Nat) : Nat :=
  match n with
  | 0 => r
  | n + 1 => rootBits k x n (if (r + 2 ^ n) ^ k ≤ x then r + 2 ^ n else r)

/-- The first 32 bits of the fraction of the `k`-th root of `p`, the root below 16. -/
def fracRoot (k p : Nat) : Nat := rootBits k (p * 2 ^ (32 * k)) 36 0 % 2 ^ 32

/-- The primes up to 311, which are 64. -/
def shaPrimes : List Nat := (List.range 312).foldl (fun ps n => if 2 ≤ n ∧ ps.all (fun q => n % q != 0) then ps ++ [n] else ps) []

/-- Rotate a 32-bit word right. -/
def rotr (n x : Nat) : Nat := (x / 2 ^ n + x * 2 ^ (32 - n)) % 2 ^ 32

/-- The sum modulo 2 of the word's rotations by the amounts `r`. -/
def rotMix (r : List Nat) (x : Nat) : Nat := r.foldl (fun y n => y ^^^ rotr n x) 0

/-- SHA-256 within a block: the last four values of the two working sequences and the next 16 words of the schedule, the sequences newest
first, the words oldest first. -/
structure ShaWork where
  as : List Nat
  es : List Nat
  ws : List Nat
  deriving DecidableEq, Repr

/-- A round with constant `k`: each sequence takes one value on, and the schedule one word. -/
def ShaWork.round (x : ShaWork) (k : Nat) : ShaWork :=
  let a := fun n => x.as.getD n 0
  let e := fun n => x.es.getD n 0
  let w := fun n => x.ws.getD n 0
  let choice := e 2 ^^^ (e 0 &&& (e 1 ^^^ e 2))
  let majority := (a 0 &&& (a 1 ||| a 2)) ||| (a 1 &&& a 2)
  let feed := e 3 + rotMix [6, 11, 25] (e 0) + choice + k + w 0
  let next := w 0 + (rotMix [7, 18] (w 1) ^^^ w 1 / 2 ^ 3) + w 9 + (rotMix [17, 19] (w 14) ^^^ w 14 / 2 ^ 10)
  { as := (feed + rotMix [2, 13, 22] (a 0) + majority) % 2 ^ 32 :: x.as.take 3, es := (a 3 + feed) % 2 ^ 32 :: x.es.take 3,
    ws := x.ws.drop 1 ++ [next % 2 ^ 32] }

/-- The chaining value `h` after one block of 64 bytes, with the round constants `ks`. -/
def shaBlock (ks h block : List Nat) : List Nat :=
  let x := ks.foldl ShaWork.round { as := h.take 4, es := h.drop 4, ws := (List.range 16).map (fun i => beNat ((block.drop (4 * i)).take 4)) }
  List.zipWith (fun u v => (u + v) % 2 ^ 32) h (x.as ++ x.es)

/-- SHA-256 of a byte string (R397), as a number whose big-endian bytes are the digest: the constants are fractions of the cube roots of the
first 64 primes and of the square roots of the first eight, as FIPS 180-4 defines them. -/
def sha256 (l : List Nat) : Nat :=
  let text := l ++ 0x80 :: List.replicate ((119 - l.length % 64) % 64) 0 ++ beBytes 8 (l.length * 8)
  let ks := shaPrimes.map (fracRoot 3)
  let h := (List.range (text.length / 64)).foldl (fun h i => shaBlock ks h ((text.drop (64 * i)).take 64)) ((shaPrimes.take 8).map (fracRoot 2))
  h.foldl (fun n w => n * 2 ^ 32 + w) 0

/-! ## Signatures over the curve P-256 -/

def p256P : Nat := 0xffffffff00000001000000000000000000000000ffffffffffffffffffffffff
def p256N : Nat := 0xffffffff00000000ffffffffffffffffbce6faada7179e84f3b9cac2fc632551
def p256B : Nat := 0x5ac635d8aa3a93e7b3ebbd55769886bc651d06b0cc53b0f63bce3c3e27d2604b
def p256G : Nat × Nat :=
  (0x6b17d1f2e12c4247f8bce6e563a440f277037d812deb33a0f4a13945d898c296,
   0x4fe342e2fe1a7f9b8ee7eb4a7c0f9e162bce33576b315ececbb6406837bf51f5)

/-- `b ^ e` modulo `m` over `fuel` bits of `e`. -/
def powMod (fuel m b e : Nat) : Nat :=
  match fuel with
  | 0 => 1 % m
  | fuel + 1 =>
    let h := powMod fuel m (b * b % m) (e / 2)
    if e % 2 = 1 then b * h % m else h

/-- The inverse modulo the prime `m`. -/
def invMod (m x : Nat) : Nat := powMod 256 m (x % m) (m - 2)

/-- The sum of two points of the curve; `none` is the point at infinity. -/
def ecAdd (a b : Option (Nat × Nat)) : Option (Nat × Nat) :=
  match a, b with
  | none, b => b
  | a, none => a
  | some (x1, y1), some (x2, y2) =>
    if x1 = x2 ∧ (y1 + y2) % p256P = 0 then none
    else
      let l :=
        if x1 = x2 then (3 * x1 * x1 + (p256P - 3)) * invMod p256P (2 * y1) % p256P
        else (y2 + p256P - y1) * invMod p256P (x2 + p256P - x1) % p256P
      let x3 := (l * l + 2 * p256P - x1 - x2) % p256P
      some (x3, (l * (x1 + p256P - x3) + p256P - y1) % p256P)

/-- `k` times a point, over `fuel` bits of `k`. -/
def ecMul (fuel k : Nat) (a : Option (Nat × Nat)) : Option (Nat × Nat) :=
  match fuel with
  | 0 => none
  | fuel + 1 =>
    let h := ecMul fuel (k / 2) (ecAdd a a)
    if k % 2 = 1 then ecAdd a h else h

/-- Whether `(r, t)` is a signature of the digest `z` under the public key `(qx, qy)` (ECDSA over P-256, R399). -/
def ecdsaOk (z r t qx qy : Nat) : Bool :=
  let onCurve := decide (qx < p256P) && decide (qy < p256P)
    && decide (qy * qy % p256P = (qx * qx * qx + (p256P - 3) * qx + p256B) % p256P)
  let inRange := decide (0 < r) && decide (r < p256N) && decide (0 < t) && decide (t < p256N)
  let w := invMod p256N t
  match ecAdd (ecMul 256 (z * w % p256N) (some p256G)) (ecMul 256 (r * w % p256N) (some (qx, qy))) with
  | some (x, _) => onCurve && inRange && decide (x % p256N = r)
  | none => false

end Sys2Proof.Machine
end

