-- ==== Sys2Proof/Config.lean ====
section
/-! DEFINITION. The free values: what the spec leaves open and the machine goes on with. Constants without a body, so that nothing
can be proved of their values. -/

namespace Sys2Proof

/-- The `n`-th free value drawn (log 3). A meaning that needs a value within a bound reduces it to the bound. -/
opaque Config.freeNat : Nat → Nat

/-- What the designer of node `j` fixes (log 21): identity, residence times, type, maker code, its own points. The spec leaves them to
the node; a meaning reduces each to the range the spec gives. -/
opaque Config.nodeParam (j what : Nat) : Nat

/-- The node's filter of its clock error (R222): from the last filtered error and the new raw one (log 21). -/
opaque Config.nodeFilter (j : Nat) (last raw : Int) : Int

/-- The correction a node makes for a filtered clock error, before the limit of R222 (log 21). -/
opaque Config.nodeSlew (j : Nat) (err : Int) : Int

/-- Word `w` of the boot ROM, whose contents the spec does not give (log 37). A meaning reduces it to 32 bits. -/
opaque Config.romWord : Nat → Nat

end Sys2Proof
end

