-- ==== Sys2Proof/Machine/Numbers.lean ====
section
/-! DEFINITION. Exact integer arithmetic of the number formats (R2 to R9) and a fine fixed-point grid for the real-valued formulas:
an `Int` in units of 2^-60. Square roots, sines, cosines and arctangents are evaluated on that grid; the spec's bounded computing
errors are added as free values where a value is reported. -/

namespace Sys2Proof.Machine

/-- Round half to even of `n / d`, `d` positive. -/
def rhe (n d : Int) : Int :=
  let q := n / d
  let r := n - q * d
  if 2 * r < d then q else if d < 2 * r then q + 1 else if q % 2 = 0 then q else q + 1

/-- Saturate to `n` bits, signed. -/
def satInt (n : Nat) (i : Int) : Int :=
  let m : Int := (2 ^ (n - 1) : Nat)
  if i < -m then -m else if m - 1 < i then m - 1 else i

/-- One on the grid. -/
def fxOne : Int := 1152921504606846976

/-- `n / d` on the grid. -/
def fxRat (n d : Int) : Int := n * fxOne / d

/-- Product and quotient on the grid. -/
def fxMul (a b : Int) : Int := a * b / fxOne
def fxDiv (a b : Int) : Int := if b = 0 then 0 else a * fxOne / b

/-- Newton steps towards the integer square root, `fuel` bounding their number. -/
def sqrtStep (fuel n x : Nat) : Nat :=
  match fuel with
  | 0 => x
  | fuel + 1 =>
    let y := (x + n / x) / 2
    if y < x then sqrtStep fuel n y else x

/-- The integer square root. -/
def natSqrt (n : Nat) : Nat := if n = 0 then 0 else sqrtStep 400 n (2 ^ (n.log2 / 2 + 1))

/-- Square root on the grid; 0 for what is not positive. -/
def fxSqrt (a : Int) : Int := if a ≤ 0 then 0 else (natSqrt (a.toNat * fxOne.toNat) : Nat)

/-- Pi on the grid. -/
def fxPi : Int := 3622009729038561421

/-- The Taylor sum for sine and cosine: the term `t`, divided by `k * (k + 1)` and multiplied by `-x2` from step to step. -/
def taylor (fuel : Nat) (x2 t k acc : Int) : Int :=
  match fuel with
  | 0 => acc
  | fuel + 1 => let t' := -(fxMul t x2) / (k * (k + 1)); taylor fuel x2 t' (k + 2) (acc + t')

/-- Sine and cosine of an angle in radians on the grid, at most a quarter turn. -/
def fxSinSmall (x : Int) : Int := taylor 14 (fxMul x x) x 2 x
def fxCosSmall (x : Int) : Int := taylor 14 (fxMul x x) fxOne 1 fxOne

/-- Cosine and sine of an angle given in turns on the grid. -/
def fxCosSin (turns : Int) : Int × Int :=
  let t := turns % fxOne
  let q := (t * 4 + fxOne / 2) / fxOne
  let r := t - q * (fxOne / 4)
  let x := fxMul (2 * fxPi) r
  let c := fxCosSmall x
  let s := fxSinSmall x
  match q % 4 with
  | 0 => (c, s)
  | 1 => (-s, c)
  | 2 => (-c, -s)
  | _ => (s, -c)

/-- The series of the arctangent of `x` (small), in radians on the grid. -/
def atanSeries (fuel : Nat) (x2 p k acc : Int) : Int :=
  match fuel with
  | 0 => acc
  | fuel + 1 => let p' := -(fxMul p x2); atanSeries fuel x2 p' (k + 2) (acc + p' / k)

/-- Arctangent in radians of `x` between -1 and 1, by two halvings of the angle and the series. -/
def fxAtanSmall (x : Int) : Int :=
  let half (x : Int) : Int := fxDiv x (fxOne + fxSqrt (fxOne + fxMul x x))
  let y := half (half (half x))
  8 * atanSeries 20 (fxMul y y) y 3 y

/-- The angle of the vector (x, y) in turns on the grid, from 0 up to one turn; 0 for the null vector. -/
def fxAtan2 (y x : Int) : Int :=
  if x = 0 ∧ y = 0 then 0
  else
    let ax : Int := x.natAbs
    let ay : Int := y.natAbs
    let a := if ay ≤ ax then fxAtanSmall (fxDiv ay ax) else fxPi / 2 - fxAtanSmall (fxDiv ax ay)
    let b := if x < 0 then fxPi - a else a
    let c := if y < 0 then -b else b
    fxDiv c (2 * fxPi) % fxOne

/-- A Q1.15 word on the grid. -/
def fxQ15 (i : Int) : Int := i * fxOne / 32768

/-- A grid value as an integer count of units of 2^-k, rounded half to even. -/
def fxTo (k : Nat) (a : Int) : Int := rhe (a * (2 ^ k : Nat)) fxOne

/-- The counts of units of 2^-k that lie within `b` units of the value `a`, `a` not itself a count: the least, and how many there are. -/
def fxNear (k : Nat) (b : Int) (a : Int) : Int × Nat :=
  let x := a * (2 ^ k : Nat)
  let lo := -(-x / fxOne) - b
  (lo, (x / fxOne + b - lo + 1).toNat)

/-- A grid value held within the range of a signed Q2.n number (R5). -/
def fxQ2 (a : Int) : Int := if a < -(2 * fxOne) then -(2 * fxOne) else if 2 * fxOne - 1073741824 < a then 2 * fxOne - 1073741824 else a

/-- A number of turns, as the signed part of a turn (R9). -/
def fxTurn (a : Int) : Int := (a + fxOne / 2) % fxOne - fxOne / 2

/-- A count of units of 2^-k on the grid. -/
def fxFrom (k : Nat) (i : Int) : Int := i * fxOne / (2 ^ k : Nat)

/-- The mod-15 residue of an unsigned pattern (R6). -/
def residue (n : Nat) : Nat := n % 15

end Sys2Proof.Machine
end

