-- ==== Sys2Proof/Machine/RegTable.lean ====
section
/-! DEFINITION. The register table: one row per register (or register array) of the register tables of spec/, with its
name, address, index strides and counts, reset domain (R16) and fields (lowest bit, width, access code R12, reset value).
It serves the accesses of a master (R13-R15) and the resets (R16); the reserved bits have no row and read 0 (R14). -/

namespace Sys2Proof.Machine

def regTable_4000 : List Card := [
  ⟨"SUP_RGN_CTRL", 0x40000100, [], .chip, [⟨8, 8, .wo, 0⟩, ⟨0, 8, .rw, 1⟩]⟩,
  ⟨"SUP_RGN_STAT", 0x40000104, [], .chip, [⟨24, 8, .w1c, 0⟩, ⟨16, 8, .w1c, 0⟩, ⟨8, 8, .ro, 0xFE⟩, ⟨0, 8, .ro, 1⟩]⟩,
  ⟨"SUP_CORECTRL", 0x40000200, [], .sup, [⟨4, 4, .wo, 0⟩, ⟨0, 4, .rw, 1⟩]⟩,
  ⟨"SUP_CORESTAT", 0x40000204, [], .sup, [⟨0, 2, .ro, 0⟩, ⟨2, 1, .w1c, 0⟩, ⟨8, 2, .ro, 0⟩, ⟨10, 1, .w1c, 0⟩, ⟨16, 2, .ro, 0⟩, ⟨18, 1, .w1c, 0⟩, ⟨24, 2, .ro, 0⟩, ⟨26, 1, .w1c, 0⟩]⟩,
  ⟨"SUP_BOOTADDR", 0x40000210, [(0x4, 4)], .sup, [⟨0, 32, .rw, 0⟩]⟩,
  ⟨"SUP_WDT", 0x40000220, [(0x4, 4)], .sup, [⟨31, 1, .rw, 0⟩, ⟨0, 24, .rw, 0x2710⟩]⟩,
  ⟨"SUP_WDTKICK", 0x40000230, [(0x4, 4)], .sup, [⟨0, 32, .wo, 0⟩]⟩,
  ⟨"SUP_MTIMELO", 0x40000240, [], .sup, [⟨0, 32, .rw, 0⟩]⟩,
  ⟨"SUP_MTIMEHI", 0x40000244, [], .sup, [⟨0, 32, .rw, 0⟩]⟩,
  ⟨"SUP_MTIMECMP", 0x40000250, [(0x8, 4)], .sup, [⟨0, 32, .rw, 0xFFFFFFFF⟩]⟩,
  ⟨"SUP_MTIMECMPH", 0x40000254, [(0x8, 4)], .sup, [⟨0, 32, .rw, 0xFFFFFFFF⟩]⟩,
  ⟨"SUP_MSIP", 0x40000270, [], .sup, [⟨0, 4, .rw, 0⟩]⟩,
  ⟨"SUP_DBG", 0x40000280, [], .sup, [⟨1, 1, .ro, 0⟩, ⟨0, 1, .rw, 0⟩]⟩,
  ⟨"SUP_MODE", 0x40000300, [], .chip, [⟨8, 1, .w1c, 0⟩, ⟨4, 4, .ro, 1⟩, ⟨0, 4, .ro, 1⟩]⟩,
  ⟨"SUP_MODEREQ", 0x40000304, [], .chip, [⟨5, 1, .wo, 0⟩, ⟨4, 1, .wo, 0⟩, ⟨0, 4, .rw, 2⟩]⟩,
  ⟨"SUP_MODESTAT", 0x40000308, [], .chip, [⟨31, 1, .ro, 0⟩, ⟨30, 1, .w1c, 0⟩, ⟨20, 4, .ro, 0⟩, ⟨16, 4, .ro, 0⟩, ⟨0, 16, .rw, 0⟩]⟩,
  ⟨"SUP_MODETIME", 0x4000030C, [], .chip, [⟨0, 32, .ro, 0⟩]⟩,
  ⟨"SUP_TRIP", 0x40000310, [], .chip, [⟨24, 5, .ro, 0x1F⟩, ⟨10, 1, .w1c, 0⟩, ⟨9, 1, .w1c, 0⟩, ⟨8, 1, .w1c, 0⟩, ⟨7, 1, .w1c, 0⟩, ⟨6, 1, .w1c, 0⟩, ⟨5, 1, .w1c, 0⟩, ⟨4, 1, .w1c, 0⟩, ⟨3, 1, .w1c, 0⟩, ⟨2, 1, .w1c, 0⟩, ⟨1, 1, .w1c, 0⟩, ⟨0, 1, .w1c, 0⟩]⟩,
  ⟨"SUP_TRIPTIME", 0x40000314, [], .chip, [⟨0, 32, .ro, 0⟩]⟩,
  ⟨"SUP_LOCK", 0x40000318, [], .por, [⟨28, 4, .ro, 0⟩, ⟨24, 4, .ro, 0⟩, ⟨0, 1, .w1c, 0⟩]⟩,
  ⟨"SUP_LOCKTIME", 0x4000031C, [], .por, [⟨0, 32, .ro, 0⟩]⟩,
  ⟨"SUP_CHIPRST", 0x40000320, [], .chip, [⟨0, 32, .wo, 0⟩]⟩]

def regTable_4001 : List Card := [
  ⟨"MBX_CTRL", 0x40010000, [], .sup, [⟨0, 1, .ro, 1⟩]⟩,
  ⟨"MBX_STAT", 0x40010004, [], .sup, [⟨16, 16, .ro, 0⟩, ⟨0, 4, .ro, 1⟩]⟩,
  ⟨"MBX_FULL", 0x40010008, [], .sup, [⟨0, 32, .ro, 0⟩]⟩,
  ⟨"MBX_NOTED", 0x4001000C, [], .sup, [⟨0, 32, .ro, 0⟩]⟩,
  ⟨"MBX_CCFG", 0x40011000, [(0x100, 32)], .sup, [⟨31, 1, .rwl, 0⟩, ⟨24, 4, .rwl, 0⟩, ⟨20, 4, .rwl, 0⟩, ⟨0, 17, .rwl, 0x3E8⟩]⟩,
  ⟨"MBX_CCMD", 0x40011004, [(0x100, 32)], .sup, [⟨1, 1, .wo, 0⟩, ⟨0, 1, .wo, 0⟩]⟩,
  ⟨"MBX_CSTAT", 0x40011008, [(0x100, 32)], .sup, [⟨31, 1, .ro, 0⟩, ⟨16, 8, .ro, 0⟩, ⟨0, 16, .ro, 0⟩]⟩,
  ⟨"MBX_CNOTE", 0x4001100C, [(0x100, 32)], .sup, [⟨31, 1, .ro, 0⟩, ⟨4, 1, .wo, 0⟩, ⟨0, 4, .ro, 0⟩]⟩,
  ⟨"MBX_D", 0x40011040, [(0x100, 32), (0x4, 16)], .sup, [⟨0, 32, .rw, 0⟩]⟩]

def regTable_4002 : List Card := [
  ⟨"SEM_CTRL", 0x40020000, [], .sup, [⟨0, 1, .ro, 1⟩]⟩,
  ⟨"SEM_STAT", 0x40020004, [], .sup, [⟨16, 16, .ro, 0⟩, ⟨0, 4, .ro, 1⟩]⟩,
  ⟨"SEM_ALRM", 0x40020008, [], .sup, [⟨1, 1, .w1c, 0⟩, ⟨0, 1, .w1c, 0⟩]⟩,
  ⟨"SEM_FORCE", 0x4002000C, [], .sup, [⟨0, 6, .wo, 0⟩]⟩,
  ⟨"SEM_OWNER", 0x40020010, [(0x4, 8)], .sup, [⟨0, 32, .ro, 0xFFFFFFFF⟩]⟩,
  ⟨"SEM_LOCK", 0x40020100, [(0x4, 64)], .sup, [⟨31, 1, .ro, 0⟩, ⟨0, 4, .ro, 0xF⟩]⟩]

def regTable_4003 : List Card := [
  ⟨"INT_CTRL", 0x40030000, [], .sup, [⟨0, 1, .ro, 1⟩]⟩,
  ⟨"INT_STAT", 0x40030004, [], .sup, [⟨16, 16, .ro, 0⟩, ⟨0, 4, .ro, 1⟩]⟩,
  ⟨"INT_SUM", 0x40030008, [], .sup, [⟨9, 1, .ro, 0⟩, ⟨8, 1, .ro, 0⟩, ⟨0, 8, .ro, 0⟩]⟩,
  ⟨"INT_RCAUSE", 0x40030010, [(0x4, 8)], .sup, [⟨0, 16, .ro, 0⟩]⟩,
  ⟨"INT_EN", 0x40030100, [(0x40, 6), (0x4, 8)], .sup, [⟨0, 16, .rw, 0⟩]⟩,
  ⟨"INT_TEN", 0x40030120, [(0x40, 6)], .sup, [⟨1, 1, .rw, 0⟩, ⟨0, 1, .rw, 0⟩]⟩,
  ⟨"INT_TPEND", 0x40030124, [(0x40, 6)], .sup, [⟨0, 10, .ro, 0⟩]⟩,
  ⟨"INT_HVEC", 0x40030300, [], .sup, [⟨24, 3, .rw, 0⟩, ⟨0, 24, .rw, 0⟩]⟩,
  ⟨"INT_HACK", 0x40030304, [], .sup, [⟨0, 8, .wo, 0⟩]⟩,
  ⟨"INT_PERR", 0x40030400, [], .sup, [⟨31, 1, .w1c, 0⟩, ⟨24, 4, .ro, 0⟩, ⟨20, 4, .ro, 0⟩]⟩,
  ⟨"INT_PERRADDR", 0x40030404, [], .sup, [⟨0, 32, .ro, 0⟩]⟩,
  ⟨"INT_PERRCNT", 0x40030408, [], .sup, [⟨0, 16, .rw, 0⟩]⟩,
  ⟨"INT_ERR", 0x40030500, [], .sup, [⟨31, 1, .w1c, 0⟩, ⟨30, 1, .ro, 0⟩, ⟨28, 2, .ro, 0⟩, ⟨24, 4, .ro, 0⟩, ⟨20, 4, .ro, 0⟩, ⟨16, 4, .ro, 0⟩, ⟨0, 16, .ro, 0⟩]⟩,
  ⟨"INT_ERRADDR", 0x40030504, [], .sup, [⟨0, 32, .ro, 0⟩]⟩,
  ⟨"INT_ERRTIME", 0x40030508, [], .sup, [⟨0, 32, .ro, 0⟩]⟩,
  ⟨"INT_ERRCNT", 0x4003050C, [], .sup, [⟨16, 16, .rw, 0⟩, ⟨8, 8, .rw, 0⟩, ⟨0, 8, .rw, 0⟩]⟩]

def regTable_4004 : List Card := [
  ⟨"DMA_CTRL", 0x40040000, [], .sup, [⟨0, 1, .rw, 0⟩]⟩,
  ⟨"DMA_STAT", 0x40040004, [], .sup, [⟨16, 16, .ro, 0⟩, ⟨0, 4, .ro, 0⟩]⟩,
  ⟨"DMA_ALRM", 0x40040008, [], .sup, [⟨0, 1, .w1c, 0⟩]⟩,
  ⟨"DMA_DONE", 0x4004000C, [], .sup, [⟨0, 32, .w1c, 0⟩]⟩,
  ⟨"DMA_ERRCH", 0x40040010, [], .sup, [⟨0, 32, .w1c, 0⟩]⟩,
  ⟨"DMA_SRC", 0x40040100, [(0x20, 32)], .sup, [⟨0, 32, .rw, 0⟩]⟩,
  ⟨"DMA_DST", 0x40040104, [(0x20, 32)], .sup, [⟨0, 32, .rw, 0⟩]⟩,
  ⟨"DMA_COUNT", 0x40040108, [(0x20, 32)], .sup, [⟨0, 24, .rw, 0⟩]⟩,
  ⟨"DMA_CFG", 0x4004010C, [(0x20, 32)], .sup, [⟨24, 8, .rw, 0⟩, ⟨18, 6, .rw, 0⟩, ⟨12, 6, .rw, 0⟩, ⟨11, 1, .rw, 0⟩, ⟨10, 1, .rw, 0⟩, ⟨8, 2, .rw, 0⟩, ⟨7, 1, .rw, 1⟩, ⟨6, 1, .rw, 1⟩, ⟨5, 1, .rw, 0⟩]⟩,
  ⟨"DMA_CMD", 0x40040110, [(0x20, 32)], .sup, [⟨3, 1, .wo, 0⟩, ⟨2, 1, .wo, 0⟩, ⟨1, 1, .wo, 0⟩, ⟨0, 1, .wo, 0⟩]⟩,
  ⟨"DMA_CSTAT", 0x40040114, [(0x20, 32)], .sup, [⟨29, 3, .ro, 0⟩, ⟨26, 3, .ro, 0⟩, ⟨25, 1, .ro, 0⟩]⟩,
  ⟨"DMA_FAIL", 0x40040118, [(0x20, 32)], .sup, [⟨0, 32, .ro, 0⟩]⟩,
  ⟨"DMA_LEFT", 0x4004011C, [(0x20, 32)], .sup, [⟨0, 24, .ro, 0⟩]⟩]

def regTable_4005 : List Card := [
  ⟨"RNG_CTRL", 0x40050000, [], .sup, [⟨0, 1, .ro, 1⟩]⟩,
  ⟨"RNG_STAT", 0x40050004, [], .sup, [⟨16, 16, .ro, 0⟩, ⟨0, 4, .ro, 1⟩]⟩,
  ⟨"RNG_ALRM", 0x40050008, [], .sup, [⟨0, 1, .w1c, 0⟩]⟩,
  ⟨"RNG_WMSTAT0", 0x40050010, [], .sup, [⟨0, 32, .ro, 0⟩]⟩,
  ⟨"RNG_WMSTAT1", 0x40050014, [], .sup, [⟨0, 32, .ro, 0⟩]⟩,
  ⟨"RNG_CFG", 0x40050100, [(0x20, 64)], .sup, [⟨28, 4, .rwl, 0⟩, ⟨26, 2, .rwl, 0⟩, ⟨21, 5, .rwl, 0⟩, ⟨19, 2, .rwl, 0⟩, ⟨16, 3, .rwl, 0⟩]⟩,
  ⟨"RNG_BASE", 0x40050104, [(0x20, 64)], .sup, [⟨0, 32, .rwl, 0x10000000⟩]⟩,
  ⟨"RNG_WR", 0x40050108, [(0x20, 64)], .sup, [⟨0, 21, .rw, 0⟩]⟩,
  ⟨"RNG_RD", 0x4005010C, [(0x20, 64)], .sup, [⟨0, 21, .rw, 0⟩]⟩,
  ⟨"RNG_WM", 0x40050110, [(0x20, 64)], .sup, [⟨31, 1, .rw, 0⟩, ⟨0, 15, .rw, 1⟩]⟩]

def regTable_4006 : List Card := [
  ⟨"MQT_CTRL", 0x40060000, [], .sup, [⟨0, 1, .ro, 1⟩]⟩,
  ⟨"MQT_STAT", 0x40060004, [], .sup, [⟨16, 16, .ro, 0⟩, ⟨14, 2, .ro, 0⟩, ⟨11, 3, .ro, 0⟩, ⟨10, 1, .ro, 0⟩, ⟨0, 4, .ro, 1⟩]⟩,
  ⟨"MQT_ALRM", 0x40060008, [], .sup, [⟨3, 1, .w1c, 0⟩, ⟨2, 1, .w1c, 0⟩, ⟨1, 1, .w1c, 0⟩, ⟨0, 1, .w1c, 0⟩]⟩,
  ⟨"MQT_ERR", 0x4006000C, [], .sup, [⟨24, 8, .ro, 0⟩, ⟨16, 8, .ro, 0⟩, ⟨14, 2, .ro, 0⟩]⟩,
  ⟨"MQT_ERROFS", 0x40060010, [], .sup, [⟨0, 32, .ro, 0⟩]⟩,
  ⟨"MQT_VER", 0x40060014, [], .sup, [⟨0, 32, .ro, 0⟩]⟩,
  ⟨"MQT_LVER", 0x40060018, [], .sup, [⟨0, 32, .ro, 0⟩]⟩,
  ⟨"MQT_LADDR", 0x40060020, [], .sup, [⟨0, 32, .rw, 0x10000000⟩]⟩,
  ⟨"MQT_LCMD", 0x40060024, [], .sup, [⟨2, 1, .wo, 0⟩, ⟨1, 1, .wo, 0⟩, ⟨0, 1, .wo, 0⟩]⟩,
  ⟨"MQT_LFRAME", 0x40060028, [], .sup, [⟨16, 16, .ro, 0⟩]⟩,
  ⟨"MQT_LFRAMEAT", 0x4006002C, [], .sup, [⟨16, 1, .rw, 0⟩, ⟨0, 16, .rw, 0⟩]⟩,
  ⟨"MQT_LDONE", 0x40060030, [], .sup, [⟨0, 16, .ro, 0⟩]⟩,
  ⟨"MQT_HOSTGO", 0x40060034, [], .sup, [⟨0, 32, .wo, 0⟩]⟩,
  ⟨"MQT_BUILD", 0x40060040, [(0x4, 4)], .sup, [⟨0, 32, .ro, 0⟩]⟩]

def regTable_4007 : List Card := [
  ⟨"SEC_CTRL", 0x40070000, [], .chip, [⟨0, 1, .ro, 1⟩]⟩,
  ⟨"SEC_STAT", 0x40070004, [], .chip, [⟨16, 16, .ro, 0⟩, ⟨15, 1, .ro, 0⟩, ⟨13, 2, .ro, 0⟩, ⟨11, 2, .ro, 0⟩, ⟨10, 1, .ro, 0⟩, ⟨0, 4, .ro, 1⟩]⟩,
  ⟨"SEC_ALRM", 0x40070008, [], .chip, [⟨2, 1, .w1c, 0⟩, ⟨1, 1, .w1c, 0⟩, ⟨0, 1, .w1c, 0⟩]⟩,
  ⟨"SEC_FUSE", 0x4007000C, [], .chip, [⟨12, 4, .ro, 0⟩, ⟨8, 4, .ro, 0⟩, ⟨0, 7, .ro, 0⟩]⟩,
  ⟨"SEC_CMD", 0x40070010, [], .chip, [⟨8, 2, .wo, 0⟩, ⟨0, 4, .wo, 0⟩]⟩,
  ⟨"SEC_KEYSTAGE", 0x40070020, [(0x4, 8)], .chip, [⟨0, 32, .rw, 0⟩]⟩,
  ⟨"SEC_TAMPTIME", 0x40070040, [(0x4, 2)], .chip, [⟨0, 32, .ro, 0⟩]⟩,
  ⟨"SEC_UIDLO", 0x40070050, [], .chip, [⟨0, 32, .ro, 0⟩]⟩,
  ⟨"SEC_UIDHI", 0x40070054, [], .chip, [⟨0, 32, .ro, 0⟩]⟩]

def regTable_4008 : List Card := [
  ⟨"PAT_CTRL", 0x40080000, [], .sup, [⟨5, 1, .wo, 0⟩, ⟨4, 1, .wo, 0⟩, ⟨3, 1, .rw, 1⟩, ⟨2, 1, .rw, 1⟩, ⟨1, 1, .rw, 0⟩, ⟨0, 1, .rw, 0⟩]⟩,
  ⟨"PAT_STAT", 0x40080004, [], .sup, [⟨16, 16, .ro, 0⟩, ⟨14, 2, .ro, 0⟩, ⟨13, 1, .ro, 0⟩, ⟨0, 4, .ro, 0⟩]⟩,
  ⟨"PAT_ALRM", 0x40080008, [], .sup, [⟨7, 1, .w1c, 0⟩, ⟨6, 1, .w1c, 0⟩, ⟨5, 1, .w1c, 0⟩, ⟨4, 1, .w1c, 0⟩, ⟨3, 1, .w1c, 0⟩, ⟨2, 1, .w1c, 0⟩, ⟨1, 1, .w1c, 0⟩, ⟨0, 1, .w1c, 0⟩]⟩,
  ⟨"PAT_VCFG", 0x40080010, [], .sup, [⟨20, 12, .rw, 0x352⟩, ⟨8, 12, .rw, 0x2BC⟩, ⟨0, 8, .rw, 5⟩]⟩,
  ⟨"PAT_SCFG", 0x40080014, [], .sup, [⟨24, 8, .rw, 4⟩, ⟨16, 8, .rw, 8⟩, ⟨8, 8, .rw, 0x18⟩]⟩,
  ⟨"PAT_SLACK", 0x40080018, [], .sup, [⟨16, 16, .ro, 0⟩, ⟨0, 16, .ro, 0⟩]⟩,
  ⟨"PAT_VREQ", 0x4008001C, [], .sup, [⟨16, 16, .rw, 0⟩, ⟨0, 16, .ro, 0⟩]⟩,
  ⟨"PAT_MARGIN", 0x40080020, [], .sup, [⟨16, 16, .ro, 0x7FFF⟩, ⟨0, 16, .ro, 0xFFFF⟩]⟩,
  ⟨"PAT_SRAM", 0x40080024, [], .sup, [⟨0, 16, .ro, 0⟩]⟩,
  ⟨"PAT_REF", 0x40080028, [], .sup, [⟨16, 16, .ro, 0⟩, ⟨0, 16, .ro, 0⟩]⟩,
  ⟨"PAT_EYECFG", 0x4008002C, [], .sup, [⟨24, 8, .rw, 0x10⟩, ⟨16, 8, .rw, 0xC⟩, ⟨8, 8, .rw, 8⟩]⟩,
  ⟨"PAT_EYEALRM", 0x40080030, [(0x4, 2)], .sup, [⟨0, 32, .w1c, 0⟩]⟩,
  ⟨"PAT_HOURS", 0x40080038, [], .sup, [⟨0, 32, .rw, 0⟩]⟩,
  ⟨"PAT_LOGCFG", 0x4008003C, [], .sup, [⟨16, 16, .rw, 0x2D0⟩, ⟨0, 4, .ro, 0⟩]⟩,
  ⟨"PAT_EYE", 0x40080100, [(0x4, 44)], .sup, [⟨24, 8, .rw, 0⟩, ⟨16, 8, .ro, 0⟩, ⟨8, 8, .ro, 0⟩]⟩,
  ⟨"PAT_LOG0", 0x40080200, [(0x10, 16)], .sup, [⟨0, 32, .rw, 0⟩]⟩,
  ⟨"PAT_LOG1", 0x40080204, [(0x10, 16)], .sup, [⟨16, 16, .rw, 0⟩, ⟨0, 16, .rw, 0⟩]⟩,
  ⟨"PAT_LOG2", 0x40080208, [(0x10, 16)], .sup, [⟨16, 16, .rw, 0⟩, ⟨8, 8, .rw, 0⟩]⟩,
  ⟨"PAT_LOG3", 0x4008020C, [(0x10, 16)], .sup, [⟨16, 16, .rw, 0⟩, ⟨0, 16, .rw, 0⟩]⟩]

def regTable_4009 : List Card := [
  ⟨"BST_CTRL", 0x40090000, [], .sup, [⟨1, 1, .rw, 1⟩, ⟨0, 1, .rw, 1⟩]⟩,
  ⟨"BST_STAT", 0x40090004, [], .sup, [⟨16, 16, .ro, 0⟩, ⟨14, 2, .ro, 0⟩, ⟨0, 4, .ro, 0⟩]⟩,
  ⟨"BST_ALRM", 0x40090008, [], .sup, [⟨5, 1, .w1c, 0⟩, ⟨4, 1, .w1c, 0⟩, ⟨3, 1, .w1c, 0⟩, ⟨2, 1, .w1c, 0⟩, ⟨1, 1, .w1c, 0⟩, ⟨0, 1, .w1c, 0⟩]⟩,
  ⟨"BST_CMD", 0x4009000C, [], .sup, [⟨16, 16, .rw, 0⟩, ⟨8, 8, .rw, 0⟩, ⟨2, 1, .wo, 0⟩, ⟨1, 1, .wo, 0⟩, ⟨0, 1, .wo, 0⟩]⟩,
  ⟨"BST_RESULT", 0x40090010, [], .sup, [⟨16, 16, .ro, 0⟩, ⟨8, 8, .ro, 0⟩, ⟨0, 8, .ro, 0⟩]⟩,
  ⟨"BST_LSIG", 0x40090100, [(0x4, 8)], .sup, [⟨0, 32, .ro, 0⟩]⟩,
  ⟨"BST_SCR", 0x40090200, [(0x10, 11)], .sup, [⟨16, 16, .rw, 0x64⟩, ⟨0, 16, .rw, 0x64⟩]⟩,
  ⟨"BST_ECC", 0x40090204, [(0x10, 11)], .sup, [⟨16, 16, .rw, 0⟩, ⟨8, 8, .rw, 0⟩, ⟨0, 8, .rw, 0⟩]⟩,
  ⟨"BST_TB", 0x40090208, [(0x10, 11)], .sup, [⟨0, 32, .rw, 0⟩]⟩,
  ⟨"BST_CTHR", 0x4009020C, [(0x10, 11)], .sup, [⟨0, 16, .rw, 4⟩]⟩]

def regTable_400A : List Card := [
  ⟨"PWR_CFG", 0x400A0000, [], .sup, [⟨31, 1, .rw, 0⟩, ⟨30, 1, .rw, 0⟩, ⟨16, 8, .rw, 0⟩, ⟨0, 7, .rw, 0⟩]⟩,
  ⟨"PWR_VSET", 0x400A0004, [], .sup, [⟨16, 16, .ro, 0⟩, ⟨0, 16, .ro, 0⟩]⟩,
  ⟨"PWR_STAT", 0x400A0008, [], .sup, [⟨16, 16, .ro, 0⟩, ⟨2, 1, .w1c, 0⟩, ⟨1, 1, .w1c, 0⟩, ⟨0, 1, .ro, 0⟩]⟩,
  ⟨"PWR_ENV", 0x400A000C, [], .sup, [⟨31, 1, .w1c, 0⟩, ⟨30, 1, .ro, 0⟩, ⟨29, 1, .w1c, 0⟩, ⟨28, 1, .rw, 0⟩, ⟨27, 1, .rw, 0⟩, ⟨16, 8, .rw, 0x73⟩, ⟨0, 16, .ro, 0⟩]⟩]

def regTable_4100 : List Card := [
  ⟨"NET_CTRL", 0x41000000, [], .net, [⟨1, 1, .rw, 0⟩, ⟨0, 1, .rw, 0⟩]⟩,
  ⟨"NET_STAT", 0x41000004, [], .net, [⟨16, 16, .ro, 0⟩, ⟨0, 4, .ro, 0⟩]⟩,
  ⟨"NET_ALRM", 0x41000008, [], .net, [⟨4, 1, .w1c, 0⟩, ⟨3, 1, .w1c, 0⟩, ⟨2, 1, .w1c, 0⟩, ⟨1, 1, .w1c, 0⟩, ⟨0, 1, .w1c, 0⟩]⟩,
  ⟨"NET_PCIE", 0x41000010, [], .net, [⟨6, 2, .ro, 0⟩, ⟨4, 2, .ro, 0⟩, ⟨3, 1, .ro, 0⟩, ⟨0, 3, .ro, 0⟩]⟩,
  ⟨"NET_PCFG", 0x41000100, [(0x40, 8)], .net, [⟨31, 1, .rw, 0⟩, ⟨30, 1, .rw, 0⟩, ⟨29, 1, .rw, 1⟩, ⟨28, 1, .rw, 0⟩, ⟨8, 6, .rw, 0⟩, ⟨0, 6, .rw, 0⟩]⟩,
  ⟨"NET_MACLO", 0x41000104, [(0x40, 8)], .net, [⟨0, 32, .rw, 0⟩]⟩,
  ⟨"NET_MACHI", 0x41000108, [(0x40, 8)], .net, [⟨0, 16, .rw, 0⟩]⟩,
  ⟨"NET_PSTAT", 0x4100010C, [(0x40, 8)], .net, [⟨2, 1, .ro, 0⟩, ⟨1, 1, .ro, 0⟩, ⟨0, 1, .ro, 0⟩]⟩,
  ⟨"NET_LAT", 0x41000110, [(0x40, 8)], .net, [⟨16, 16, .rw, 0⟩, ⟨0, 16, .rw, 0⟩]⟩,
  ⟨"NET_RXCNT", 0x41000114, [(0x40, 8)], .net, [⟨16, 16, .rw, 0⟩, ⟨0, 16, .rw, 0⟩]⟩,
  ⟨"NET_TXCNT", 0x41000118, [(0x40, 8)], .net, [⟨24, 8, .rw, 0⟩, ⟨16, 8, .rw, 0⟩, ⟨0, 16, .rw, 0⟩]⟩,
  ⟨"NET_ERRCNT", 0x4100011C, [(0x40, 8)], .net, [⟨16, 16, .rw, 0⟩, ⟨0, 16, .rw, 0⟩]⟩,
  ⟨"NET_MCLO", 0x41001000, [(0x100, 8), (0x8, 16)], .net, [⟨0, 32, .rw, 0⟩]⟩,
  ⟨"NET_MCHI", 0x41001004, [(0x100, 8), (0x8, 16)], .net, [⟨31, 1, .rw, 0⟩, ⟨0, 16, .rw, 0⟩]⟩]

def regTable_4101 : List Card := [
  ⟨"PTP_CTRL", 0x41010000, [], .net, [⟨3, 1, .rw, 0⟩, ⟨2, 1, .rw, 0⟩, ⟨1, 1, .rw, 0⟩, ⟨0, 1, .rw, 1⟩]⟩,
  ⟨"PTP_STAT", 0x41010004, [], .net, [⟨16, 16, .ro, 0⟩, ⟨4, 6, .ro, 0⟩, ⟨0, 4, .ro, 1⟩]⟩,
  ⟨"PTP_ALRM", 0x41010008, [], .net, [⟨5, 1, .w1c, 0⟩, ⟨4, 1, .w1c, 0⟩, ⟨3, 1, .w1c, 0⟩, ⟨2, 1, .w1c, 0⟩, ⟨1, 1, .w1c, 0⟩, ⟨0, 1, .w1c, 0⟩]⟩,
  ⟨"PTP_TIME", 0x41010010, [], .net, [⟨0, 32, .rw, 0⟩]⟩,
  ⟨"PTP_INC", 0x41010014, [], .net, [⟨0, 8, .rw, 4⟩]⟩,
  ⟨"PTP_INCF", 0x41010018, [], .net, [⟨0, 32, .rw, 0⟩]⟩,
  ⟨"PTP_SECBASE", 0x4101001C, [], .net, [⟨0, 32, .rw, 0⟩]⟩,
  ⟨"PTP_PPSCFG", 0x41010020, [], .net, [⟨0, 8, .rw, 0x64⟩]⟩,
  ⟨"PTP_PPSIN", 0x41010024, [], .net, [⟨0, 32, .ro, 0⟩]⟩,
  ⟨"PTP_TXQHEAD", 0x41010030, [], .net, [⟨31, 1, .ro, 0⟩, ⟨16, 8, .ro, 0⟩, ⟨0, 16, .ro, 0⟩]⟩,
  ⟨"PTP_TXQTIME", 0x41010034, [], .net, [⟨29, 3, .ro, 0⟩]⟩,
  ⟨"PTP_TXQSTAMP", 0x41010038, [], .net, [⟨0, 32, .ro, 0⟩]⟩,
  ⟨"PTP_TRGCFG", 0x41010100, [], .net, [⟨31, 1, .rwl, 0⟩, ⟨0, 26, .rwl, 0⟩]⟩,
  ⟨"PTP_TRGCFG", 0x41010110, [(0x10, 15)], .net, [⟨31, 1, .rw, 0⟩, ⟨0, 26, .rw, 0⟩]⟩,
  ⟨"PTP_TRGNEXT", 0x41010104, [], .net, [⟨0, 32, .rwl, 0⟩]⟩,
  ⟨"PTP_TRGNEXT", 0x41010114, [(0x10, 15)], .net, [⟨0, 32, .rw, 0⟩]⟩,
  ⟨"PTP_TRGSTAT", 0x41010108, [(0x10, 16)], .net, [⟨16, 16, .rw, 0⟩, ⟨0, 16, .rw, 0⟩]⟩]

def regTable_4102 : List Card := [
  ⟨"SVS_CTRL", 0x41020000, [], .net, [⟨0, 1, .rw, 0⟩]⟩,
  ⟨"SVS_STAT", 0x41020004, [], .net, [⟨16, 16, .ro, 0⟩, ⟨0, 4, .ro, 0⟩]⟩,
  ⟨"SVS_ALRM", 0x41020008, [], .net, [⟨2, 1, .w1c, 0⟩, ⟨1, 1, .w1c, 0⟩, ⟨0, 1, .w1c, 0⟩]⟩,
  ⟨"SVS_SCFG", 0x41020100, [(0x20, 8)], .net, [⟨31, 1, .rw, 0⟩, ⟨27, 4, .rw, 0⟩, ⟨26, 1, .rw, 0⟩, ⟨25, 1, .rw, 0⟩, ⟨0, 16, .rw, 0x4000⟩]⟩,
  ⟨"SVS_SDALO", 0x41020104, [(0x20, 8)], .net, [⟨0, 32, .rw, 0⟩]⟩,
  ⟨"SVS_SDAHI", 0x41020108, [(0x20, 8)], .net, [⟨0, 16, .rw, 0⟩]⟩,
  ⟨"SVS_SID", 0x4102010C, [(0x20, 8)], .net, [⟨0, 32, .rw, 0⟩]⟩,
  ⟨"SVS_CONF", 0x41020110, [(0x20, 8)], .net, [⟨0, 32, .rw, 1⟩]⟩,
  ⟨"SVS_SCNT", 0x41020114, [(0x20, 8)], .net, [⟨16, 16, .rw, 0⟩, ⟨0, 16, .rw, 0⟩]⟩,
  ⟨"SVS_SLAST", 0x41020118, [(0x20, 8)], .net, [⟨24, 8, .ro, 0⟩, ⟨0, 16, .ro, 0⟩]⟩,
  ⟨"SVS_BIND", 0x41020400, [(0x8, 32)], .net, [⟨31, 1, .rw, 0⟩, ⟨16, 3, .rw, 0⟩, ⟨8, 5, .rw, 0⟩, ⟨0, 6, .rw, 0⟩]⟩,
  ⟨"SVS_MUL", 0x41020404, [(0x8, 32)], .net, [⟨0, 16, .rw, 1⟩]⟩]

def regTable_4103 : List Card := [
  ⟨"MIR_CTRL", 0x41030000, [], .net, [⟨2, 1, .wo, 0⟩, ⟨1, 1, .rw, 1⟩, ⟨0, 1, .rw, 0⟩]⟩,
  ⟨"MIR_STAT", 0x41030004, [], .net, [⟨16, 16, .ro, 0⟩, ⟨14, 2, .ro, 0⟩, ⟨13, 1, .ro, 0⟩, ⟨11, 2, .ro, 0⟩, ⟨10, 1, .ro, 0⟩, ⟨0, 4, .ro, 0⟩]⟩,
  ⟨"MIR_ALRM", 0x41030008, [], .net, [⟨11, 1, .w1c, 0⟩, ⟨10, 1, .w1c, 0⟩, ⟨9, 1, .w1c, 0⟩, ⟨8, 1, .w1c, 0⟩, ⟨7, 1, .w1c, 0⟩, ⟨6, 1, .w1c, 0⟩, ⟨5, 1, .w1c, 0⟩, ⟨4, 1, .w1c, 0⟩, ⟨3, 1, .w1c, 0⟩, ⟨2, 1, .w1c, 0⟩, ⟨1, 1, .w1c, 0⟩, ⟨0, 1, .w1c, 0⟩]⟩,
  ⟨"MIR_CFG", 0x41030010, [], .net, [⟨16, 16, .ro, 0⟩, ⟨4, 1, .ro, 0⟩, ⟨3, 1, .ro, 0⟩, ⟨2, 1, .ro, 0⟩, ⟨0, 2, .ro, 0⟩]⟩,
  ⟨"MIR_LEASE", 0x41030014, [], .net, [⟨16, 8, .ro, 5⟩, ⟨0, 16, .ro, 0x12C⟩]⟩,
  ⟨"MIR_EPOCH", 0x41030018, [], .net, [⟨0, 32, .rw, 0⟩]⟩,
  ⟨"MIR_EPSEEN", 0x4103001C, [], .net, [⟨0, 32, .ro, 0⟩]⟩,
  ⟨"MIR_LE", 0x41030020, [], .net, [⟨0, 32, .ro, 0⟩]⟩,
  ⟨"MIR_TOFS", 0x41030024, [], .net, [⟨0, 32, .ro, 0⟩]⟩,
  ⟨"MIR_CNT", 0x41030028, [], .net, [⟨16, 16, .rw, 0⟩, ⟨0, 16, .rw, 0⟩]⟩,
  ⟨"MIR_SNAP", 0x4103002C, [], .net, [⟨16, 16, .ro, 0xFFFF⟩, ⟨0, 7, .ro, 0xA⟩]⟩,
  ⟨"MIR_CLAIMTIME", 0x41030030, [], .net, [⟨0, 32, .ro, 0⟩]⟩,
  ⟨"MIR_TXW", 0x41030100, [(0x4, 32)], .net, [⟨0, 32, .rw, 0⟩]⟩,
  ⟨"MIR_RXW", 0x41030180, [(0x4, 32)], .net, [⟨0, 32, .ro, 0⟩]⟩]

def regTable_4200 : List Card := [
  ⟨"ACQ_CTRL", 0x42000000, [], .acq, [⟨1, 1, .wo, 0⟩, ⟨0, 1, .rw, 0⟩]⟩,
  ⟨"ACQ_STAT", 0x42000004, [], .acq, [⟨16, 16, .ro, 0⟩, ⟨4, 1, .ro, 0⟩, ⟨0, 4, .ro, 0⟩]⟩,
  ⟨"ACQ_ROT", 0x42000010, [], .acq, [⟨31, 1, .rw, 0⟩, ⟨8, 8, .rw, 0x10⟩, ⟨0, 8, .rw, 0xA⟩]⟩,
  ⟨"ACQ_ROTSTAT", 0x42000014, [], .acq, [⟨31, 1, .ro, 0⟩, ⟨30, 1, .w1c, 0⟩, ⟨16, 14, .ro, 0⟩, ⟨12, 4, .ro, 0xF⟩, ⟨8, 4, .ro, 0xF⟩, ⟨4, 4, .ro, 0xC⟩, ⟨0, 4, .ro, 0⟩]⟩,
  ⟨"ACQ_ITEST", 0x42000020, [], .acq, [⟨0, 32, .rw, 0⟩]⟩,
  ⟨"ACQ_ITHR", 0x42000024, [], .acq, [⟨16, 16, .rw, 0xA3D⟩, ⟨0, 16, .rw, 0x10⟩]⟩,
  ⟨"ACQ_OPEN", 0x42000028, [], .acq, [⟨0, 32, .w1c, 0⟩]⟩,
  ⟨"ACQ_SHORT", 0x4200002C, [], .acq, [⟨0, 32, .w1c, 0⟩]⟩,
  ⟨"ACQ_SEQCFG", 0x42000100, [(0x10, 4)], .acq, [⟨28, 4, .rw, 0⟩, ⟨24, 4, .rw, 0⟩, ⟨12, 10, .rw, 0⟩, ⟨6, 1, .wo, 0⟩, ⟨0, 6, .rw, 0⟩]⟩,
  ⟨"ACQ_SEQSTAT", 0x42000104, [(0x10, 4)], .acq, [⟨16, 16, .rw, 0⟩, ⟨6, 1, .ro, 0⟩, ⟨0, 6, .ro, 0⟩]⟩,
  ⟨"ACQ_SEQTIME", 0x42000108, [(0x10, 4)], .acq, [⟨0, 32, .ro, 0⟩]⟩,
  ⟨"ACQ_QCFG", 0x42000200, [(0x10, 4)], .acq, [⟨0, 11, .rw, 0x100⟩]⟩,
  ⟨"ACQ_QSTAT", 0x42000204, [(0x10, 4)], .acq, [⟨16, 16, .rw, 0⟩, ⟨15, 1, .w1c, 0⟩, ⟨0, 11, .ro, 0⟩]⟩,
  ⟨"ACQ_QDATA", 0x42000208, [(0x10, 4)], .acq, [⟨0, 32, .ro, 0xFFFFFFFF⟩]⟩,
  ⟨"ACQ_CAL", 0x42000300, [(0x4, 13)], .acq, [⟨16, 16, .rw, 0x4000⟩, ⟨0, 16, .rw, 0⟩]⟩,
  ⟨"ACQ_CHVAL", 0x42000400, [(0x4, 64)], .acq, [⟨31, 1, .ro, 0⟩, ⟨30, 1, .ro, 0⟩, ⟨29, 1, .ro, 0⟩, ⟨28, 1, .ro, 0⟩, ⟨20, 6, .ro, 0⟩, ⟨16, 4, .ro, 0⟩, ⟨0, 16, .ro, 0⟩]⟩,
  ⟨"ACQ_CHTIME", 0x42000500, [(0x4, 64)], .acq, [⟨0, 32, .ro, 0⟩]⟩,
  ⟨"ACQ_CHMAP", 0x42000600, [(0x4, 64)], .acq, [⟨2, 1, .rw, 0⟩, ⟨0, 2, .rw, 0⟩]⟩,
  ⟨"ACQ_SEQENT", 0x42001000, [(0x80, 4), (0x4, 32)], .acq, [⟨12, 4, .rw, 0⟩, ⟨8, 4, .rw, 0⟩, ⟨0, 5, .rw, 0⟩]⟩]

def regTable_4201 : List Card := [
  ⟨"ANG_CTRL", 0x42010000, [], .acq, [⟨5, 1, .rw, 0⟩, ⟨4, 1, .wo, 0⟩, ⟨3, 1, .rw, 0⟩, ⟨1, 2, .rw, 0⟩, ⟨0, 1, .rw, 0⟩]⟩,
  ⟨"ANG_STAT", 0x42010004, [], .acq, [⟨16, 16, .ro, 0⟩, ⟨15, 1, .ro, 0⟩, ⟨13, 2, .ro, 0⟩, ⟨12, 1, .ro, 0⟩, ⟨11, 1, .ro, 0⟩, ⟨8, 3, .ro, 0⟩, ⟨0, 4, .ro, 0⟩]⟩,
  ⟨"ANG_ZCCFG", 0x42010100, [], .acq, [⟨24, 8, .rw, 0x32⟩, ⟨0, 8, .rw, 0x19⟩]⟩,
  ⟨"ANG_IDXOFS", 0x42010104, [], .acq, [⟨0, 32, .rw, 0⟩]⟩,
  ⟨"ANG_VSEL", 0x42010108, [], .acq, [⟨16, 6, .rw, 2⟩, ⟨8, 6, .rw, 1⟩, ⟨0, 6, .rw, 0⟩]⟩,
  ⟨"ANG_VBASE", 0x4201010C, [], .acq, [⟨0, 16, .rw, 0x4000⟩]⟩,
  ⟨"ANG_PLL", 0x42010110, [], .acq, [⟨16, 16, .rw, 0x500⟩, ⟨0, 16, .rw, 0x190⟩]⟩,
  ⟨"ANG_NOMF", 0x42010114, [], .acq, [⟨0, 32, .rw, 0x320000⟩]⟩,
  ⟨"ANG_ANGLE", 0x42010200, [], .acq, [⟨0, 32, .ro, 0⟩]⟩,
  ⟨"ANG_FREQ", 0x42010204, [], .acq, [⟨0, 32, .ro, 0⟩]⟩,
  ⟨"ANG_AMP", 0x42010208, [], .acq, [⟨0, 16, .ro, 0⟩]⟩,
  ⟨"ANG_ATIME", 0x4201020C, [], .acq, [⟨0, 32, .ro, 0⟩]⟩,
  ⟨"ANG_ALRM", 0x42010210, [], .acq, [⟨7, 1, .w1c, 0⟩, ⟨6, 1, .w1c, 0⟩, ⟨5, 1, .w1c, 0⟩, ⟨4, 1, .w1c, 0⟩, ⟨3, 1, .w1c, 0⟩, ⟨2, 1, .w1c, 0⟩, ⟨1, 1, .w1c, 0⟩, ⟨0, 1, .w1c, 0⟩]⟩,
  ⟨"ANG_SECERRCNT", 0x42010214, [], .acq, [⟨0, 16, .rw, 0⟩]⟩,
  ⟨"ANG_SAWCFG", 0x42010300, [], .acq, [⟨16, 16, .rw, 0x3E8⟩, ⟨12, 4, .rw, 0⟩, ⟨0, 8, .rw, 4⟩]⟩,
  ⟨"ANG_SAW", 0x42010304, [], .acq, [⟨0, 32, .ro, 0⟩]⟩,
  ⟨"ANG_SAWTIME", 0x42010308, [], .acq, [⟨0, 32, .ro, 0⟩]⟩,
  ⟨"ANG_ACPCFG", 0x42010400, [(0x10, 4)], .acq, [⟨31, 1, .w1c, 0⟩, ⟨30, 1, .w1c, 0⟩, ⟨29, 1, .ro, 0⟩, ⟨16, 10, .rw, 0x64⟩, ⟨4, 1, .rw, 0⟩, ⟨3, 1, .wo, 0⟩, ⟨1, 2, .rw, 0⟩, ⟨0, 1, .rw, 0⟩]⟩,
  ⟨"ANG_ACPTGT", 0x42010404, [(0x10, 4)], .acq, [⟨0, 32, .rw, 0⟩]⟩,
  ⟨"ANG_ACPLEAD", 0x42010408, [(0x10, 4)], .acq, [⟨0, 19, .rw, 0⟩]⟩,
  ⟨"ANG_ACPTIME", 0x4201040C, [(0x10, 4)], .acq, [⟨0, 32, .ro, 0⟩]⟩]

def regTable_4202 : List Card := [
  ⟨"CST_CTRL", 0x42020000, [], .acq, [⟨4, 12, .rw, 0⟩, ⟨3, 1, .rw, 0⟩, ⟨2, 1, .wo, 0⟩, ⟨1, 1, .wo, 0⟩, ⟨0, 1, .rw, 0⟩]⟩,
  ⟨"CST_STAT", 0x42020004, [], .acq, [⟨16, 16, .ro, 0⟩, ⟨0, 4, .ro, 0⟩]⟩,
  ⟨"CST_ALRM", 0x42020008, [], .acq, [⟨3, 1, .w1c, 0⟩, ⟨2, 1, .w1c, 0⟩, ⟨1, 1, .w1c, 0⟩, ⟨0, 1, .w1c, 0⟩]⟩,
  ⟨"CST_SEGCFG", 0x42020010, [], .acq, [⟨16, 16, .rw, 0xC00⟩, ⟨0, 13, .rw, 4⟩]⟩,
  ⟨"CST_ROWCFG", 0x42020014, [], .acq, [⟨31, 1, .rw, 0⟩, ⟨0, 20, .rw, 1⟩]⟩,
  ⟨"CST_LEN", 0x42020018, [], .acq, [⟨16, 16, .rw, 0x400⟩, ⟨0, 16, .rw, 0x100⟩]⟩,
  ⟨"CST_TRIG", 0x4202001C, [], .acq, [⟨10, 3, .rw, 0⟩, ⟨7, 3, .rw, 0⟩, ⟨5, 2, .rw, 0⟩, ⟨0, 3, .rw, 0⟩]⟩,
  ⟨"CST_LEVEL", 0x42020020, [], .acq, [⟨16, 15, .rw, 0x100⟩, ⟨0, 16, .rw, 0⟩]⟩,
  ⟨"CST_DONE", 0x42020024, [], .acq, [⟨16, 13, .ro, 0⟩, ⟨0, 13, .rw, 1⟩]⟩,
  ⟨"CST_LAST", 0x42020028, [], .acq, [⟨0, 12, .ro, 0⟩]⟩,
  ⟨"CST_TSHI", 0x42020030, [], .acq, [⟨0, 32, .rw, 0⟩]⟩,
  ⟨"CST_CNT", 0x42020034, [], .acq, [⟨16, 16, .rw, 0⟩, ⟨0, 16, .rw, 0⟩]⟩,
  ⟨"CST_REL", 0x42020038, [], .acq, [⟨0, 12, .wo, 0⟩]⟩,
  ⟨"CST_HOLD", 0x4202003C, [], .acq, [⟨0, 12, .wo, 0⟩]⟩,
  ⟨"CST_SRC", 0x42020040, [(0x4, 8)], .acq, [⟨15, 1, .rw, 0⟩, ⟨9, 3, .rw, 0⟩, ⟨0, 6, .rw, 0⟩]⟩,
  ⟨"CST_SEG", 0x42024000, [(0x4, 4096)], .acq, [⟨3, 29, .ro, 0⟩, ⟨0, 3, .ro, 0⟩]⟩]

def regTable_4300_1 : List Card := [
  ⟨"FRM_CTRL", 0x43000000, [], .frm, [⟨3, 1, .rw, 1⟩, ⟨2, 1, .rw, 0⟩, ⟨1, 1, .rw, 0⟩, ⟨0, 1, .rw, 0⟩]⟩,
  ⟨"FRM_STAT", 0x43000004, [], .frm, [⟨16, 16, .ro, 0⟩, ⟨15, 1, .ro, 0⟩, ⟨14, 1, .ro, 0⟩, ⟨0, 4, .ro, 0⟩]⟩,
  ⟨"FRM_ALRM", 0x43000008, [], .frm, [⟨7, 1, .w1c, 0⟩, ⟨6, 1, .w1c, 0⟩, ⟨5, 1, .w1c, 0⟩, ⟨4, 1, .w1c, 0⟩, ⟨3, 1, .w1c, 0⟩, ⟨2, 1, .w1c, 0⟩, ⟨1, 1, .w1c, 0⟩, ⟨0, 1, .w1c, 0⟩]⟩,
  ⟨"FRM_SBASE", 0x43000010, [], .frm, [⟨0, 32, .ro, 0⟩]⟩,
  ⟨"FRM_VBASE", 0x43000014, [], .frm, [⟨0, 32, .ro, 0⟩]⟩,
  ⟨"FRM_IBASE", 0x43000018, [], .frm, [⟨0, 32, .ro, 0⟩]⟩,
  ⟨"FRM_FBASE", 0x4300001C, [], .frm, [⟨0, 32, .ro, 0x320000⟩]⟩,
  ⟨"FRM_VSEL", 0x43000020, [], .frm, [⟨16, 6, .rw, 2⟩, ⟨8, 6, .rw, 1⟩, ⟨0, 6, .rw, 0⟩]⟩,
  ⟨"FRM_ISEL", 0x43000024, [], .frm, [⟨16, 6, .rw, 5⟩, ⟨8, 6, .rw, 4⟩, ⟨0, 6, .rw, 3⟩]⟩,
  ⟨"FRM_SCL", 0x43000028, [], .frm, [⟨16, 16, .rw, 0x1000⟩, ⟨0, 16, .rw, 0x1000⟩]⟩,
  ⟨"FRM_H", 0x43000040, [], .frm, [⟨0, 16, .rw, 0x1F4⟩]⟩,
  ⟨"FRM_DAMP", 0x43000044, [], .frm, [⟨0, 16, .rw, 0⟩]⟩,
  ⟨"FRM_DROOP", 0x43000048, [], .frm, [⟨16, 16, .rw, 0x1F4⟩, ⟨0, 16, .rw, 0x1F4⟩]⟩,
  ⟨"FRM_FILT", 0x4300004C, [], .frm, [⟨16, 16, .rw, 0x32⟩, ⟨0, 16, .rw, 0xA⟩]⟩,
  ⟨"FRM_FLIM", 0x43000050, [], .frm, [⟨16, 16, .rw, 0x2AF8⟩, ⟨0, 16, .rw, 0x2328⟩]⟩,
  ⟨"FRM_ELIM", 0x43000054, [], .frm, [⟨16, 16, .rw, 0x4B0⟩, ⟨0, 16, .rw, 0⟩]⟩,
  ⟨"FRM_VCTL", 0x43000058, [], .frm, [⟨16, 16, .rw, 0⟩, ⟨0, 16, .rw, 0⟩]⟩,
  ⟨"FRM_XLIM", 0x4300005C, [], .frm, [⟨0, 16, .rw, 0x64⟩]⟩,
  ⟨"FRM_ZV", 0x43000060, [], .frm, [⟨16, 16, .rw, 0xCCD⟩, ⟨0, 16, .rw, 0⟩]⟩,
  ⟨"FRM_IHOLD", 0x43000064, [], .frm, [⟨0, 8, .rw, 4⟩]⟩,
  ⟨"FRM_ILIM", 0x43000080, [], .frm, [⟨16, 16, .rw, 0x5DC⟩, ⟨0, 16, .rw, 0x44C⟩]⟩,
  ⟨"FRM_ZLIM", 0x43000084, [], .frm, [⟨0, 8, .rw, 0x28⟩]⟩,
  ⟨"FRM_RTCFG", 0x43000088, [], .frm, [⟨16, 16, .rw, 0x64⟩, ⟨0, 2, .rw, 0⟩]⟩,
  ⟨"FRM_RTV", 0x4300008C, [], .frm, [⟨16, 16, .rw, 0x384⟩, ⟨0, 16, .rw, 0x352⟩]⟩]

def regTable_4300_2 : List Card := [
  ⟨"FRM_RTH", 0x43000090, [], .frm, [⟨16, 16, .rw, 0x442⟩, ⟨0, 16, .rw, 0x47E⟩]⟩,
  ⟨"FRM_BSRAMP", 0x43000094, [], .frm, [⟨0, 16, .rw, 0x32⟩]⟩,
  ⟨"FRM_DEAD", 0x43000098, [], .frm, [⟨16, 16, .rw, 0xC8⟩, ⟨0, 16, .rw, 0x32⟩]⟩,
  ⟨"FRM_CLAIM", 0x4300009C, [], .frm, [⟨16, 8, .rw, 0x10⟩, ⟨0, 16, .rw, 0xC8⟩]⟩,
  ⟨"FRM_UNIT", 0x430000A0, [], .frm, [⟨0, 32, .ro, 0⟩]⟩,
  ⟨"FRM_RSY", 0x430000A4, [], .frm, [⟨16, 16, .rw, 0x1F4⟩, ⟨0, 16, .rw, 0x1F4⟩]⟩,
  ⟨"FRM_RSYF", 0x430000A8, [], .frm, [⟨0, 16, .rw, 0x64⟩]⟩,
  ⟨"FRM_SEQCTRL", 0x430000AC, [], .frm, [⟨23, 1, .rw, 0⟩, ⟨22, 1, .rw, 0⟩, ⟨18, 4, .rw, 0⟩, ⟨16, 2, .rw, 0⟩, ⟨1, 1, .rw, 0⟩, ⟨0, 1, .rw, 0⟩]⟩,
  ⟨"FRM_GSEL", 0x430000B0, [], .frm, [⟨16, 6, .rw, 8⟩, ⟨8, 6, .rw, 7⟩, ⟨0, 6, .rw, 6⟩]⟩,
  ⟨"FRM_GCAL", 0x430000B4, [], .frm, [⟨16, 16, .rw, 0⟩, ⟨0, 16, .rw, 0x1000⟩]⟩,
  ⟨"FRM_THETA", 0x43000100, [], .frm, [⟨0, 32, .ro, 0⟩]⟩,
  ⟨"FRM_OMEGA", 0x43000104, [], .frm, [⟨0, 32, .ro, 0⟩]⟩,
  ⟨"FRM_PM", 0x43000108, [], .frm, [⟨0, 32, .ro, 0⟩]⟩,
  ⟨"FRM_PE", 0x4300010C, [], .frm, [⟨0, 32, .ro, 0⟩]⟩,
  ⟨"FRM_QE", 0x43000110, [], .frm, [⟨0, 32, .ro, 0⟩]⟩,
  ⟨"FRM_EMAG", 0x43000114, [], .frm, [⟨0, 32, .ro, 0⟩]⟩,
  ⟨"FRM_VM", 0x43000118, [], .frm, [⟨0, 32, .ro, 0⟩]⟩,
  ⟨"FRM_ZINV", 0x4300011C, [], .frm, [⟨0, 16, .ro, 0x7FFF⟩]⟩,
  ⟨"FRM_ATIME", 0x43000120, [], .frm, [⟨0, 32, .ro, 0⟩]⟩,
  ⟨"FRM_SEQSTAT", 0x43000140, [], .frm, [⟨28, 4, .ro, 0⟩, ⟨24, 4, .ro, 0⟩, ⟨16, 8, .ro, 0⟩, ⟨8, 3, .ro, 0⟩, ⟨6, 1, .w1c, 0⟩, ⟨5, 1, .w1c, 0⟩, ⟨4, 1, .w1c, 0⟩, ⟨3, 1, .ro, 0⟩, ⟨2, 1, .ro, 0⟩, ⟨1, 1, .ro, 0⟩, ⟨0, 1, .ro, 0⟩]⟩,
  ⟨"FRM_SEQV", 0x43000144, [], .frm, [⟨16, 16, .ro, 0⟩, ⟨0, 16, .ro, 0⟩]⟩,
  ⟨"FRM_VG", 0x43000148, [], .frm, [⟨0, 16, .ro, 0⟩]⟩,
  ⟨"FRM_DELTA", 0x4300014C, [], .frm, [⟨0, 32, .ro, 0⟩]⟩,
  ⟨"FRM_SLIP", 0x43000150, [], .frm, [⟨0, 32, .ro, 0⟩]⟩]

def regTable_4300_3 : List Card := [
  ⟨"FRM_SEQTIME", 0x43000154, [], .frm, [⟨0, 32, .ro, 0⟩]⟩]

def regTable_4300 : List Card := regTable_4300_1 ++ regTable_4300_2 ++ regTable_4300_3

def regTable_4301 : List Card := [
  ⟨"PRF_CTRL", 0x43010000, [], .frm, [⟨0, 1, .rw, 0⟩]⟩,
  ⟨"PRF_STAT", 0x43010004, [], .frm, [⟨16, 16, .ro, 0⟩, ⟨8, 8, .ro, 0xFF⟩, ⟨0, 4, .ro, 0⟩]⟩,
  ⟨"PRF_TGT", 0x43010100, [(0x20, 2)], .frm, [⟨0, 32, .rw, 0⟩]⟩,
  ⟨"PRF_TGT", 0x43010140, [(0x20, 2)], .frm, [⟨0, 32, .rw, 0x40000000⟩]⟩,
  ⟨"PRF_TGT", 0x43010180, [(0x20, 4)], .frm, [⟨0, 32, .rw, 0⟩]⟩,
  ⟨"PRF_RMAX", 0x43010104, [(0x20, 8)], .frm, [⟨0, 32, .rw, 0⟩]⟩,
  ⟨"PRF_AMAX", 0x43010108, [(0x20, 8)], .frm, [⟨0, 32, .rw, 0⟩]⟩,
  ⟨"PRF_JMAX", 0x4301010C, [(0x20, 8)], .frm, [⟨0, 32, .rw, 0⟩]⟩,
  ⟨"PRF_CFG", 0x43010110, [(0x20, 8)], .frm, [⟨0, 1, .wo, 0⟩]⟩,
  ⟨"PRF_OUT", 0x43010114, [(0x20, 2)], .frm, [⟨0, 32, .ro, 0⟩]⟩,
  ⟨"PRF_OUT", 0x43010154, [(0x20, 2)], .frm, [⟨0, 32, .ro, 0x40000000⟩]⟩,
  ⟨"PRF_OUT", 0x43010194, [(0x20, 4)], .frm, [⟨0, 32, .ro, 0⟩]⟩,
  ⟨"PRF_RATE", 0x43010118, [(0x20, 8)], .frm, [⟨0, 32, .ro, 0⟩]⟩,
  ⟨"PRF_ACC", 0x4301011C, [(0x20, 8)], .frm, [⟨0, 32, .ro, 0⟩]⟩]

def regTable_4302 : List Card := [
  ⟨"ARM_CTRL", 0x43020000, [], .frm, [⟨3, 1, .wo, 0⟩, ⟨2, 1, .rw, 1⟩, ⟨1, 1, .wo, 0⟩, ⟨0, 1, .rw, 0⟩]⟩,
  ⟨"ARM_STAT", 0x43020004, [], .frm, [⟨16, 16, .ro, 0⟩, ⟨15, 1, .ro, 0⟩, ⟨14, 1, .ro, 0⟩, ⟨13, 1, .ro, 0⟩, ⟨0, 4, .ro, 0⟩]⟩,
  ⟨"ARM_ALRM", 0x43020008, [], .frm, [⟨7, 1, .w1c, 0⟩, ⟨6, 1, .w1c, 0⟩, ⟨5, 1, .w1c, 0⟩, ⟨4, 1, .w1c, 0⟩, ⟨3, 1, .w1c, 0⟩, ⟨2, 1, .w1c, 0⟩, ⟨1, 1, .w1c, 0⟩, ⟨0, 1, .w1c, 0⟩]⟩,
  ⟨"ARM_OVR", 0x4302000C, [], .frm, [⟨16, 16, .rw, 0⟩, ⟨8, 8, .ro, 0⟩, ⟨0, 8, .rw, 8⟩]⟩,
  ⟨"ARM_SLACK", 0x43020010, [], .frm, [⟨16, 16, .ro, 0⟩, ⟨0, 16, .rw, 0x320⟩]⟩,
  ⟨"ARM_FAULT", 0x43020014, [], .frm, [⟨24, 8, .ro, 0⟩, ⟨16, 4, .ro, 0⟩, ⟨0, 7, .ro, 0⟩]⟩,
  ⟨"ARM_FAULTTIME", 0x43020018, [], .frm, [⟨0, 32, .ro, 0⟩]⟩,
  ⟨"ARM_ATIME", 0x4302001C, [], .frm, [⟨0, 32, .ro, 0⟩]⟩,
  ⟨"ARM_ECCCNT", 0x43020020, [], .frm, [⟨0, 16, .rw, 0⟩]⟩,
  ⟨"ARM_OVRTILE", 0x43020040, [(0x4, 4)], .frm, [⟨0, 32, .ro, 0⟩]⟩,
  ⟨"ARM_ASAT", 0x43020050, [(0x4, 4)], .frm, [⟨0, 32, .w1c, 0⟩]⟩,
  ⟨"ARM_TILEUSE", 0x43020060, [(0x4, 4)], .frm, [⟨0, 32, .ro, 0⟩]⟩,
  ⟨"ARM_RBANK", 0x43020100, [(0x4, 32)], .frm, [⟨16, 4, .ro, 0⟩, ⟨0, 16, .ro, 0⟩]⟩]

def regTable_4400 : List Card := [
  ⟨"MOD_CTRL", 0x44000000, [], .mod, [⟨0, 1, .rw, 0⟩]⟩,
  ⟨"MOD_STAT", 0x44000004, [], .mod, [⟨16, 16, .ro, 0⟩, ⟨15, 1, .ro, 0⟩, ⟨0, 4, .ro, 0⟩]⟩,
  ⟨"MOD_ALRM", 0x44000008, [], .mod, [⟨8, 1, .w1c, 0⟩, ⟨7, 1, .w1c, 0⟩, ⟨6, 1, .w1c, 0⟩, ⟨5, 1, .w1c, 0⟩, ⟨4, 1, .w1c, 0⟩, ⟨3, 1, .w1c, 0⟩, ⟨2, 1, .w1c, 0⟩, ⟨1, 1, .w1c, 0⟩, ⟨0, 1, .w1c, 0⟩]⟩,
  ⟨"MOD_ALRMARM", 0x4400000C, [], .mod, [⟨16, 12, .w1c, 0⟩, ⟨0, 12, .ro, 0⟩]⟩,
  ⟨"MOD_ATIME", 0x44000010, [], .mod, [⟨0, 32, .ro, 0⟩]⟩,
  ⟨"MOD_ARMCFG", 0x44000100, [(0x20, 12)], .mod, [⟨24, 6, .rw, 0⟩, ⟨19, 1, .rw, 0⟩, ⟨18, 1, .rw, 0⟩, ⟨17, 1, .rw, 1⟩, ⟨16, 1, .rw, 0⟩, ⟨15, 1, .rw, 0⟩, ⟨0, 2, .rw, 1⟩]⟩,
  ⟨"MOD_ARMVSM", 0x44000104, [(0x20, 12)], .mod, [⟨16, 16, .rw, 0x100⟩, ⟨0, 16, .rw, 0⟩]⟩,
  ⟨"MOD_ARMRED", 0x44000108, [(0x20, 12)], .mod, [⟨16, 12, .rw, 0⟩, ⟨0, 12, .rw, 0⟩]⟩,
  ⟨"MOD_ARMPWM", 0x4400010C, [(0x20, 12)], .mod, [⟨16, 16, .rw, 0⟩, ⟨0, 13, .rw, 0x28⟩]⟩,
  ⟨"MOD_ARMSTAT", 0x44000110, [(0x20, 12)], .mod, [⟨20, 12, .ro, 0⟩, ⟨8, 12, .ro, 0⟩, ⟨0, 8, .ro, 0⟩]⟩,
  ⟨"MOD_ARMLEV", 0x44000114, [(0x20, 12)], .mod, [⟨16, 16, .ro, 0⟩, ⟨0, 16, .ro, 0⟩]⟩,
  ⟨"MOD_ARMAGG", 0x44000118, [(0x20, 12)], .mod, [⟨16, 16, .ro, 0⟩, ⟨0, 16, .ro, 0⟩]⟩,
  ⟨"MOD_ARMDER", 0x4400011C, [(0x20, 12)], .mod, [⟨16, 16, .ro, 0x7FFF⟩, ⟨0, 16, .ro, 0⟩]⟩,
  ⟨"MOD_SM", 0x44008000, [(0x4, 8192)], .mod, [⟨31, 1, .ro, 0⟩, ⟨27, 4, .ro, 0⟩, ⟨25, 2, .ro, 0⟩, ⟨24, 1, .rw, 0⟩, ⟨23, 1, .rw, 0⟩, ⟨22, 1, .ro, 0⟩, ⟨21, 1, .w1c, 0⟩, ⟨20, 1, .ro, 0⟩, ⟨19, 1, .ro, 0⟩, ⟨17, 2, .ro, 0⟩, ⟨0, 16, .ro, 0⟩]⟩]

def regTable_4401 : List Card := [
  ⟨"RSP_CTRL", 0x44010000, [], .mod, [⟨0, 1, .rw, 0⟩]⟩,
  ⟨"RSP_STAT", 0x44010004, [], .mod, [⟨16, 16, .ro, 0⟩, ⟨0, 4, .ro, 0⟩]⟩,
  ⟨"RSP_ALRM", 0x44010008, [], .mod, [⟨1, 1, .w1c, 0⟩, ⟨0, 1, .w1c, 0⟩]⟩,
  ⟨"RSP_TIME", 0x4401000C, [], .mod, [⟨0, 12, .ro, 0⟩]⟩,
  ⟨"RSP_WT", 0x44010100, [(0x10, 12)], .mod, [⟨16, 16, .rw, 0x1000⟩, ⟨0, 16, .rw, 0⟩]⟩,
  ⟨"RSP_WS", 0x44010104, [(0x10, 12)], .mod, [⟨16, 16, .rw, 0⟩, ⟨0, 16, .rw, 0x1E00⟩]⟩,
  ⟨"RSP_BAND", 0x44010108, [(0x10, 12)], .mod, [⟨16, 15, .rw, 0⟩, ⟨8, 8, .rw, 0xFF⟩, ⟨4, 4, .rw, 8⟩, ⟨0, 4, .rw, 0⟩]⟩,
  ⟨"RSP_AUX", 0x4401010C, [(0x10, 12)], .mod, [⟨16, 16, .rw, 0⟩, ⟨8, 8, .rw, 4⟩, ⟨0, 5, .rw, 0⟩]⟩,
  ⟨"RSP_KEY", 0x44018000, [(0x4, 8192)], .mod, [⟨16, 16, .ro, 0⟩, ⟨0, 16, .ro, 0x7FFF⟩]⟩]

def regTable_lnk : List Card := [
  ⟨"LNK_CTRL", 0x45000000, [(0x1000000, 2), (0x10000, 16)], .lnk, [⟨8, 1, .wo, 0⟩, ⟨3, 1, .rw, 1⟩, ⟨2, 1, .rw, 1⟩, ⟨1, 1, .rw, 0⟩, ⟨0, 1, .rw, 0⟩]⟩,
  ⟨"LNK_STAT", 0x45000004, [(0x1000000, 2), (0x10000, 16)], .lnk, [⟨16, 16, .ro, 0⟩, ⟨8, 4, .ro, 0⟩, ⟨7, 1, .ro, 0⟩, ⟨6, 1, .ro, 0⟩, ⟨5, 1, .ro, 0⟩, ⟨0, 4, .ro, 0⟩]⟩,
  ⟨"LNK_ALRM", 0x45000008, [(0x1000000, 2), (0x10000, 16)], .lnk, [⟨12, 1, .w1c, 0⟩, ⟨11, 1, .w1c, 0⟩, ⟨10, 1, .w1c, 0⟩, ⟨9, 1, .w1c, 0⟩, ⟨8, 1, .w1c, 0⟩, ⟨7, 1, .w1c, 0⟩, ⟨6, 1, .w1c, 0⟩, ⟨5, 1, .w1c, 0⟩, ⟨4, 1, .w1c, 0⟩, ⟨3, 1, .w1c, 0⟩, ⟨2, 1, .w1c, 0⟩, ⟨1, 1, .w1c, 0⟩, ⟨0, 1, .w1c, 0⟩]⟩,
  ⟨"LNK_CFG", 0x45000010, [(0x1000000, 2), (0x10000, 16)], .lnk, [⟨28, 4, .ro, 0⟩, ⟨26, 2, .ro, 0⟩, ⟨25, 1, .ro, 0⟩, ⟨20, 5, .ro, 0⟩, ⟨19, 1, .ro, 0⟩, ⟨10, 9, .ro, 0⟩, ⟨0, 10, .ro, 0⟩]⟩,
  ⟨"LNK_CFG2", 0x45000014, [(0x1000000, 2), (0x10000, 16)], .lnk, [⟨16, 16, .ro, 0⟩, ⟨9, 5, .ro, 0⟩, ⟨0, 9, .ro, 0⟩]⟩,
  ⟨"LNK_REACH", 0x45000018, [(0x1000000, 2), (0x10000, 16)], .lnk, [⟨16, 10, .ro, 0⟩, ⟨0, 10, .ro, 0⟩]⟩,
  ⟨"LNK_RT", 0x4500001C, [(0x1000000, 2), (0x10000, 16)], .lnk, [⟨0, 24, .ro, 0⟩]⟩,
  ⟨"LNK_RTLIM", 0x45000020, [(0x1000000, 2), (0x10000, 16)], .lnk, [⟨0, 24, .rw, 0x7D0⟩]⟩,
  ⟨"LNK_LAUNCH", 0x45000024, [(0x1000000, 2), (0x10000, 16)], .lnk, [⟨0, 32, .ro, 0⟩]⟩,
  ⟨"LNK_CNT", 0x45000028, [(0x1000000, 2), (0x10000, 16)], .lnk, [⟨16, 16, .rw, 0⟩, ⟨0, 16, .rw, 0⟩]⟩,
  ⟨"LNK_IDERR", 0x4500002C, [(0x1000000, 2), (0x10000, 16)], .lnk, [⟨30, 2, .ro, 0⟩, ⟨0, 9, .ro, 0⟩]⟩,
  ⟨"LNK_PSTAT", 0x45000030, [(0x1000000, 2), (0x10000, 16)], .lnk, [⟨16, 16, .ro, 0⟩, ⟨0, 16, .rw, 0⟩]⟩,
  ⟨"LNK_PERR", 0x45000034, [(0x1000000, 2), (0x10000, 16)], .lnk, [⟨30, 2, .ro, 0⟩, ⟨0, 18, .ro, 0⟩]⟩,
  ⟨"LNK_REFRESH", 0x45000038, [(0x1000000, 2), (0x10000, 16)], .lnk, [⟨0, 32, .rw, 0x1F00⟩]⟩,
  ⟨"LNK_NODE", 0x45001000, [(0x1000000, 2), (0x10000, 16), (0x4, 512)], .lnk, [⟨31, 1, .ro, 0⟩, ⟨30, 1, .ro, 0⟩, ⟨29, 1, .ro, 0⟩, ⟨16, 13, .ro, 0⟩, ⟨0, 16, .ro, 0⟩]⟩,
  ⟨"LNK_IDLO", 0x45002000, [(0x1000000, 2), (0x10000, 16), (0x8, 512)], .lnk, [⟨0, 32, .ro, 0⟩]⟩,
  ⟨"LNK_IDHI", 0x45002004, [(0x1000000, 2), (0x10000, 16), (0x8, 512)], .lnk, [⟨0, 32, .ro, 0⟩]⟩]

def regTable_4700 : List Card := [
  ⟨"LBR_CTRL", 0x47000000, [], .grd, [⟨0, 1, .rw, 0⟩]⟩,
  ⟨"LBR_STAT", 0x47000004, [], .grd, [⟨16, 16, .ro, 0⟩, ⟨15, 1, .ro, 0⟩, ⟨0, 4, .ro, 0⟩]⟩,
  ⟨"LBR_ALRM", 0x47000008, [], .grd, [⟨5, 1, .w1c, 0⟩, ⟨4, 1, .w1c, 0⟩, ⟨3, 1, .w1c, 0⟩, ⟨2, 1, .w1c, 0⟩, ⟨1, 1, .w1c, 0⟩, ⟨0, 1, .w1c, 0⟩]⟩,
  ⟨"LBR_PCFG", 0x47000100, [(0x20, 12)], .grd, [⟨31, 1, .rw, 0⟩, ⟨29, 2, .rw, 0⟩, ⟨27, 2, .rw, 0⟩, ⟨26, 1, .rw, 0⟩, ⟨25, 1, .rw, 0⟩, ⟨24, 1, .rw, 0⟩, ⟨21, 3, .rw, 0⟩, ⟨20, 1, .rw, 0⟩, ⟨19, 1, .rw, 0⟩, ⟨18, 1, .rw, 0⟩, ⟨17, 1, .rw, 0⟩, ⟨0, 6, .rw, 0xF⟩]⟩,
  ⟨"LBR_PER", 0x47000104, [(0x20, 12)], .grd, [⟨20, 12, .rw, 0x190⟩, ⟨0, 20, .rw, 0x3E80⟩]⟩,
  ⟨"LBR_TIM", 0x47000108, [(0x20, 12)], .grd, [⟨16, 11, .rw, 0x190⟩, ⟨0, 11, .rw, 0xA0⟩]⟩,
  ⟨"LBR_DUTY", 0x4700010C, [(0x20, 12)], .grd, [⟨16, 16, .rw, 0⟩, ⟨0, 16, .rw, 0⟩]⟩,
  ⟨"LBR_PSTAT", 0x47000110, [(0x20, 12)], .grd, [⟨18, 6, .ro, 0⟩, ⟨17, 1, .ro, 0⟩, ⟨16, 1, .ro, 0⟩, ⟨9, 1, .w1c, 0⟩, ⟨8, 1, .w1c, 0⟩, ⟨7, 1, .w1c, 0⟩, ⟨6, 1, .w1c, 0⟩, ⟨5, 1, .w1c, 0⟩, ⟨4, 1, .w1c, 0⟩, ⟨0, 3, .ro, 0⟩]⟩,
  ⟨"LBR_CARRY", 0x47000114, [(0x20, 12)], .grd, [⟨16, 16, .ro, 0⟩, ⟨0, 16, .ro, 0⟩]⟩]

def regTable_4701 : List Card := [
  ⟨"PRT_CTRL", 0x47010000, [], .grd, [⟨2, 1, .wo, 0⟩, ⟨1, 1, .wo, 0⟩, ⟨0, 1, .rw, 0⟩]⟩,
  ⟨"PRT_STAT", 0x47010004, [], .grd, [⟨16, 16, .ro, 0⟩, ⟨0, 4, .ro, 0⟩]⟩,
  ⟨"PRT_ALRM", 0x47010008, [], .grd, [⟨9, 1, .w1c, 0⟩, ⟨8, 1, .w1c, 0⟩, ⟨7, 1, .w1c, 0⟩, ⟨6, 1, .w1c, 0⟩, ⟨5, 1, .w1c, 0⟩, ⟨4, 1, .w1c, 0⟩, ⟨3, 1, .w1c, 0⟩, ⟨2, 1, .w1c, 0⟩, ⟨1, 1, .w1c, 0⟩]⟩,
  ⟨"PRT_STAG", 0x4701000C, [], .grd, [⟨0, 10, .rw, 0⟩]⟩,
  ⟨"PRT_FICNT", 0x47010010, [], .grd, [⟨8, 1, .ro, 0⟩, ⟨0, 4, .ro, 0⟩]⟩,
  ⟨"PRT_BIAS", 0x47010014, [], .grd, [⟨0, 8, .rw, 0xA⟩]⟩,
  ⟨"PRT_ROGCFG", 0x47010100, [(0x10, 12)], .grd, [⟨31, 1, .rw, 0⟩, ⟨30, 1, .rw, 1⟩, ⟨29, 1, .rw, 1⟩, ⟨28, 1, .rw, 0⟩, ⟨0, 12, .rw, 0⟩]⟩,
  ⟨"PRT_ROGTHR", 0x47010104, [(0x10, 12)], .grd, [⟨16, 16, .rw, 0x7D0⟩, ⟨0, 16, .rw, 0x3E8⟩]⟩,
  ⟨"PRT_ROGTIM", 0x47010108, [(0x10, 12)], .grd, [⟨16, 16, .rw, 0x64⟩, ⟨0, 16, .rw, 0xC8⟩]⟩,
  ⟨"PRT_ROGSTAT", 0x4701010C, [(0x10, 12)], .grd, [⟨31, 1, .ro, 0⟩, ⟨30, 1, .ro, 0⟩, ⟨27, 1, .w1c, 0⟩, ⟨26, 1, .w1c, 0⟩, ⟨25, 1, .w1c, 0⟩, ⟨24, 1, .ro, 0⟩, ⟨0, 16, .ro, 0⟩]⟩,
  ⟨"PRT_FLTCFG", 0x47010300, [(0x8, 4)], .grd, [⟨31, 1, .rw, 0⟩, ⟨30, 1, .rw, 1⟩, ⟨29, 1, .rw, 0⟩, ⟨16, 8, .rw, 8⟩, ⟨0, 12, .rw, 0⟩]⟩,
  ⟨"PRT_FLTSTAT", 0x47010304, [(0x8, 4)], .grd, [⟨31, 1, .ro, 0⟩, ⟨30, 1, .w1c, 0⟩, ⟨0, 16, .rw, 0⟩]⟩,
  ⟨"PRT_OVCFG", 0x47010400, [(0x10, 2)], .grd, [⟨31, 1, .rw, 0⟩, ⟨30, 1, .rw, 1⟩, ⟨29, 1, .rw, 1⟩, ⟨0, 5, .rw, 0⟩]⟩,
  ⟨"PRT_OVTHR", 0x47010404, [(0x10, 2)], .grd, [⟨16, 16, .rw, 0x7000⟩, ⟨0, 16, .rw, 0x6C00⟩]⟩,
  ⟨"PRT_OVLVL", 0x47010408, [(0x10, 2)], .grd, [⟨0, 16, .rw, 0x7800⟩]⟩,
  ⟨"PRT_OVSTAT", 0x4701040C, [(0x10, 2)], .grd, [⟨31, 1, .ro, 0⟩, ⟨30, 1, .ro, 0⟩, ⟨29, 1, .w1c, 0⟩, ⟨28, 1, .w1c, 0⟩, ⟨0, 16, .ro, 0⟩]⟩,
  ⟨"PRT_FISRC", 0x47010500, [(0x8, 8)], .grd, [⟨28, 4, .ro, 0⟩, ⟨24, 4, .ro, 0⟩, ⟨0, 12, .ro, 0⟩]⟩,
  ⟨"PRT_FITIME", 0x47010504, [(0x8, 8)], .grd, [⟨0, 32, .ro, 0⟩]⟩]

def regTable_4702 : List Card := [
  ⟨"SAF_CTRL", 0x47020000, [], .grd, [⟨2, 1, .wo, 0⟩, ⟨0, 1, .rw, 0⟩]⟩,
  ⟨"SAF_STAT", 0x47020004, [], .grd, [⟨16, 16, .ro, 0⟩, ⟨15, 1, .ro, 1⟩, ⟨14, 1, .ro, 0⟩, ⟨0, 4, .ro, 0⟩]⟩,
  ⟨"SAF_ALRM", 0x47020008, [], .grd, [⟨9, 1, .w1c, 0⟩, ⟨8, 1, .w1c, 0⟩, ⟨7, 1, .w1c, 0⟩, ⟨6, 1, .w1c, 0⟩, ⟨5, 1, .w1c, 0⟩, ⟨4, 1, .w1c, 0⟩, ⟨3, 1, .w1c, 0⟩, ⟨2, 1, .w1c, 0⟩, ⟨1, 1, .w1c, 0⟩, ⟨0, 1, .w1c, 0⟩]⟩,
  ⟨"SAF_TEST", 0x4702000C, [], .grd, [⟨16, 16, .rwl, 0x64⟩, ⟨0, 9, .rwl, 0xC8⟩]⟩,
  ⟨"SAF_INHCFG", 0x47020010, [], .grd, [⟨17, 1, .rwl, 1⟩, ⟨12, 4, .rwl, 0⟩, ⟨0, 12, .rwl, 0xFFF⟩]⟩,
  ⟨"SAF_CFGCRC", 0x47020014, [], .grd, [⟨0, 32, .ro, 0⟩]⟩,
  ⟨"SAF_INCFG", 0x47020100, [(0x8, 8)], .grd, [⟨30, 2, .rwl, 0⟩, ⟨25, 5, .rwl, 0xA⟩, ⟨16, 9, .rwl, 0x32⟩, ⟨8, 4, .rwl, 0⟩]⟩,
  ⟨"SAF_INCFG", 0x47020140, [], .grd, [⟨30, 2, .ro, 0⟩, ⟨25, 5, .rwl, 0xA⟩, ⟨16, 9, .rwl, 0x32⟩, ⟨8, 4, .rwl, 0⟩]⟩,
  ⟨"SAF_INSTAT", 0x47020104, [(0x8, 9)], .grd, [⟨31, 1, .ro, 1⟩, ⟨30, 1, .ro, 0⟩, ⟨29, 1, .ro, 0⟩, ⟨28, 1, .ro, 0⟩, ⟨0, 16, .rw, 0⟩]⟩,
  ⟨"SAF_OUTCFG", 0x47020200, [(0x8, 4)], .grd, [⟨31, 1, .rwl, 0⟩, ⟨30, 1, .rwl, 1⟩, ⟨29, 1, .rwl, 1⟩]⟩,
  ⟨"SAF_OUTSTAT", 0x47020204, [(0x8, 4)], .grd, [⟨31, 1, .ro, 0⟩, ⟨30, 1, .ro, 0⟩, ⟨29, 1, .ro, 0⟩, ⟨28, 1, .ro, 0⟩, ⟨24, 4, .ro, 0⟩, ⟨21, 3, .ro, 0⟩, ⟨0, 16, .rw, 0⟩]⟩,
  ⟨"SAF_NETCFG", 0x47020300, [], .grd, [⟨16, 16, .rwl, 0⟩, ⟨8, 8, .rwl, 5⟩, ⟨0, 8, .rwl, 0xA⟩]⟩,
  ⟨"SAF_NETSRC", 0x47020304, [], .grd, [⟨0, 32, .rwl, 0⟩]⟩,
  ⟨"SAF_NETSTAT", 0x47020308, [], .grd, [⟨16, 16, .rw, 0⟩, ⟨0, 16, .rw, 0⟩]⟩,
  ⟨"SAF_NETSEQ", 0x4702030C, [], .grd, [⟨0, 32, .ro, 0⟩]⟩]

def regTable_4F00 : List Card := [
  ⟨"WAK_CTRL", 0x4F000000, [], .por, [⟨16, 16, .wo, 0⟩, ⟨8, 1, .wo, 0⟩, ⟨0, 1, .rw, 0⟩]⟩,
  ⟨"WAK_STAT", 0x4F000004, [], .por, [⟨16, 16, .ro, 0⟩, ⟨4, 1, .ro, 0⟩, ⟨0, 4, .ro, 0⟩]⟩]

/-- The rows of the 64 KB window `w` (an address divided by 65,536). -/
def regTable (w : Nat) : List Card :=
  if w = 0x4000 then regTable_4000 else
  if w = 0x4001 then regTable_4001 else
  if w = 0x4002 then regTable_4002 else
  if w = 0x4003 then regTable_4003 else
  if w = 0x4004 then regTable_4004 else
  if w = 0x4005 then regTable_4005 else
  if w = 0x4006 then regTable_4006 else
  if w = 0x4007 then regTable_4007 else
  if w = 0x4008 then regTable_4008 else
  if w = 0x4009 then regTable_4009 else
  if w = 0x400A then regTable_400A else
  if w = 0x4100 then regTable_4100 else
  if w = 0x4101 then regTable_4101 else
  if w = 0x4102 then regTable_4102 else
  if w = 0x4103 then regTable_4103 else
  if w = 0x4200 then regTable_4200 else
  if w = 0x4201 then regTable_4201 else
  if w = 0x4202 then regTable_4202 else
  if w = 0x4300 then regTable_4300 else
  if w = 0x4301 then regTable_4301 else
  if w = 0x4302 then regTable_4302 else
  if w = 0x4400 then regTable_4400 else
  if w = 0x4401 then regTable_4401 else
  if w = 0x4700 then regTable_4700 else
  if w = 0x4701 then regTable_4701 else
  if w = 0x4702 then regTable_4702 else
  if w = 0x4F00 then regTable_4F00 else
  if w / 256 = 0x45 ∨ w / 256 = 0x46 then (if w % 256 < 16 then regTable_lnk else []) else []

end Sys2Proof.Machine
end

