-- ==== Sys2Proof/Machine/Registers.lean ====
section
/-! DEFINITION. The named fields of every register of the register tables of spec/ (00 to 17): address, lowest bit,
width and reset value. An array register takes its index or indices. The addresses are those of R26, R31 and each
chapter's register tables; LNKn registers lie at `lnkBase n` (R31: sixteen ports in LKA, sixteen in LKB). -/

namespace Sys2Proof.Machine

/-- The base address of link port `n`'s window (R31). -/
def lnkBase (n : Nat) : Nat := 0x45000000 + n / 16 * 0x1000000 + n % 16 * 0x10000

namespace Reg

/-! `SUP_RGN_CTRL` (01_architecture.md) -/
def SUP_RGN_CTRL_RST : Fld := ⟨0x40000100, 8, 8, 0⟩
def SUP_RGN_CTRL_PWR : Fld := ⟨0x40000100, 0, 8, 1⟩
/-! `SUP_RGN_STAT` (01_architecture.md) -/
def SUP_RGN_STAT_STUCK : Fld := ⟨0x40000104, 24, 8, 0⟩
def SUP_RGN_STAT_LOST : Fld := ⟨0x40000104, 16, 8, 0⟩
def SUP_RGN_STAT_ISO : Fld := ⟨0x40000104, 8, 8, 0xFE⟩
def SUP_RGN_STAT_ON : Fld := ⟨0x40000104, 0, 8, 1⟩
/-! `SUP_CORECTRL` (13_supervisor_and_data_movement.md) -/
def SUP_CORECTRL_RST : Fld := ⟨0x40000200, 4, 4, 0⟩
def SUP_CORECTRL_RUN : Fld := ⟨0x40000200, 0, 4, 1⟩
/-! `SUP_CORESTAT` (13_supervisor_and_data_movement.md) -/
def SUP_CORESTAT_STATE0 : Fld := ⟨0x40000204, 0, 2, 0⟩
def SUP_CORESTAT_WDT0 : Fld := ⟨0x40000204, 2, 1, 0⟩
def SUP_CORESTAT_STATE1 : Fld := ⟨0x40000204, 8, 2, 0⟩
def SUP_CORESTAT_WDT1 : Fld := ⟨0x40000204, 10, 1, 0⟩
def SUP_CORESTAT_STATE2 : Fld := ⟨0x40000204, 16, 2, 0⟩
def SUP_CORESTAT_WDT2 : Fld := ⟨0x40000204, 18, 1, 0⟩
def SUP_CORESTAT_STATE3 : Fld := ⟨0x40000204, 24, 2, 0⟩
def SUP_CORESTAT_WDT3 : Fld := ⟨0x40000204, 26, 1, 0⟩
/-! `SUP_BOOTADDRc` (13_supervisor_and_data_movement.md) -/
def SUP_BOOTADDR_ADDR (i : Nat) : Fld := ⟨0x40000210 + 0x4 * i, 0, 32, 0⟩
/-! `SUP_WDTc` (13_supervisor_and_data_movement.md) -/
def SUP_WDT_EN (i : Nat) : Fld := ⟨0x40000220 + 0x4 * i, 31, 1, 0⟩
def SUP_WDT_TIMEOUT (i : Nat) : Fld := ⟨0x40000220 + 0x4 * i, 0, 24, 0x2710⟩
/-! `SUP_WDTKICKc` (13_supervisor_and_data_movement.md) -/
def SUP_WDTKICK_KICK (i : Nat) : Fld := ⟨0x40000230 + 0x4 * i, 0, 32, 0⟩
/-! `SUP_MTIMELO` (13_supervisor_and_data_movement.md) -/
def SUP_MTIMELO_MTIME : Fld := ⟨0x40000240, 0, 32, 0⟩
/-! `SUP_MTIMEHI` (13_supervisor_and_data_movement.md) -/
def SUP_MTIMEHI_MTIME : Fld := ⟨0x40000244, 0, 32, 0⟩
/-! `SUP_MTIMECMPc` (13_supervisor_and_data_movement.md) -/
def SUP_MTIMECMP_CMPLO (i : Nat) : Fld := ⟨0x40000250 + 0x8 * i, 0, 32, 0xFFFFFFFF⟩
/-! `SUP_MTIMECMPH` (13_supervisor_and_data_movement.md) -/
def SUP_MTIMECMPH_CMPHI (i : Nat) : Fld := ⟨0x40000254 + 0x8 * i, 0, 32, 0xFFFFFFFF⟩
/-! `SUP_MSIP` (13_supervisor_and_data_movement.md) -/
def SUP_MSIP_MSIP : Fld := ⟨0x40000270, 0, 4, 0⟩
/-! `SUP_DBG` (13_supervisor_and_data_movement.md) -/
def SUP_DBG_HALTED : Fld := ⟨0x40000280, 1, 1, 0⟩
def SUP_DBG_HALTREQ : Fld := ⟨0x40000280, 0, 1, 0⟩
/-! `SUP_MODE` (15_modes_and_start_up.md) -/
def SUP_MODE_CHG : Fld := ⟨0x40000300, 8, 1, 0⟩
def SUP_MODE_PREV : Fld := ⟨0x40000300, 4, 4, 1⟩
def SUP_MODE_MODE : Fld := ⟨0x40000300, 0, 4, 1⟩
/-! `SUP_MODEREQ` (15_modes_and_start_up.md) -/
def SUP_MODEREQ_TRIP : Fld := ⟨0x40000304, 5, 1, 0⟩
def SUP_MODEREQ_GO : Fld := ⟨0x40000304, 4, 1, 0⟩
def SUP_MODEREQ_TARGET : Fld := ⟨0x40000304, 0, 4, 2⟩
/-! `SUP_MODESTAT` (15_modes_and_start_up.md) -/
def SUP_MODESTAT_PEND : Fld := ⟨0x40000308, 31, 1, 0⟩
def SUP_MODESTAT_REFUSED : Fld := ⟨0x40000308, 30, 1, 0⟩
def SUP_MODESTAT_RTARGET : Fld := ⟨0x40000308, 20, 4, 0⟩
def SUP_MODESTAT_RCAUSE : Fld := ⟨0x40000308, 16, 4, 0⟩
def SUP_MODESTAT_TRANSCNT : Fld := ⟨0x40000308, 0, 16, 0⟩
/-! `SUP_MODETIME` (15_modes_and_start_up.md) -/
def SUP_MODETIME_TIME : Fld := ⟨0x4000030C, 0, 32, 0⟩
/-! `SUP_TRIP` (15_modes_and_start_up.md) -/
def SUP_TRIP_FIRST : Fld := ⟨0x40000310, 24, 5, 0x1F⟩
def SUP_TRIP_OV : Fld := ⟨0x40000310, 10, 1, 0⟩
def SUP_TRIP_ROG : Fld := ⟨0x40000310, 9, 1, 0⟩
def SUP_TRIP_FLT : Fld := ⟨0x40000310, 8, 1, 0⟩
def SUP_TRIP_REDTRIP : Fld := ⟨0x40000310, 7, 1, 0⟩
def SUP_TRIP_MODFENCE : Fld := ⟨0x40000310, 6, 1, 0⟩
def SUP_TRIP_OVRTRIP : Fld := ⟨0x40000310, 5, 1, 0⟩
def SUP_TRIP_ARMFENCE : Fld := ⟨0x40000310, 4, 1, 0⟩
def SUP_TRIP_IHOLD : Fld := ⟨0x40000310, 3, 1, 0⟩
def SUP_TRIP_FRMFENCE : Fld := ⟨0x40000310, 2, 1, 0⟩
def SUP_TRIP_INHIBIT : Fld := ⟨0x40000310, 1, 1, 0⟩
def SUP_TRIP_COMMAND : Fld := ⟨0x40000310, 0, 1, 0⟩
/-! `SUP_TRIPTIME` (15_modes_and_start_up.md) -/
def SUP_TRIPTIME_TIME : Fld := ⟨0x40000314, 0, 32, 0⟩
/-! `SUP_LOCK` (15_modes_and_start_up.md) -/
def SUP_LOCK_KIND : Fld := ⟨0x40000318, 28, 4, 0⟩
def SUP_LOCK_REGION : Fld := ⟨0x40000318, 24, 4, 0⟩
def SUP_LOCK_VALID : Fld := ⟨0x40000318, 0, 1, 0⟩
/-! `SUP_LOCKTIME` (15_modes_and_start_up.md) -/
def SUP_LOCKTIME_TIME : Fld := ⟨0x4000031C, 0, 32, 0⟩
/-! `SUP_CHIPRST` (15_modes_and_start_up.md) -/
def SUP_CHIPRST_KEY : Fld := ⟨0x40000320, 0, 32, 0⟩
/-! `MBX_CTRL` (13) -/
def MBX_CTRL_EN : Fld := ⟨0x40010000, 0, 1, 1⟩
/-! `MBX_STAT` (13) -/
def MBX_STAT_REMAIN : Fld := ⟨0x40010004, 16, 16, 0⟩
def MBX_STAT_STATE : Fld := ⟨0x40010004, 0, 4, 1⟩
/-! `MBX_FULL` (13_supervisor_and_data_movement.md) -/
def MBX_FULL_FULL : Fld := ⟨0x40010008, 0, 32, 0⟩
/-! `MBX_NOTED` (13_supervisor_and_data_movement.md) -/
def MBX_NOTED_NOTE : Fld := ⟨0x4001000C, 0, 32, 0⟩
/-! `MBX_CFGc` (13_supervisor_and_data_movement.md) -/
def MBX_CCFG_EN (i : Nat) : Fld := ⟨0x40011000 + 0x100 * i, 31, 1, 0⟩
def MBX_CCFG_SND (i : Nat) : Fld := ⟨0x40011000 + 0x100 * i, 24, 4, 0⟩
def MBX_CCFG_RCV (i : Nat) : Fld := ⟨0x40011000 + 0x100 * i, 20, 4, 0⟩
def MBX_CCFG_EXP (i : Nat) : Fld := ⟨0x40011000 + 0x100 * i, 0, 17, 0x3E8⟩
/-! `MBX_CMDc` (13_supervisor_and_data_movement.md) -/
def MBX_CCMD_ACK (i : Nat) : Fld := ⟨0x40011004 + 0x100 * i, 1, 1, 0⟩
def MBX_CCMD_GO (i : Nat) : Fld := ⟨0x40011004 + 0x100 * i, 0, 1, 0⟩
/-! `MBX_STATc` (13_supervisor_and_data_movement.md) -/
def MBX_CSTAT_FULL (i : Nat) : Fld := ⟨0x40011008 + 0x100 * i, 31, 1, 0⟩
def MBX_CSTAT_LATEACK (i : Nat) : Fld := ⟨0x40011008 + 0x100 * i, 16, 8, 0⟩
def MBX_CSTAT_SEQ (i : Nat) : Fld := ⟨0x40011008 + 0x100 * i, 0, 16, 0⟩
/-! `MBX_NOTEc` (13_supervisor_and_data_movement.md) -/
def MBX_CNOTE_NOVR (i : Nat) : Fld := ⟨0x4001100C + 0x100 * i, 31, 1, 0⟩
def MBX_CNOTE_CLR (i : Nat) : Fld := ⟨0x4001100C + 0x100 * i, 4, 1, 0⟩
def MBX_CNOTE_KIND (i : Nat) : Fld := ⟨0x4001100C + 0x100 * i, 0, 4, 0⟩
/-! `MBX_Dc_i` (13_supervisor_and_data_movement.md) -/
def MBX_D_DATA (i j : Nat) : Fld := ⟨0x40011040 + 0x100 * i + 0x4 * j, 0, 32, 0⟩
/-! `SEM_CTRL` (13) -/
def SEM_CTRL_EN : Fld := ⟨0x40020000, 0, 1, 1⟩
/-! `SEM_STAT` (13) -/
def SEM_STAT_REMAIN : Fld := ⟨0x40020004, 16, 16, 0⟩
def SEM_STAT_STATE : Fld := ⟨0x40020004, 0, 4, 1⟩
/-! `SEM_ALRM` (13_supervisor_and_data_movement.md) -/
def SEM_ALRM_FORCED : Fld := ⟨0x40020008, 1, 1, 0⟩
def SEM_ALRM_AUTOREL : Fld := ⟨0x40020008, 0, 1, 0⟩
/-! `SEM_FORCE` (13_supervisor_and_data_movement.md) -/
def SEM_FORCE_N : Fld := ⟨0x4002000C, 0, 6, 0⟩
/-! `SEM_OWNERj` (13_supervisor_and_data_movement.md) -/
def SEM_OWNER_OWNER (i : Nat) : Fld := ⟨0x40020010 + 0x4 * i, 0, 32, 0xFFFFFFFF⟩
/-! `SEM_LOCKn` (13_supervisor_and_data_movement.md) -/
def SEM_LOCK_GRANT (i : Nat) : Fld := ⟨0x40020100 + 0x4 * i, 31, 1, 0⟩
def SEM_LOCK_OWNER (i : Nat) : Fld := ⟨0x40020100 + 0x4 * i, 0, 4, 0xF⟩
/-! `INT_CTRL` (13) -/
def INT_CTRL_EN : Fld := ⟨0x40030000, 0, 1, 1⟩
/-! `INT_STAT` (13) -/
def INT_STAT_REMAIN : Fld := ⟨0x40030004, 16, 16, 0⟩
def INT_STAT_STATE : Fld := ⟨0x40030004, 0, 4, 1⟩
/-! `INT_SUM` (13_supervisor_and_data_movement.md) -/
def INT_SUM_ERR : Fld := ⟨0x40030008, 9, 1, 0⟩
def INT_SUM_PERR : Fld := ⟨0x40030008, 8, 1, 0⟩
def INT_SUM_REGION : Fld := ⟨0x40030008, 0, 8, 0⟩
/-! `INT_RCAUSEr` (13_supervisor_and_data_movement.md) -/
def INT_RCAUSE_BLOCK (i : Nat) : Fld := ⟨0x40030010 + 0x4 * i, 0, 16, 0⟩
/-! `INT_ENt_r` (13_supervisor_and_data_movement.md) -/
def INT_EN_EN (i j : Nat) : Fld := ⟨0x40030100 + 0x40 * i + 0x4 * j, 0, 16, 0⟩
/-! `INT_TENt` (13_supervisor_and_data_movement.md) -/
def INT_TEN_ERR (i : Nat) : Fld := ⟨0x40030120 + 0x40 * i, 1, 1, 0⟩
def INT_TEN_PERR (i : Nat) : Fld := ⟨0x40030120 + 0x40 * i, 0, 1, 0⟩
/-! `INT_TPENDt` (13_supervisor_and_data_movement.md) -/
def INT_TPEND_PEND (i : Nat) : Fld := ⟨0x40030124 + 0x40 * i, 0, 10, 0⟩
/-! `INT_HVEC` (13_supervisor_and_data_movement.md) -/
def INT_HVEC_EVEC : Fld := ⟨0x40030300, 24, 3, 0⟩
def INT_HVEC_RVEC : Fld := ⟨0x40030300, 0, 24, 0⟩
/-! `INT_HACK` (13_supervisor_and_data_movement.md) -/
def INT_HACK_ACK : Fld := ⟨0x40030304, 0, 8, 0⟩
/-! `INT_PERR` (13_supervisor_and_data_movement.md) -/
def INT_PERR_VALID : Fld := ⟨0x40030400, 31, 1, 0⟩
def INT_PERR_KIND : Fld := ⟨0x40030400, 24, 4, 0⟩
def INT_PERR_MASTER : Fld := ⟨0x40030400, 20, 4, 0⟩
/-! `INT_PERRADDR` (13_supervisor_and_data_movement.md) -/
def INT_PERRADDR_ADDR : Fld := ⟨0x40030404, 0, 32, 0⟩
/-! `INT_PERRCNT` (13_supervisor_and_data_movement.md) -/
def INT_PERRCNT_COUNT : Fld := ⟨0x40030408, 0, 16, 0⟩
/-! `INT_ERR` (16_integrity_ageing_and_test.md) -/
def INT_ERR_VALID : Fld := ⟨0x40030500, 31, 1, 0⟩
def INT_ERR_OVR : Fld := ⟨0x40030500, 30, 1, 0⟩
def INT_ERR_CLASS : Fld := ⟨0x40030500, 28, 2, 0⟩
def INT_ERR_REGION : Fld := ⟨0x40030500, 24, 4, 0⟩
def INT_ERR_BLOCK : Fld := ⟨0x40030500, 20, 4, 0⟩
def INT_ERR_KIND : Fld := ⟨0x40030500, 16, 4, 0⟩
def INT_ERR_DETAIL : Fld := ⟨0x40030500, 0, 16, 0⟩
/-! `INT_ERRADDR` (16_integrity_ageing_and_test.md) -/
def INT_ERRADDR_ADDR : Fld := ⟨0x40030504, 0, 32, 0⟩
/-! `INT_ERRTIME` (16_integrity_ageing_and_test.md) -/
def INT_ERRTIME_TIME : Fld := ⟨0x40030508, 0, 32, 0⟩
/-! `INT_ERRCNT` (16_integrity_ageing_and_test.md) -/
def INT_ERRCNT_ACNT : Fld := ⟨0x4003050C, 16, 16, 0⟩
def INT_ERRCNT_BCNT : Fld := ⟨0x4003050C, 8, 8, 0⟩
def INT_ERRCNT_CCNT : Fld := ⟨0x4003050C, 0, 8, 0⟩
/-! `DMA_CTRL` (13_supervisor_and_data_movement.md) -/
def DMA_CTRL_EN : Fld := ⟨0x40040000, 0, 1, 0⟩
/-! `DMA_STAT` (13_supervisor_and_data_movement.md) -/
def DMA_STAT_REMAIN : Fld := ⟨0x40040004, 16, 16, 0⟩
def DMA_STAT_STATE : Fld := ⟨0x40040004, 0, 4, 0⟩
/-! `DMA_ALRM` (13_supervisor_and_data_movement.md) -/
def DMA_ALRM_REQLOST : Fld := ⟨0x40040008, 0, 1, 0⟩
/-! `DMA_DONE` (13_supervisor_and_data_movement.md) -/
def DMA_DONE_DONE : Fld := ⟨0x4004000C, 0, 32, 0⟩
/-! `DMA_ERRCH` (13_supervisor_and_data_movement.md) -/
def DMA_ERRCH_ERR : Fld := ⟨0x40040010, 0, 32, 0⟩
/-! `DMA_SRCc` (13_supervisor_and_data_movement.md) -/
def DMA_SRC_SRC (i : Nat) : Fld := ⟨0x40040100 + 0x20 * i, 0, 32, 0⟩
/-! `DMA_DSTc` (13_supervisor_and_data_movement.md) -/
def DMA_DST_DST (i : Nat) : Fld := ⟨0x40040104 + 0x20 * i, 0, 32, 0⟩
/-! `DMA_COUNTc` (13_supervisor_and_data_movement.md) -/
def DMA_COUNT_COUNT (i : Nat) : Fld := ⟨0x40040108 + 0x20 * i, 0, 24, 0⟩
/-! `DMA_CFGc` (13_supervisor_and_data_movement.md) -/
def DMA_CFG_BURST (i : Nat) : Fld := ⟨0x4004010C + 0x20 * i, 24, 8, 0⟩
def DMA_CFG_REQ (i : Nat) : Fld := ⟨0x4004010C + 0x20 * i, 18, 6, 0⟩
def DMA_CFG_RING (i : Nat) : Fld := ⟨0x4004010C + 0x20 * i, 12, 6, 0⟩
def DMA_CFG_RINGDST (i : Nat) : Fld := ⟨0x4004010C + 0x20 * i, 11, 1, 0⟩
def DMA_CFG_ASCOVL (i : Nat) : Fld := ⟨0x4004010C + 0x20 * i, 10, 1, 0⟩
def DMA_CFG_SWAP (i : Nat) : Fld := ⟨0x4004010C + 0x20 * i, 8, 2, 0⟩
def DMA_CFG_SINC (i : Nat) : Fld := ⟨0x4004010C + 0x20 * i, 7, 1, 1⟩
def DMA_CFG_DINC (i : Nat) : Fld := ⟨0x4004010C + 0x20 * i, 6, 1, 1⟩
def DMA_CFG_IRQEN (i : Nat) : Fld := ⟨0x4004010C + 0x20 * i, 5, 1, 0⟩
/-! `DMA_CMDc` (13_supervisor_and_data_movement.md) -/
def DMA_CMD_RESUME (i : Nat) : Fld := ⟨0x40040110 + 0x20 * i, 3, 1, 0⟩
def DMA_CMD_KICK (i : Nat) : Fld := ⟨0x40040110 + 0x20 * i, 2, 1, 0⟩
def DMA_CMD_STOP (i : Nat) : Fld := ⟨0x40040110 + 0x20 * i, 1, 1, 0⟩
def DMA_CMD_START (i : Nat) : Fld := ⟨0x40040110 + 0x20 * i, 0, 1, 0⟩
/-! `DMA_CSTATc` (13_supervisor_and_data_movement.md) -/
def DMA_CSTAT_STATE (i : Nat) : Fld := ⟨0x40040114 + 0x20 * i, 29, 3, 0⟩
def DMA_CSTAT_ERR (i : Nat) : Fld := ⟨0x40040114 + 0x20 * i, 26, 3, 0⟩
def DMA_CSTAT_DIR (i : Nat) : Fld := ⟨0x40040114 + 0x20 * i, 25, 1, 0⟩
/-! `DMA_FAILc` (13_supervisor_and_data_movement.md) -/
def DMA_FAIL_FAILADDR (i : Nat) : Fld := ⟨0x40040118 + 0x20 * i, 0, 32, 0⟩
/-! `DMA_LEFTc` (13_supervisor_and_data_movement.md) -/
def DMA_LEFT_LEFT (i : Nat) : Fld := ⟨0x4004011C + 0x20 * i, 0, 24, 0⟩
/-! `RNG_CTRL` (13_supervisor_and_data_movement.md) -/
def RNG_CTRL_EN : Fld := ⟨0x40050000, 0, 1, 1⟩
/-! `RNG_STAT` (13_supervisor_and_data_movement.md) -/
def RNG_STAT_REMAIN : Fld := ⟨0x40050004, 16, 16, 0⟩
def RNG_STAT_STATE : Fld := ⟨0x40050004, 0, 4, 1⟩
/-! `RNG_ALRM` (13_supervisor_and_data_movement.md) -/
def RNG_ALRM_PTRERR : Fld := ⟨0x40050008, 0, 1, 0⟩
/-! `RNG_WMSTAT0` (13_supervisor_and_data_movement.md) -/
def RNG_WMSTAT0_WM : Fld := ⟨0x40050010, 0, 32, 0⟩
/-! `RNG_WMSTAT1` (13_supervisor_and_data_movement.md) -/
def RNG_WMSTAT1_WM : Fld := ⟨0x40050014, 0, 32, 0⟩
/-! `RNG_CFGn` (13_supervisor_and_data_movement.md) -/
def RNG_CFG_SZ (i : Nat) : Fld := ⟨0x40050100 + 0x20 * i, 28, 4, 0⟩
def RNG_CFG_PRODK (i : Nat) : Fld := ⟨0x40050100 + 0x20 * i, 26, 2, 0⟩
def RNG_CFG_PRODI (i : Nat) : Fld := ⟨0x40050100 + 0x20 * i, 21, 5, 0⟩
def RNG_CFG_CONSK (i : Nat) : Fld := ⟨0x40050100 + 0x20 * i, 19, 2, 0⟩
def RNG_CFG_CONSI (i : Nat) : Fld := ⟨0x40050100 + 0x20 * i, 16, 3, 0⟩
/-! `RNG_BASEn` (13_supervisor_and_data_movement.md) -/
def RNG_BASE_BASE (i : Nat) : Fld := ⟨0x40050104 + 0x20 * i, 0, 32, 0x10000000⟩
/-! `RNG_WRn` (13_supervisor_and_data_movement.md) -/
def RNG_WR_WR (i : Nat) : Fld := ⟨0x40050108 + 0x20 * i, 0, 21, 0⟩
/-! `RNG_RDn` (13_supervisor_and_data_movement.md) -/
def RNG_RD_RD (i : Nat) : Fld := ⟨0x4005010C + 0x20 * i, 0, 21, 0⟩
/-! `RNG_WMn` (13_supervisor_and_data_movement.md) -/
def RNG_WM_IRQEN (i : Nat) : Fld := ⟨0x40050110 + 0x20 * i, 31, 1, 0⟩
def RNG_WM_WM (i : Nat) : Fld := ⟨0x40050110 + 0x20 * i, 0, 15, 1⟩
/-! `MQT_CTRL` (14) -/
def MQT_CTRL_EN : Fld := ⟨0x40060000, 0, 1, 1⟩
/-! `MQT_STAT` (14_maquette.md) -/
def MQT_STAT_REMAIN : Fld := ⟨0x40060004, 16, 16, 0⟩
def MQT_STAT_LSTAGE : Fld := ⟨0x40060004, 14, 2, 0⟩
def MQT_STAT_SRC : Fld := ⟨0x40060004, 11, 3, 0⟩
def MQT_STAT_FALLBACK : Fld := ⟨0x40060004, 10, 1, 0⟩
def MQT_STAT_STATE : Fld := ⟨0x40060004, 0, 4, 1⟩
/-! `MQT_ALRM` (14_maquette.md) -/
def MQT_ALRM_RELOADERR : Fld := ⟨0x40060008, 3, 1, 0⟩
def MQT_ALRM_LCLATE : Fld := ⟨0x40060008, 2, 1, 0⟩
def MQT_ALRM_LIVEERR : Fld := ⟨0x40060008, 1, 1, 0⟩
def MQT_ALRM_UNSIGNED : Fld := ⟨0x40060008, 0, 1, 0⟩
/-! `MQT_ERR` (14_maquette.md) -/
def MQT_ERR_CODE : Fld := ⟨0x4006000C, 24, 8, 0⟩
def MQT_ERR_TYPE : Fld := ⟨0x4006000C, 16, 8, 0⟩
def MQT_ERR_PHASE : Fld := ⟨0x4006000C, 14, 2, 0⟩
/-! `MQT_ERROFS` (14_maquette.md) -/
def MQT_ERROFS_OFS : Fld := ⟨0x40060010, 0, 32, 0⟩
/-! `MQT_VER` (14_maquette.md) -/
def MQT_VER_VERSION : Fld := ⟨0x40060014, 0, 32, 0⟩
/-! `MQT_LVER` (14_maquette.md) -/
def MQT_LVER_VERSION : Fld := ⟨0x40060018, 0, 32, 0⟩
/-! `MQT_LADDR` (14_maquette.md) -/
def MQT_LADDR_ADDR : Fld := ⟨0x40060020, 0, 32, 0x10000000⟩
/-! `MQT_LCMD` (14_maquette.md) -/
def MQT_LCMD_CANCEL : Fld := ⟨0x40060024, 2, 1, 0⟩
def MQT_LCMD_COMMIT : Fld := ⟨0x40060024, 1, 1, 0⟩
def MQT_LCMD_STAGE : Fld := ⟨0x40060024, 0, 1, 0⟩
/-! `MQT_LFRAME` (14_maquette.md) -/
def MQT_LFRAME_NOW : Fld := ⟨0x40060028, 16, 16, 0⟩
/-! `MQT_LFRAMEAT` (14_maquette.md) -/
def MQT_LFRAMEAT_AT : Fld := ⟨0x4006002C, 16, 1, 0⟩
def MQT_LFRAMEAT_FRAME : Fld := ⟨0x4006002C, 0, 16, 0⟩
/-! `MQT_LDONE` (14_maquette.md) -/
def MQT_LDONE_FRAME : Fld := ⟨0x40060030, 0, 16, 0⟩
/-! `MQT_HOSTGO` (14_maquette.md) -/
def MQT_HOSTGO_LEN : Fld := ⟨0x40060034, 0, 32, 0⟩
/-! `MQT_BUILDi` (14_maquette.md) -/
def MQT_BUILD_BUILD (i : Nat) : Fld := ⟨0x40060040 + 0x4 * i, 0, 32, 0⟩
/-! `SEC_CTRL` (14) -/
def SEC_CTRL_EN : Fld := ⟨0x40070000, 0, 1, 1⟩
/-! `SEC_STAT` (14_maquette.md) -/
def SEC_STAT_REMAIN : Fld := ⟨0x40070004, 16, 16, 0⟩
def SEC_STAT_SECMODE : Fld := ⟨0x40070004, 15, 1, 0⟩
def SEC_STAT_DBGLVL : Fld := ⟨0x40070004, 13, 2, 0⟩
def SEC_STAT_KEYIDX : Fld := ⟨0x40070004, 11, 2, 0⟩
def SEC_STAT_FUSEBUSY : Fld := ⟨0x40070004, 10, 1, 0⟩
def SEC_STAT_STATE : Fld := ⟨0x40070004, 0, 4, 1⟩
/-! `SEC_ALRM` (14_maquette.md) -/
def SEC_ALRM_FUSEERR : Fld := ⟨0x40070008, 2, 1, 0⟩
def SEC_ALRM_TAMP1 : Fld := ⟨0x40070008, 1, 1, 0⟩
def SEC_ALRM_TAMP0 : Fld := ⟨0x40070008, 0, 1, 0⟩
/-! `SEC_FUSE` (14_maquette.md) -/
def SEC_FUSE_KEYREV : Fld := ⟨0x4007000C, 12, 4, 0⟩
def SEC_FUSE_KEYPROG : Fld := ⟨0x4007000C, 8, 4, 0⟩
def SEC_FUSE_ARB : Fld := ⟨0x4007000C, 0, 7, 0⟩
/-! `SEC_CMD` (14_maquette.md) -/
def SEC_CMD_ARG : Fld := ⟨0x40070010, 8, 2, 0⟩
def SEC_CMD_CMD : Fld := ⟨0x40070010, 0, 4, 0⟩
/-! `SEC_KEYSTAGEi` (14_maquette.md) -/
def SEC_KEYSTAGE_HASH (i : Nat) : Fld := ⟨0x40070020 + 0x4 * i, 0, 32, 0⟩
/-! `SEC_TAMPTIMEn` (14_maquette.md) -/
def SEC_TAMPTIME_TIME (i : Nat) : Fld := ⟨0x40070040 + 0x4 * i, 0, 32, 0⟩
/-! `SEC_UIDLO` (14_maquette.md) -/
def SEC_UIDLO_UID : Fld := ⟨0x40070050, 0, 32, 0⟩
/-! `SEC_UIDHI` (14_maquette.md) -/
def SEC_UIDHI_UID : Fld := ⟨0x40070054, 0, 32, 0⟩
/-! `PAT_CTRL` (16_integrity_ageing_and_test.md) -/
def PAT_CTRL_RESTORE : Fld := ⟨0x40080000, 5, 1, 0⟩
def PAT_CTRL_BASECAP : Fld := ⟨0x40080000, 4, 1, 0⟩
def PAT_CTRL_PLANSCR : Fld := ⟨0x40080000, 3, 1, 1⟩
def PAT_CTRL_PLANCLK : Fld := ⟨0x40080000, 2, 1, 1⟩
def PAT_CTRL_PLANV : Fld := ⟨0x40080000, 1, 1, 0⟩
def PAT_CTRL_EN : Fld := ⟨0x40080000, 0, 1, 0⟩
/-! `PAT_STAT` (16_integrity_ageing_and_test.md) -/
def PAT_STAT_REMAIN : Fld := ⟨0x40080004, 16, 16, 0⟩
def PAT_STAT_SUPSTEP : Fld := ⟨0x40080004, 14, 2, 0⟩
def PAT_STAT_PLANSTOP : Fld := ⟨0x40080004, 13, 1, 0⟩
def PAT_STAT_STATE : Fld := ⟨0x40080004, 0, 4, 0⟩
/-! `PAT_ALRM` (16_integrity_ageing_and_test.md) -/
def PAT_ALRM_EYE : Fld := ⟨0x40080008, 7, 1, 0⟩
def PAT_ALRM_DRIFT : Fld := ⟨0x40080008, 6, 1, 0⟩
def PAT_ALRM_VMIN : Fld := ⟨0x40080008, 5, 1, 0⟩
def PAT_ALRM_EXHAUST : Fld := ⟨0x40080008, 4, 1, 0⟩
def PAT_ALRM_DERATE : Fld := ⟨0x40080008, 3, 1, 0⟩
def PAT_ALRM_SLKLOW : Fld := ⟨0x40080008, 2, 1, 0⟩
def PAT_ALRM_TIMEERR : Fld := ⟨0x40080008, 1, 1, 0⟩
def PAT_ALRM_LOG : Fld := ⟨0x40080008, 0, 1, 0⟩
/-! `PAT_VCFG` (16_integrity_ageing_and_test.md) -/
def PAT_VCFG_VMAXSET : Fld := ⟨0x40080010, 20, 12, 0x352⟩
def PAT_VCFG_VMINSET : Fld := ⟨0x40080010, 8, 12, 0x2BC⟩
def PAT_VCFG_VSTEP : Fld := ⟨0x40080010, 0, 8, 5⟩
/-! `PAT_SCFG` (16_integrity_ageing_and_test.md) -/
def PAT_SCFG_SLKCRIT : Fld := ⟨0x40080014, 24, 8, 4⟩
def PAT_SCFG_SLKLO : Fld := ⟨0x40080014, 16, 8, 8⟩
def PAT_SCFG_SLKHI : Fld := ⟨0x40080014, 8, 8, 0x18⟩
/-! `PAT_SLACK` (16_integrity_ageing_and_test.md) -/
def PAT_SLACK_SUP : Fld := ⟨0x40080018, 16, 16, 0⟩
def PAT_SLACK_CORE : Fld := ⟨0x40080018, 0, 16, 0⟩
/-! `PAT_VREQ` (16_integrity_ageing_and_test.md) -/
def PAT_VREQ_VREQ0 : Fld := ⟨0x4008001C, 16, 16, 0⟩
def PAT_VREQ_VREQ : Fld := ⟨0x4008001C, 0, 16, 0⟩
/-! `PAT_MARGIN` (16_integrity_ageing_and_test.md) -/
def PAT_MARGIN_RM : Fld := ⟨0x40080020, 16, 16, 0x7FFF⟩
def PAT_MARGIN_TTE : Fld := ⟨0x40080020, 0, 16, 0xFFFF⟩
/-! `PAT_SRAM` (16_integrity_ageing_and_test.md) -/
def PAT_SRAM_VMIN : Fld := ⟨0x40080024, 0, 16, 0⟩
/-! `PAT_REF` (16_integrity_ageing_and_test.md) -/
def PAT_REF_REFDRIFT : Fld := ⟨0x40080028, 16, 16, 0⟩
def PAT_REF_OSCSHIFT : Fld := ⟨0x40080028, 0, 16, 0⟩
/-! `PAT_EYECFG` (16_integrity_ageing_and_test.md) -/
def PAT_EYECFG_EYEH : Fld := ⟨0x4008002C, 24, 8, 0x10⟩
def PAT_EYECFG_EYEV : Fld := ⟨0x4008002C, 16, 8, 0xC⟩
def PAT_EYECFG_EYEDROP : Fld := ⟨0x4008002C, 8, 8, 8⟩
/-! `PAT_EYEALRMj` (16_integrity_ageing_and_test.md) -/
def PAT_EYEALRM_LANE (i : Nat) : Fld := ⟨0x40080030 + 0x4 * i, 0, 32, 0⟩
/-! `PAT_HOURS` (16_integrity_ageing_and_test.md) -/
def PAT_HOURS_HOURS : Fld := ⟨0x40080038, 0, 32, 0⟩
/-! `PAT_LOGCFG` (16_integrity_ageing_and_test.md) -/
def PAT_LOGCFG_LOGPER : Fld := ⟨0x4008003C, 16, 16, 0x2D0⟩
def PAT_LOGCFG_LOGWR : Fld := ⟨0x4008003C, 0, 4, 0⟩
/-! `PAT_EYEl` (16_integrity_ageing_and_test.md) -/
def PAT_EYE_BASEH (i : Nat) : Fld := ⟨0x40080100 + 0x4 * i, 24, 8, 0⟩
def PAT_EYE_H (i : Nat) : Fld := ⟨0x40080100 + 0x4 * i, 16, 8, 0⟩
def PAT_EYE_V (i : Nat) : Fld := ⟨0x40080100 + 0x4 * i, 8, 8, 0⟩
/-! `PAT_LOGk_0` (16_integrity_ageing_and_test.md) -/
def PAT_LOG0_HOURS (i : Nat) : Fld := ⟨0x40080200 + 0x10 * i, 0, 32, 0⟩
/-! `PAT_LOGk_1` (16_integrity_ageing_and_test.md) -/
def PAT_LOG1_VREQ (i : Nat) : Fld := ⟨0x40080204 + 0x10 * i, 16, 16, 0⟩
def PAT_LOG1_CORE (i : Nat) : Fld := ⟨0x40080204 + 0x10 * i, 0, 16, 0⟩
/-! `PAT_LOGk_2` (16_integrity_ageing_and_test.md) -/
def PAT_LOG2_VMIN (i : Nat) : Fld := ⟨0x40080208 + 0x10 * i, 16, 16, 0⟩
def PAT_LOG2_EYEH (i : Nat) : Fld := ⟨0x40080208 + 0x10 * i, 8, 8, 0⟩
/-! `PAT_LOGk_3` (16_integrity_ageing_and_test.md) -/
def PAT_LOG3_RM (i : Nat) : Fld := ⟨0x4008020C + 0x10 * i, 16, 16, 0⟩
def PAT_LOG3_TTE (i : Nat) : Fld := ⟨0x4008020C + 0x10 * i, 0, 16, 0⟩
/-! `BST_CTRL` (16_integrity_ageing_and_test.md) -/
def BST_CTRL_TBEN : Fld := ⟨0x40090000, 1, 1, 1⟩
def BST_CTRL_EN : Fld := ⟨0x40090000, 0, 1, 1⟩
/-! `BST_STAT` (16_integrity_ageing_and_test.md) -/
def BST_STAT_REMAIN : Fld := ⟨0x40090004, 16, 16, 0⟩
def BST_STAT_RUN : Fld := ⟨0x40090004, 14, 2, 0⟩
def BST_STAT_STATE : Fld := ⟨0x40090004, 0, 4, 0⟩
/-! `BST_ALRM` (16_integrity_ageing_and_test.md) -/
def BST_ALRM_SCRLATE : Fld := ⟨0x40090008, 5, 1, 0⟩
def BST_ALRM_HARD : Fld := ⟨0x40090008, 4, 1, 0⟩
def BST_ALRM_TBFAIL : Fld := ⟨0x40090008, 3, 1, 0⟩
def BST_ALRM_MBFAIL : Fld := ⟨0x40090008, 2, 1, 0⟩
def BST_ALRM_LBFAIL : Fld := ⟨0x40090008, 1, 1, 0⟩
def BST_ALRM_DONE : Fld := ⟨0x40090008, 0, 1, 0⟩
/-! `BST_CMD` (16_integrity_ageing_and_test.md) -/
def BST_CMD_AMASK : Fld := ⟨0x4009000C, 16, 16, 0⟩
def BST_CMD_RMASK : Fld := ⟨0x4009000C, 8, 8, 0⟩
def BST_CMD_ABORT : Fld := ⟨0x4009000C, 2, 1, 0⟩
def BST_CMD_MBIST : Fld := ⟨0x4009000C, 1, 1, 0⟩
def BST_CMD_LBIST : Fld := ⟨0x4009000C, 0, 1, 0⟩
/-! `BST_RESULT` (16_integrity_ageing_and_test.md) -/
def BST_RESULT_MFAIL : Fld := ⟨0x40090010, 16, 16, 0⟩
def BST_RESULT_LFAIL : Fld := ⟨0x40090010, 8, 8, 0⟩
def BST_RESULT_LPASS : Fld := ⟨0x40090010, 0, 8, 0⟩
/-! `BST_LSIGr` (16_integrity_ageing_and_test.md) -/
def BST_LSIG_SIG (i : Nat) : Fld := ⟨0x40090100 + 0x4 * i, 0, 32, 0⟩
/-! `BST_SCRa` (16_integrity_ageing_and_test.md) -/
def BST_SCR_SI (i : Nat) : Fld := ⟨0x40090200 + 0x10 * i, 16, 16, 0x64⟩
def BST_SCR_SILOAD (i : Nat) : Fld := ⟨0x40090200 + 0x10 * i, 0, 16, 0x64⟩
/-! `BST_ECCa` (16_integrity_ageing_and_test.md) -/
def BST_ECC_CORR (i : Nat) : Fld := ⟨0x40090204 + 0x10 * i, 16, 16, 0⟩
def BST_ECC_UNCORR (i : Nat) : Fld := ⟨0x40090204 + 0x10 * i, 8, 8, 0⟩
def BST_ECC_HARD (i : Nat) : Fld := ⟨0x40090204 + 0x10 * i, 0, 8, 0⟩
/-! `BST_TBa` (16_integrity_ageing_and_test.md) -/
def BST_TB_PASSES (i : Nat) : Fld := ⟨0x40090208 + 0x10 * i, 0, 32, 0⟩
/-! `BST_CTHRa` (16_integrity_ageing_and_test.md) -/
def BST_CTHR_CTHR (i : Nat) : Fld := ⟨0x4009020C + 0x10 * i, 0, 16, 4⟩
/-! `PWR_CFG` (16_integrity_ageing_and_test.md) -/
def PWR_CFG_EN : Fld := ⟨0x400A0000, 31, 1, 0⟩
def PWR_CFG_PAGEN : Fld := ⟨0x400A0000, 30, 1, 0⟩
def PWR_CFG_PAGE : Fld := ⟨0x400A0000, 16, 8, 0⟩
def PWR_CFG_ADDR : Fld := ⟨0x400A0000, 0, 7, 0⟩
/-! `PWR_VSET` (16_integrity_ageing_and_test.md) -/
def PWR_VSET_VREAD : Fld := ⟨0x400A0004, 16, 16, 0⟩
def PWR_VSET_VSET : Fld := ⟨0x400A0004, 0, 16, 0⟩
/-! `PWR_STAT` (16_integrity_ageing_and_test.md) -/
def PWR_STAT_STATUS : Fld := ⟨0x400A0008, 16, 16, 0⟩
def PWR_STAT_ALERT : Fld := ⟨0x400A0008, 2, 1, 0⟩
def PWR_STAT_AVSFAIL : Fld := ⟨0x400A0008, 1, 1, 0⟩
def PWR_STAT_BUSY : Fld := ⟨0x400A0008, 0, 1, 0⟩
/-! `PWR_ENV` (17_pins_power_and_package.md) -/
def PWR_ENV_COND : Fld := ⟨0x400A000C, 31, 1, 0⟩
def PWR_ENV_CLIVE : Fld := ⟨0x400A000C, 30, 1, 0⟩
def PWR_ENV_TJHI : Fld := ⟨0x400A000C, 29, 1, 0⟩
def PWR_ENV_CPOL : Fld := ⟨0x400A000C, 28, 1, 0⟩
def PWR_ENV_CEN : Fld := ⟨0x400A000C, 27, 1, 0⟩
def PWR_ENV_TJLIM : Fld := ⟨0x400A000C, 16, 8, 0x73⟩
def PWR_ENV_TJ : Fld := ⟨0x400A000C, 0, 16, 0⟩
/-! `NET_CTRL` (12_network_and_time.md) -/
def NET_CTRL_SVFWD : Fld := ⟨0x41000000, 1, 1, 0⟩
def NET_CTRL_EN : Fld := ⟨0x41000000, 0, 1, 0⟩
/-! `NET_STAT` (12_network_and_time.md) -/
def NET_STAT_REMAIN : Fld := ⟨0x41000004, 16, 16, 0⟩
def NET_STAT_STATE : Fld := ⟨0x41000004, 0, 4, 0⟩
/-! `NET_ALRM` (12_network_and_time.md) -/
def NET_ALRM_PCIEDOWN : Fld := ⟨0x41000008, 4, 1, 0⟩
def NET_ALRM_LINKCHG : Fld := ⟨0x41000008, 3, 1, 0⟩
def NET_ALRM_LAUNCHLATE : Fld := ⟨0x41000008, 2, 1, 0⟩
def NET_ALRM_TXERR : Fld := ⟨0x41000008, 1, 1, 0⟩
def NET_ALRM_RXOVF : Fld := ⟨0x41000008, 0, 1, 0⟩
/-! `NET_PCIE` (12_network_and_time.md) -/
def NET_PCIE_SPEED : Fld := ⟨0x41000010, 6, 2, 0⟩
def NET_PCIE_WIDTH : Fld := ⟨0x41000010, 4, 2, 0⟩
def NET_PCIE_LINKUP : Fld := ⟨0x41000010, 3, 1, 0⟩
def NET_PCIE_MSIV : Fld := ⟨0x41000010, 0, 3, 0⟩
/-! `NET_PCFGp` (12_network_and_time.md) -/
def NET_PCFG_PEN (i : Nat) : Fld := ⟨0x41000100 + 0x40 * i, 31, 1, 0⟩
def NET_PCFG_IFMODE (i : Nat) : Fld := ⟨0x41000100 + 0x40 * i, 30, 1, 0⟩
def NET_PCFG_ANEN (i : Nat) : Fld := ⟨0x41000100 + 0x40 * i, 29, 1, 1⟩
def NET_PCFG_PROMISC (i : Nat) : Fld := ⟨0x41000100 + 0x40 * i, 28, 1, 0⟩
def NET_PCFG_TXRING (i : Nat) : Fld := ⟨0x41000100 + 0x40 * i, 8, 6, 0⟩
def NET_PCFG_RXRING (i : Nat) : Fld := ⟨0x41000100 + 0x40 * i, 0, 6, 0⟩
/-! `NET_MACLOp` (12_network_and_time.md) -/
def NET_MACLO_MACLO (i : Nat) : Fld := ⟨0x41000104 + 0x40 * i, 0, 32, 0⟩
/-! `NET_MACHIp` (12_network_and_time.md) -/
def NET_MACHI_MACHI (i : Nat) : Fld := ⟨0x41000108 + 0x40 * i, 0, 16, 0⟩
/-! `NET_PSTATp` (12_network_and_time.md) -/
def NET_PSTAT_RXPINV (i : Nat) : Fld := ⟨0x4100010C + 0x40 * i, 2, 1, 0⟩
def NET_PSTAT_ANDONE (i : Nat) : Fld := ⟨0x4100010C + 0x40 * i, 1, 1, 0⟩
def NET_PSTAT_LINK (i : Nat) : Fld := ⟨0x4100010C + 0x40 * i, 0, 1, 0⟩
/-! `NET_LATp` (12_network_and_time.md) -/
def NET_LAT_TXLAT (i : Nat) : Fld := ⟨0x41000110 + 0x40 * i, 16, 16, 0⟩
def NET_LAT_RXLAT (i : Nat) : Fld := ⟨0x41000110 + 0x40 * i, 0, 16, 0⟩
/-! `NET_RXCNTp` (12_network_and_time.md) -/
def NET_RXCNT_RXDROP (i : Nat) : Fld := ⟨0x41000114 + 0x40 * i, 16, 16, 0⟩
def NET_RXCNT_RXOK (i : Nat) : Fld := ⟨0x41000114 + 0x40 * i, 0, 16, 0⟩
/-! `NET_TXCNTp` (12_network_and_time.md) -/
def NET_TXCNT_TXERR (i : Nat) : Fld := ⟨0x41000118 + 0x40 * i, 24, 8, 0⟩
def NET_TXCNT_LLATE (i : Nat) : Fld := ⟨0x41000118 + 0x40 * i, 16, 8, 0⟩
def NET_TXCNT_TXOK (i : Nat) : Fld := ⟨0x41000118 + 0x40 * i, 0, 16, 0⟩
/-! `NET_ERRCNTp` (12_network_and_time.md) -/
def NET_ERRCNT_LENERR (i : Nat) : Fld := ⟨0x4100011C + 0x40 * i, 16, 16, 0⟩
def NET_ERRCNT_FCSERR (i : Nat) : Fld := ⟨0x4100011C + 0x40 * i, 0, 16, 0⟩
/-! `NET_MCLOp_k` (12_network_and_time.md) -/
def NET_MCLO_ADDRLO (i j : Nat) : Fld := ⟨0x41001000 + 0x100 * i + 0x8 * j, 0, 32, 0⟩
/-! `NET_MCHIp_k` (12_network_and_time.md) -/
def NET_MCHI_EN (i j : Nat) : Fld := ⟨0x41001004 + 0x100 * i + 0x8 * j, 31, 1, 0⟩
def NET_MCHI_ADDRHI (i j : Nat) : Fld := ⟨0x41001004 + 0x100 * i + 0x8 * j, 0, 16, 0⟩
/-! `PTP_CTRL` (12_network_and_time.md) -/
def PTP_CTRL_PPSIPOL : Fld := ⟨0x41010000, 3, 1, 0⟩
def PTP_CTRL_PPSIEN : Fld := ⟨0x41010000, 2, 1, 0⟩
def PTP_CTRL_PPSOEN : Fld := ⟨0x41010000, 1, 1, 0⟩
def PTP_CTRL_EN : Fld := ⟨0x41010000, 0, 1, 1⟩
/-! `PTP_STAT` (12_network_and_time.md) -/
def PTP_STAT_REMAIN : Fld := ⟨0x41010004, 16, 16, 0⟩
def PTP_STAT_TXQN : Fld := ⟨0x41010004, 4, 6, 0⟩
def PTP_STAT_STATE : Fld := ⟨0x41010004, 0, 4, 1⟩
/-! `PTP_ALRM` (12_network_and_time.md) -/
def PTP_ALRM_OSERR : Fld := ⟨0x41010008, 5, 1, 0⟩
def PTP_ALRM_TRGLATE : Fld := ⟨0x41010008, 4, 1, 0⟩
def PTP_ALRM_INCCLAMP : Fld := ⟨0x41010008, 3, 1, 0⟩
def PTP_ALRM_PPSIN : Fld := ⟨0x41010008, 2, 1, 0⟩
def PTP_ALRM_WRAP : Fld := ⟨0x41010008, 1, 1, 0⟩
def PTP_ALRM_TXQOVF : Fld := ⟨0x41010008, 0, 1, 0⟩
/-! `PTP_TIME` (12_network_and_time.md) -/
def PTP_TIME_TIME : Fld := ⟨0x41010010, 0, 32, 0⟩
/-! `PTP_INC` (12_network_and_time.md) -/
def PTP_INC_INC : Fld := ⟨0x41010014, 0, 8, 4⟩
/-! `PTP_INCF` (12_network_and_time.md) -/
def PTP_INCF_INCF : Fld := ⟨0x41010018, 0, 32, 0⟩
/-! `PTP_SECBASE` (12_network_and_time.md) -/
def PTP_SECBASE_SECBASE : Fld := ⟨0x4101001C, 0, 32, 0⟩
/-! `PTP_PPSCFG` (12_network_and_time.md) -/
def PTP_PPSCFG_PPSW : Fld := ⟨0x41010020, 0, 8, 0x64⟩
/-! `PTP_PPSIN` (12_network_and_time.md) -/
def PTP_PPSIN_TIME : Fld := ⟨0x41010024, 0, 32, 0⟩
/-! `PTP_TXQHEAD` (12_network_and_time.md) -/
def PTP_TXQHEAD_VALID : Fld := ⟨0x41010030, 31, 1, 0⟩
def PTP_TXQHEAD_LOSTCNT : Fld := ⟨0x41010030, 16, 8, 0⟩
def PTP_TXQHEAD_TSID : Fld := ⟨0x41010030, 0, 16, 0⟩
/-! `PTP_TXQTIME` (12_network_and_time.md) -/
def PTP_TXQTIME_PORT : Fld := ⟨0x41010034, 29, 3, 0⟩
/-! `PTP_TXQSTAMP` (12_network_and_time.md) -/
def PTP_TXQSTAMP_TIME : Fld := ⟨0x41010038, 0, 32, 0⟩
/-! `PTP_TRGCFGk` (12_network_and_time.md) -/
def PTP_TRGCFG_EN (i : Nat) : Fld := ⟨0x41010100 + 0x10 * i, 31, 1, 0⟩
def PTP_TRGCFG_PERIOD (i : Nat) : Fld := ⟨0x41010100 + 0x10 * i, 0, 26, 0⟩
/-! `PTP_TRGNEXTk` (12_network_and_time.md) -/
def PTP_TRGNEXT_NEXT (i : Nat) : Fld := ⟨0x41010104 + 0x10 * i, 0, 32, 0⟩
/-! `PTP_TRGSTATk` (12_network_and_time.md) -/
def PTP_TRGSTAT_TRGSKIP (i : Nat) : Fld := ⟨0x41010108 + 0x10 * i, 16, 16, 0⟩
def PTP_TRGSTAT_FIRED (i : Nat) : Fld := ⟨0x41010108 + 0x10 * i, 0, 16, 0⟩
/-! `SVS_CTRL` (12_network_and_time.md) -/
def SVS_CTRL_EN : Fld := ⟨0x41020000, 0, 1, 0⟩
/-! `SVS_STAT` (12_network_and_time.md) -/
def SVS_STAT_REMAIN : Fld := ⟨0x41020004, 16, 16, 0⟩
def SVS_STAT_STATE : Fld := ⟨0x41020004, 0, 4, 0⟩
/-! `SVS_ALRM` (12_network_and_time.md) -/
def SVS_ALRM_GAP : Fld := ⟨0x41020008, 2, 1, 0⟩
def SVS_ALRM_CONFERR : Fld := ⟨0x41020008, 1, 1, 0⟩
def SVS_ALRM_RESERR : Fld := ⟨0x41020008, 0, 1, 0⟩
/-! `SVS_SCFGs` (12_network_and_time.md) -/
def SVS_SCFG_EN (i : Nat) : Fld := ⟨0x41020100 + 0x20 * i, 31, 1, 0⟩
def SVS_SCFG_PORTS (i : Nat) : Fld := ⟨0x41020100 + 0x20 * i, 27, 4, 0⟩
def SVS_SCFG_SPC (i : Nat) : Fld := ⟨0x41020100 + 0x20 * i, 26, 1, 0⟩
def SVS_SCFG_NOMF (i : Nat) : Fld := ⟨0x41020100 + 0x20 * i, 25, 1, 0⟩
def SVS_SCFG_APPID (i : Nat) : Fld := ⟨0x41020100 + 0x20 * i, 0, 16, 0x4000⟩
/-! `SVS_SDALOs` (12_network_and_time.md) -/
def SVS_SDALO_DALO (i : Nat) : Fld := ⟨0x41020104 + 0x20 * i, 0, 32, 0⟩
/-! `SVS_SDAHIs` (12_network_and_time.md) -/
def SVS_SDAHI_DAHI (i : Nat) : Fld := ⟨0x41020108 + 0x20 * i, 0, 16, 0⟩
/-! `SVS_SIDs` (12_network_and_time.md) -/
def SVS_SID_SVIDCRC (i : Nat) : Fld := ⟨0x4102010C + 0x20 * i, 0, 32, 0⟩
/-! `SVS_CONFs` (12_network_and_time.md) -/
def SVS_CONF_CONFREV (i : Nat) : Fld := ⟨0x41020110 + 0x20 * i, 0, 32, 1⟩
/-! `SVS_SCNTs` (12_network_and_time.md) -/
def SVS_SCNT_GAPS (i : Nat) : Fld := ⟨0x41020114 + 0x20 * i, 16, 16, 0⟩
def SVS_SCNT_DUPS (i : Nat) : Fld := ⟨0x41020114 + 0x20 * i, 0, 16, 0⟩
/-! `SVS_SLASTs` (12_network_and_time.md) -/
def SVS_SLAST_SYNCH (i : Nat) : Fld := ⟨0x41020118 + 0x20 * i, 24, 8, 0⟩
def SVS_SLAST_SMPCNT (i : Nat) : Fld := ⟨0x41020118 + 0x20 * i, 0, 16, 0⟩
/-! `SVS_BINDc` (12_network_and_time.md) -/
def SVS_BIND_EN (i : Nat) : Fld := ⟨0x41020400 + 0x8 * i, 31, 1, 0⟩
def SVS_BIND_STREAM (i : Nat) : Fld := ⟨0x41020400 + 0x8 * i, 16, 3, 0⟩
def SVS_BIND_VIDX (i : Nat) : Fld := ⟨0x41020400 + 0x8 * i, 8, 5, 0⟩
def SVS_BIND_SHIFT (i : Nat) : Fld := ⟨0x41020400 + 0x8 * i, 0, 6, 0⟩
/-! `SVS_MULc` (12_network_and_time.md) -/
def SVS_MUL_MULT (i : Nat) : Fld := ⟨0x41020404 + 0x8 * i, 0, 16, 1⟩
/-! `MIR_CTRL` (08_redundant_pair.md) -/
def MIR_CTRL_HANDOVER : Fld := ⟨0x41030000, 2, 1, 0⟩
def MIR_CTRL_CLAIMEN : Fld := ⟨0x41030000, 1, 1, 1⟩
def MIR_CTRL_EN : Fld := ⟨0x41030000, 0, 1, 0⟩
/-! `MIR_STAT` (08_redundant_pair.md) -/
def MIR_STAT_REMAIN : Fld := ⟨0x41030004, 16, 16, 0⟩
def MIR_STAT_ROLE : Fld := ⟨0x41030004, 14, 2, 0⟩
def MIR_STAT_PARTNER : Fld := ⟨0x41030004, 13, 1, 0⟩
def MIR_STAT_LANES : Fld := ⟨0x41030004, 11, 2, 0⟩
def MIR_STAT_ALIGNED : Fld := ⟨0x41030004, 10, 1, 0⟩
def MIR_STAT_STATE : Fld := ⟨0x41030004, 0, 4, 0⟩
/-! `MIR_ALRM` (08_redundant_pair.md) -/
def MIR_ALRM_SNAPLATE : Fld := ⟨0x41030008, 11, 1, 0⟩
def MIR_ALRM_IMGDIFF : Fld := ⟨0x41030008, 10, 1, 0⟩
def MIR_ALRM_MISS : Fld := ⟨0x41030008, 9, 1, 0⟩
def MIR_ALRM_MIRLANE : Fld := ⟨0x41030008, 8, 1, 0⟩
def MIR_ALRM_HBLOST : Fld := ⟨0x41030008, 7, 1, 0⟩
def MIR_ALRM_TOFS : Fld := ⟨0x41030008, 6, 1, 0⟩
def MIR_ALRM_EPEXH : Fld := ⟨0x41030008, 5, 1, 0⟩
def MIR_ALRM_EPLOW : Fld := ⟨0x41030008, 4, 1, 0⟩
def MIR_ALRM_DUALHOLD : Fld := ⟨0x41030008, 3, 1, 0⟩
def MIR_ALRM_LEASELOST : Fld := ⟨0x41030008, 2, 1, 0⟩
def MIR_ALRM_CLAIMED : Fld := ⟨0x41030008, 1, 1, 0⟩
def MIR_ALRM_RELEASED : Fld := ⟨0x41030008, 0, 1, 0⟩
/-! `MIR_CFG` (08_redundant_pair.md) -/
def MIR_CFG_W : Fld := ⟨0x41030010, 16, 16, 0⟩
def MIR_CFG_AUTORUN : Fld := ⟨0x41030010, 4, 1, 0⟩
def MIR_CFG_HBEN : Fld := ⟨0x41030010, 3, 1, 0⟩
def MIR_CFG_MEMBER : Fld := ⟨0x41030010, 2, 1, 0⟩
def MIR_CFG_PAIR : Fld := ⟨0x41030010, 0, 2, 0⟩
/-! `MIR_LEASE` (08_redundant_pair.md) -/
def MIR_LEASE_SKEW : Fld := ⟨0x41030014, 16, 8, 5⟩
def MIR_LEASE_LEASE : Fld := ⟨0x41030014, 0, 16, 0x12C⟩
/-! `MIR_EPOCH` (08_redundant_pair.md) -/
def MIR_EPOCH_EPOCH : Fld := ⟨0x41030018, 0, 32, 0⟩
/-! `MIR_EPSEEN` (08_redundant_pair.md) -/
def MIR_EPSEEN_EPSEEN : Fld := ⟨0x4103001C, 0, 32, 0⟩
/-! `MIR_LE` (08_redundant_pair.md) -/
def MIR_LE_LE : Fld := ⟨0x41030020, 0, 32, 0⟩
/-! `MIR_TOFS` (08_redundant_pair.md) -/
def MIR_TOFS_TOFS : Fld := ⟨0x41030024, 0, 32, 0⟩
/-! `MIR_CNT` (08_redundant_pair.md) -/
def MIR_CNT_MISS : Fld := ⟨0x41030028, 16, 16, 0⟩
def MIR_CNT_CLAIMS : Fld := ⟨0x41030028, 0, 16, 0⟩
/-! `MIR_SNAP` (08_redundant_pair.md) -/
def MIR_SNAP_AGE : Fld := ⟨0x4103002C, 16, 16, 0xFFFF⟩
def MIR_SNAP_PERIOD : Fld := ⟨0x4103002C, 0, 7, 0xA⟩
/-! `MIR_CLAIMTIME` (08_redundant_pair.md) -/
def MIR_CLAIMTIME_TIME : Fld := ⟨0x41030030, 0, 32, 0⟩
/-! `MIR_TXWn` (08_redundant_pair.md) -/
def MIR_TXW_DATA (i : Nat) : Fld := ⟨0x41030100 + 0x4 * i, 0, 32, 0⟩
/-! `MIR_RXWn` (08_redundant_pair.md) -/
def MIR_RXW_DATA (i : Nat) : Fld := ⟨0x41030180 + 0x4 * i, 0, 32, 0⟩
/-! `ACQ_CTRL` (02_measurement_and_grid_angle.md) -/
def ACQ_CTRL_CAL_START : Fld := ⟨0x42000000, 1, 1, 0⟩
def ACQ_CTRL_EN : Fld := ⟨0x42000000, 0, 1, 0⟩
/-! `ACQ_STAT` (02_measurement_and_grid_angle.md) -/
def ACQ_STAT_REMAIN : Fld := ⟨0x42000004, 16, 16, 0⟩
def ACQ_STAT_CALBUSY : Fld := ⟨0x42000004, 4, 1, 0⟩
def ACQ_STAT_STATE : Fld := ⟨0x42000004, 0, 4, 0⟩
/-! `ACQ_ROT` (02_measurement_and_grid_angle.md) -/
def ACQ_ROT_EN : Fld := ⟨0x42000010, 31, 1, 0⟩
def ACQ_ROT_TOL : Fld := ⟨0x42000010, 8, 8, 0x10⟩
def ACQ_ROT_SLOT : Fld := ⟨0x42000010, 0, 8, 0xA⟩
/-! `ACQ_ROTSTAT` (02_measurement_and_grid_angle.md) -/
def ACQ_ROTSTAT_HALT : Fld := ⟨0x42000014, 31, 1, 0⟩
def ACQ_ROTSTAT_MISMATCH : Fld := ⟨0x42000014, 30, 1, 0⟩
def ACQ_ROTSTAT_SUSPECT : Fld := ⟨0x42000014, 16, 14, 0⟩
def ACQ_ROTSTAT_RETIRED : Fld := ⟨0x42000014, 12, 4, 0xF⟩
def ACQ_ROTSTAT_RELEASED : Fld := ⟨0x42000014, 8, 4, 0xF⟩
def ACQ_ROTSTAT_SPARE : Fld := ⟨0x42000014, 4, 4, 0xC⟩
def ACQ_ROTSTAT_POS : Fld := ⟨0x42000014, 0, 4, 0⟩
/-! `ACQ_ITEST` (02_measurement_and_grid_angle.md) -/
def ACQ_ITEST_EN : Fld := ⟨0x42000020, 0, 32, 0⟩
/-! `ACQ_ITHR` (02_measurement_and_grid_angle.md) -/
def ACQ_ITHR_OPEN_THR : Fld := ⟨0x42000024, 16, 16, 0xA3D⟩
def ACQ_ITHR_SHORT_THR : Fld := ⟨0x42000024, 0, 16, 0x10⟩
/-! `ACQ_OPEN` (02_measurement_and_grid_angle.md) -/
def ACQ_OPEN_OPEN : Fld := ⟨0x42000028, 0, 32, 0⟩
/-! `ACQ_SHORT` (02_measurement_and_grid_angle.md) -/
def ACQ_SHORT_SHORT : Fld := ⟨0x4200002C, 0, 32, 0⟩
/-! `ACQ_SEQCFGn` (02_measurement_and_grid_angle.md) -/
def ACQ_SEQCFG_SRC (i : Nat) : Fld := ⟨0x42000100 + 0x10 * i, 28, 4, 0⟩
def ACQ_SEQCFG_SEL (i : Nat) : Fld := ⟨0x42000100 + 0x10 * i, 24, 4, 0⟩
def ACQ_SEQCFG_DELAY (i : Nat) : Fld := ⟨0x42000100 + 0x10 * i, 12, 10, 0⟩
def ACQ_SEQCFG_GO (i : Nat) : Fld := ⟨0x42000100 + 0x10 * i, 6, 1, 0⟩
def ACQ_SEQCFG_NENT (i : Nat) : Fld := ⟨0x42000100 + 0x10 * i, 0, 6, 0⟩
/-! `ACQ_SEQSTATn` (02_measurement_and_grid_angle.md) -/
def ACQ_SEQSTAT_LOST (i : Nat) : Fld := ⟨0x42000104 + 0x10 * i, 16, 16, 0⟩
def ACQ_SEQSTAT_BUSY (i : Nat) : Fld := ⟨0x42000104 + 0x10 * i, 6, 1, 0⟩
def ACQ_SEQSTAT_SEQ (i : Nat) : Fld := ⟨0x42000104 + 0x10 * i, 0, 6, 0⟩
/-! `ACQ_SEQTIMEn` (02_measurement_and_grid_angle.md) -/
def ACQ_SEQTIME_TIME (i : Nat) : Fld := ⟨0x42000108 + 0x10 * i, 0, 32, 0⟩
/-! `ACQ_QCFGq` (02_measurement_and_grid_angle.md) -/
def ACQ_QCFG_WM (i : Nat) : Fld := ⟨0x42000200 + 0x10 * i, 0, 11, 0x100⟩
/-! `ACQ_QSTATq` (02_measurement_and_grid_angle.md) -/
def ACQ_QSTAT_LOST (i : Nat) : Fld := ⟨0x42000204 + 0x10 * i, 16, 16, 0⟩
def ACQ_QSTAT_OVF (i : Nat) : Fld := ⟨0x42000204 + 0x10 * i, 15, 1, 0⟩
def ACQ_QSTAT_FILL (i : Nat) : Fld := ⟨0x42000204 + 0x10 * i, 0, 11, 0⟩
/-! `ACQ_QDATAq` (02_measurement_and_grid_angle.md) -/
def ACQ_QDATA_ENTRY (i : Nat) : Fld := ⟨0x42000208 + 0x10 * i, 0, 32, 0xFFFFFFFF⟩
/-! `ACQ_CALp` (02_measurement_and_grid_angle.md) -/
def ACQ_CAL_GAIN (i : Nat) : Fld := ⟨0x42000300 + 0x4 * i, 16, 16, 0x4000⟩
def ACQ_CAL_OFFSET (i : Nat) : Fld := ⟨0x42000300 + 0x4 * i, 0, 16, 0⟩
/-! `ACQ_CHVALc` (02_measurement_and_grid_angle.md) -/
def ACQ_CHVAL_VALID (i : Nat) : Fld := ⟨0x42000400 + 0x4 * i, 31, 1, 0⟩
def ACQ_CHVAL_SAT (i : Nat) : Fld := ⟨0x42000400 + 0x4 * i, 30, 1, 0⟩
def ACQ_CHVAL_STALE (i : Nat) : Fld := ⟨0x42000400 + 0x4 * i, 29, 1, 0⟩
def ACQ_CHVAL_NOSYNC (i : Nat) : Fld := ⟨0x42000400 + 0x4 * i, 28, 1, 0⟩
def ACQ_CHVAL_SEQ (i : Nat) : Fld := ⟨0x42000400 + 0x4 * i, 20, 6, 0⟩
def ACQ_CHVAL_RES (i : Nat) : Fld := ⟨0x42000400 + 0x4 * i, 16, 4, 0⟩
def ACQ_CHVAL_DATA (i : Nat) : Fld := ⟨0x42000400 + 0x4 * i, 0, 16, 0⟩
/-! `ACQ_CHTIMEc` (02_measurement_and_grid_angle.md) -/
def ACQ_CHTIME_TIME (i : Nat) : Fld := ⟨0x42000500 + 0x4 * i, 0, 32, 0⟩
/-! `ACQ_CHMAPc` (02_measurement_and_grid_angle.md) -/
def ACQ_CHMAP_QEN (i : Nat) : Fld := ⟨0x42000600 + 0x4 * i, 2, 1, 0⟩
def ACQ_CHMAP_Q (i : Nat) : Fld := ⟨0x42000600 + 0x4 * i, 0, 2, 0⟩
/-! `ACQ_SEQENTn_e` (02_measurement_and_grid_angle.md) -/
def ACQ_SEQENT_ADC (i j : Nat) : Fld := ⟨0x42001000 + 0x80 * i + 0x4 * j, 12, 4, 0⟩
def ACQ_SEQENT_AVG (i j : Nat) : Fld := ⟨0x42001000 + 0x80 * i + 0x4 * j, 8, 4, 0⟩
def ACQ_SEQENT_INPUT (i j : Nat) : Fld := ⟨0x42001000 + 0x80 * i + 0x4 * j, 0, 5, 0⟩
/-! `ANG_CTRL` (02_measurement_and_grid_angle.md) -/
def ANG_CTRL_PLLDIS : Fld := ⟨0x42010000, 5, 1, 0⟩
def ANG_CTRL_IDXARM : Fld := ⟨0x42010000, 4, 1, 0⟩
def ANG_CTRL_IDX : Fld := ⟨0x42010000, 3, 1, 0⟩
def ANG_CTRL_SRC : Fld := ⟨0x42010000, 1, 2, 0⟩
def ANG_CTRL_EN : Fld := ⟨0x42010000, 0, 1, 0⟩
/-! `ANG_STAT` (02_measurement_and_grid_angle.md) -/
def ANG_STAT_REMAIN : Fld := ⟨0x42010004, 16, 16, 0⟩
def ANG_STAT_VALID : Fld := ⟨0x42010004, 15, 1, 0⟩
def ANG_STAT_METHOD : Fld := ⟨0x42010004, 13, 2, 0⟩
def ANG_STAT_SEQREV : Fld := ⟨0x42010004, 12, 1, 0⟩
def ANG_STAT_IDXDONE : Fld := ⟨0x42010004, 11, 1, 0⟩
def ANG_STAT_SECTOR : Fld := ⟨0x42010004, 8, 3, 0⟩
def ANG_STAT_STATE : Fld := ⟨0x42010004, 0, 4, 0⟩
/-! `ANG_ZCCFG` (02_measurement_and_grid_angle.md) -/
def ANG_ZCCFG_TMO : Fld := ⟨0x42010100, 24, 8, 0x32⟩
def ANG_ZCCFG_DGL : Fld := ⟨0x42010100, 0, 8, 0x19⟩
/-! `ANG_IDXOFS` (02_measurement_and_grid_angle.md) -/
def ANG_IDXOFS_IDXOFS : Fld := ⟨0x42010104, 0, 32, 0⟩
/-! `ANG_VSEL` (02_measurement_and_grid_angle.md) -/
def ANG_VSEL_CHC : Fld := ⟨0x42010108, 16, 6, 2⟩
def ANG_VSEL_CHB : Fld := ⟨0x42010108, 8, 6, 1⟩
def ANG_VSEL_CHA : Fld := ⟨0x42010108, 0, 6, 0⟩
/-! `ANG_VBASE` (02_measurement_and_grid_angle.md) -/
def ANG_VBASE_VBASE : Fld := ⟨0x4201010C, 0, 16, 0x4000⟩
/-! `ANG_PLL` (02_measurement_and_grid_angle.md) -/
def ANG_PLL_KP : Fld := ⟨0x42010110, 16, 16, 0x500⟩
def ANG_PLL_KI : Fld := ⟨0x42010110, 0, 16, 0x190⟩
/-! `ANG_NOMF` (02_measurement_and_grid_angle.md) -/
def ANG_NOMF_NOMF : Fld := ⟨0x42010114, 0, 32, 0x320000⟩
/-! `ANG_ANGLE` (02_measurement_and_grid_angle.md) -/
def ANG_ANGLE_ANGLE : Fld := ⟨0x42010200, 0, 32, 0⟩
/-! `ANG_FREQ` (02_measurement_and_grid_angle.md) -/
def ANG_FREQ_FREQ : Fld := ⟨0x42010204, 0, 32, 0⟩
/-! `ANG_AMP` (02_measurement_and_grid_angle.md) -/
def ANG_AMP_AMP : Fld := ⟨0x42010208, 0, 16, 0⟩
/-! `ANG_ATIME` (02_measurement_and_grid_angle.md) -/
def ANG_ATIME_ATIME : Fld := ⟨0x4201020C, 0, 32, 0⟩
/-! `ANG_ALRM` (02_measurement_and_grid_angle.md) -/
def ANG_ALRM_SAWTMO : Fld := ⟨0x42010210, 7, 1, 0⟩
def ANG_ALRM_SAWERR : Fld := ⟨0x42010210, 6, 1, 0⟩
def ANG_ALRM_SAWCRC : Fld := ⟨0x42010210, 5, 1, 0⟩
def ANG_ALRM_DEAD : Fld := ⟨0x42010210, 4, 1, 0⟩
def ANG_ALRM_SECERR : Fld := ⟨0x42010210, 3, 1, 0⟩
def ANG_ALRM_SEQREV : Fld := ⟨0x42010210, 2, 1, 0⟩
def ANG_ALRM_PLLCLAMP : Fld := ⟨0x42010210, 1, 1, 0⟩
def ANG_ALRM_VLOST : Fld := ⟨0x42010210, 0, 1, 0⟩
/-! `ANG_SECERRCNT` (02_measurement_and_grid_angle.md) -/
def ANG_SECERRCNT_COUNT : Fld := ⟨0x42010214, 0, 16, 0⟩
/-! `ANG_SAWCFG` (02_measurement_and_grid_angle.md) -/
def ANG_SAWCFG_TMO : Fld := ⟨0x42010300, 16, 16, 0x3E8⟩
def ANG_SAWCFG_TRG : Fld := ⟨0x42010300, 12, 4, 0⟩
def ANG_SAWCFG_DIV : Fld := ⟨0x42010300, 0, 8, 4⟩
/-! `ANG_SAW` (02_measurement_and_grid_angle.md) -/
def ANG_SAW_ANGLE : Fld := ⟨0x42010304, 0, 32, 0⟩
/-! `ANG_SAWTIME` (02_measurement_and_grid_angle.md) -/
def ANG_SAWTIME_TIME : Fld := ⟨0x42010308, 0, 32, 0⟩
/-! `ANG_ACPnCFG` (02_measurement_and_grid_angle.md) -/
def ANG_ACPCFG_NOVALID (i : Nat) : Fld := ⟨0x42010400 + 0x10 * i, 31, 1, 0⟩
def ANG_ACPCFG_FIRED (i : Nat) : Fld := ⟨0x42010400 + 0x10 * i, 30, 1, 0⟩
def ANG_ACPCFG_ARMED (i : Nat) : Fld := ⟨0x42010400 + 0x10 * i, 29, 1, 0⟩
def ANG_ACPCFG_WIDTH (i : Nat) : Fld := ⟨0x42010400 + 0x10 * i, 16, 10, 0x64⟩
def ANG_ACPCFG_POL (i : Nat) : Fld := ⟨0x42010400 + 0x10 * i, 4, 1, 0⟩
def ANG_ACPCFG_ARM (i : Nat) : Fld := ⟨0x42010400 + 0x10 * i, 3, 1, 0⟩
def ANG_ACPCFG_MODE (i : Nat) : Fld := ⟨0x42010400 + 0x10 * i, 1, 2, 0⟩
def ANG_ACPCFG_EN (i : Nat) : Fld := ⟨0x42010400 + 0x10 * i, 0, 1, 0⟩
/-! `ANG_ACPnTGT` (02_measurement_and_grid_angle.md) -/
def ANG_ACPTGT_TGT (i : Nat) : Fld := ⟨0x42010404 + 0x10 * i, 0, 32, 0⟩
/-! `ANG_ACPnLEAD` (02_measurement_and_grid_angle.md) -/
def ANG_ACPLEAD_LEAD (i : Nat) : Fld := ⟨0x42010408 + 0x10 * i, 0, 19, 0⟩
/-! `ANG_ACPnTIME` (02_measurement_and_grid_angle.md) -/
def ANG_ACPTIME_TIME (i : Nat) : Fld := ⟨0x4201040C + 0x10 * i, 0, 32, 0⟩
/-! `CST_CTRL` (11_casting_recorder.md) -/
def CST_CTRL_NCAST : Fld := ⟨0x42020000, 4, 12, 0⟩
def CST_CTRL_OVW : Fld := ⟨0x42020000, 3, 1, 0⟩
def CST_CTRL_SWTRIG : Fld := ⟨0x42020000, 2, 1, 0⟩
def CST_CTRL_ARM : Fld := ⟨0x42020000, 1, 1, 0⟩
def CST_CTRL_EN : Fld := ⟨0x42020000, 0, 1, 0⟩
/-! `CST_STAT` (11_casting_recorder.md) -/
def CST_STAT_REMAIN : Fld := ⟨0x42020004, 16, 16, 0⟩
def CST_STAT_STATE : Fld := ⟨0x42020004, 0, 4, 0⟩
/-! `CST_ALRM` (11_casting_recorder.md) -/
def CST_ALRM_CFGERR : Fld := ⟨0x42020008, 3, 1, 0⟩
def CST_ALRM_RESERR : Fld := ⟨0x42020008, 2, 1, 0⟩
def CST_ALRM_LOST : Fld := ⟨0x42020008, 1, 1, 0⟩
def CST_ALRM_NOSEG : Fld := ⟨0x42020008, 0, 1, 0⟩
/-! `CST_SEGCFG` (11_casting_recorder.md) -/
def CST_SEGCFG_SEGSZ : Fld := ⟨0x42020010, 16, 16, 0xC00⟩
def CST_SEGCFG_NSEG : Fld := ⟨0x42020010, 0, 13, 4⟩
/-! `CST_ROWCFG` (11_casting_recorder.md) -/
def CST_ROWCFG_RATE : Fld := ⟨0x42020014, 31, 1, 0⟩
def CST_ROWCFG_DIV : Fld := ⟨0x42020014, 0, 20, 1⟩
/-! `CST_LEN` (11_casting_recorder.md) -/
def CST_LEN_POST : Fld := ⟨0x42020018, 16, 16, 0x400⟩
def CST_LEN_PRE : Fld := ⟨0x42020018, 0, 16, 0x100⟩
/-! `CST_TRIG` (11_casting_recorder.md) -/
def CST_TRIG_MEASW : Fld := ⟨0x4202001C, 10, 3, 0⟩
def CST_TRIG_TWORD : Fld := ⟨0x4202001C, 7, 3, 0⟩
def CST_TRIG_EDGE : Fld := ⟨0x4202001C, 5, 2, 0⟩
def CST_TRIG_TSRC : Fld := ⟨0x4202001C, 0, 3, 0⟩
/-! `CST_LEVEL` (11_casting_recorder.md) -/
def CST_LEVEL_HYST : Fld := ⟨0x42020020, 16, 15, 0x100⟩
def CST_LEVEL_LEVEL : Fld := ⟨0x42020020, 0, 16, 0⟩
/-! `CST_DONE` (11_casting_recorder.md) -/
def CST_DONE_NDONE : Fld := ⟨0x42020024, 16, 13, 0⟩
def CST_DONE_DONEWM : Fld := ⟨0x42020024, 0, 13, 1⟩
/-! `CST_LAST` (11_casting_recorder.md) -/
def CST_LAST_SEG : Fld := ⟨0x42020028, 0, 12, 0⟩
/-! `CST_TSHI` (11_casting_recorder.md) -/
def CST_TSHI_TSHI : Fld := ⟨0x42020030, 0, 32, 0⟩
/-! `CST_CNT` (11_casting_recorder.md) -/
def CST_CNT_LOST : Fld := ⟨0x42020034, 16, 16, 0⟩
def CST_CNT_CASTS : Fld := ⟨0x42020034, 0, 16, 0⟩
/-! `CST_REL` (11_casting_recorder.md) -/
def CST_REL_SEG : Fld := ⟨0x42020038, 0, 12, 0⟩
/-! `CST_HOLD` (11_casting_recorder.md) -/
def CST_HOLD_SEG : Fld := ⟨0x4202003C, 0, 12, 0⟩
/-! `CST_SRCk` (11_casting_recorder.md) -/
def CST_SRC_EN (i : Nat) : Fld := ⟨0x42020040 + 0x4 * i, 15, 1, 0⟩
def CST_SRC_CLASS (i : Nat) : Fld := ⟨0x42020040 + 0x4 * i, 9, 3, 0⟩
def CST_SRC_INDEX (i : Nat) : Fld := ⟨0x42020040 + 0x4 * i, 0, 6, 0⟩
/-! `CST_SEGs` (11_casting_recorder.md) -/
def CST_SEG_SEQ (i : Nat) : Fld := ⟨0x42024000 + 0x4 * i, 3, 29, 0⟩
def CST_SEG_STATE (i : Nat) : Fld := ⟨0x42024000 + 0x4 * i, 0, 3, 0⟩
/-! `FRM_CTRL` (03_forming_core.md) -/
def FRM_CTRL_LCOMP : Fld := ⟨0x43000000, 3, 1, 1⟩
def FRM_CTRL_VMODE : Fld := ⟨0x43000000, 2, 1, 0⟩
def FRM_CTRL_DREF : Fld := ⟨0x43000000, 1, 1, 0⟩
def FRM_CTRL_EN : Fld := ⟨0x43000000, 0, 1, 0⟩
/-! `FRM_STAT` (03_forming_core.md) -/
def FRM_STAT_REMAIN : Fld := ⟨0x43000004, 16, 16, 0⟩
def FRM_STAT_FVALID : Fld := ⟨0x43000004, 15, 1, 0⟩
def FRM_STAT_INIT : Fld := ⟨0x43000004, 14, 1, 0⟩
def FRM_STAT_STATE : Fld := ⟨0x43000004, 0, 4, 0⟩
/-! `FRM_ALRM` (03_forming_core.md) -/
def FRM_ALRM_PCLAMP : Fld := ⟨0x43000008, 7, 1, 0⟩
def FRM_ALRM_IHOLD : Fld := ⟨0x43000008, 6, 1, 0⟩
def FRM_ALRM_IINV : Fld := ⟨0x43000008, 5, 1, 0⟩
def FRM_ALRM_VSUBST : Fld := ⟨0x43000008, 4, 1, 0⟩
def FRM_ALRM_TRKINV : Fld := ⟨0x43000008, 3, 1, 0⟩
def FRM_ALRM_XCLAMP : Fld := ⟨0x43000008, 2, 1, 0⟩
def FRM_ALRM_ECLAMP : Fld := ⟨0x43000008, 1, 1, 0⟩
def FRM_ALRM_FCLAMP : Fld := ⟨0x43000008, 0, 1, 0⟩
/-! `FRM_SBASE` (03_forming_core.md) -/
def FRM_SBASE_SBASE : Fld := ⟨0x43000010, 0, 32, 0⟩
/-! `FRM_VBASE` (03_forming_core.md) -/
def FRM_VBASE_VBASE : Fld := ⟨0x43000014, 0, 32, 0⟩
/-! `FRM_IBASE` (03_forming_core.md) -/
def FRM_IBASE_IBASE : Fld := ⟨0x43000018, 0, 32, 0⟩
/-! `FRM_FBASE` (03_forming_core.md) -/
def FRM_FBASE_FBASE : Fld := ⟨0x4300001C, 0, 32, 0x320000⟩
/-! `FRM_VSEL` (03_forming_core.md) -/
def FRM_VSEL_CHC : Fld := ⟨0x43000020, 16, 6, 2⟩
def FRM_VSEL_CHB : Fld := ⟨0x43000020, 8, 6, 1⟩
def FRM_VSEL_CHA : Fld := ⟨0x43000020, 0, 6, 0⟩
/-! `FRM_ISEL` (03_forming_core.md) -/
def FRM_ISEL_CHC : Fld := ⟨0x43000024, 16, 6, 5⟩
def FRM_ISEL_CHB : Fld := ⟨0x43000024, 8, 6, 4⟩
def FRM_ISEL_CHA : Fld := ⟨0x43000024, 0, 6, 3⟩
/-! `FRM_SCL` (03_forming_core.md) -/
def FRM_SCL_VSCL : Fld := ⟨0x43000028, 16, 16, 0x1000⟩
def FRM_SCL_ISCL : Fld := ⟨0x43000028, 0, 16, 0x1000⟩
/-! `FRM_H` (03_forming_core.md) -/
def FRM_H_H : Fld := ⟨0x43000040, 0, 16, 0x1F4⟩
/-! `FRM_DAMP` (03_forming_core.md) -/
def FRM_DAMP_D : Fld := ⟨0x43000044, 0, 16, 0⟩
/-! `FRM_DROOP` (03_forming_core.md) -/
def FRM_DROOP_MQ : Fld := ⟨0x43000048, 16, 16, 0x1F4⟩
def FRM_DROOP_MP : Fld := ⟨0x43000048, 0, 16, 0x1F4⟩
/-! `FRM_FILT` (03_forming_core.md) -/
def FRM_FILT_TQF : Fld := ⟨0x4300004C, 16, 16, 0x32⟩
def FRM_FILT_TPF : Fld := ⟨0x4300004C, 0, 16, 0xA⟩
/-! `FRM_FLIM` (03_forming_core.md) -/
def FRM_FLIM_FMAX : Fld := ⟨0x43000050, 16, 16, 0x2AF8⟩
def FRM_FLIM_FMIN : Fld := ⟨0x43000050, 0, 16, 0x2328⟩
/-! `FRM_ELIM` (03_forming_core.md) -/
def FRM_ELIM_EMAX : Fld := ⟨0x43000054, 16, 16, 0x4B0⟩
def FRM_ELIM_EMIN : Fld := ⟨0x43000054, 0, 16, 0⟩
/-! `FRM_VCTL` (03_forming_core.md) -/
def FRM_VCTL_KIV : Fld := ⟨0x43000058, 16, 16, 0⟩
def FRM_VCTL_KPV : Fld := ⟨0x43000058, 0, 16, 0⟩
/-! `FRM_XLIM` (03_forming_core.md) -/
def FRM_XLIM_XLIM : Fld := ⟨0x4300005C, 0, 16, 0x64⟩
/-! `FRM_ZV` (03_forming_core.md) -/
def FRM_ZV_XV : Fld := ⟨0x43000060, 16, 16, 0xCCD⟩
def FRM_ZV_RV : Fld := ⟨0x43000060, 0, 16, 0⟩
/-! `FRM_IHOLD` (03_forming_core.md) -/
def FRM_IHOLD_IHOLD : Fld := ⟨0x43000064, 0, 8, 4⟩
/-! `FRM_ILIM` (03_forming_core.md) -/
def FRM_ILIM_ILIM2 : Fld := ⟨0x43000080, 16, 16, 0x5DC⟩
def FRM_ILIM_ILIM1 : Fld := ⟨0x43000080, 0, 16, 0x44C⟩
/-! `FRM_ZLIM` (03_forming_core.md) -/
def FRM_ZLIM_KZMAX : Fld := ⟨0x43000084, 0, 8, 0x28⟩
/-! `FRM_RTCFG` (03_forming_core.md) -/
def FRM_RTCFG_TEXIT : Fld := ⟨0x43000088, 16, 16, 0x64⟩
def FRM_RTCFG_NSEQ : Fld := ⟨0x43000088, 0, 2, 0⟩
/-! `FRM_RTV` (03_forming_core.md) -/
def FRM_RTV_VEXIT : Fld := ⟨0x4300008C, 16, 16, 0x384⟩
def FRM_RTV_VENTER : Fld := ⟨0x4300008C, 0, 16, 0x352⟩
/-! `FRM_RTH` (03_forming_core.md) -/
def FRM_RTH_HEXIT : Fld := ⟨0x43000090, 16, 16, 0x442⟩
def FRM_RTH_HENTER : Fld := ⟨0x43000090, 0, 16, 0x47E⟩
/-! `FRM_BSRAMP` (03_forming_core.md) -/
def FRM_BSRAMP_RAMP : Fld := ⟨0x43000094, 0, 16, 0x32⟩
/-! `FRM_DEAD` (03_forming_core.md) -/
def FRM_DEAD_DEADT : Fld := ⟨0x43000098, 16, 16, 0xC8⟩
def FRM_DEAD_DEADV : Fld := ⟨0x43000098, 0, 16, 0x32⟩
/-! `FRM_CLAIM` (03_forming_core.md) -/
def FRM_CLAIM_NSLOT : Fld := ⟨0x4300009C, 16, 8, 0x10⟩
def FRM_CLAIM_SLOTLEN : Fld := ⟨0x4300009C, 0, 16, 0xC8⟩
/-! `FRM_UNIT` (03_forming_core.md) -/
def FRM_UNIT_UNITID : Fld := ⟨0x430000A0, 0, 32, 0⟩
/-! `FRM_RSY` (03_forming_core.md) -/
def FRM_RSY_DMAG : Fld := ⟨0x430000A4, 16, 16, 0x1F4⟩
def FRM_RSY_DANG : Fld := ⟨0x430000A4, 0, 16, 0x1F4⟩
/-! `FRM_RSYF` (03_forming_core.md) -/
def FRM_RSYF_DFREQ : Fld := ⟨0x430000A8, 0, 16, 0x64⟩
/-! `FRM_SEQCTRL` (04_ride_through_and_black_start.md) -/
def FRM_SEQCTRL_BRKPOL : Fld := ⟨0x430000AC, 23, 1, 0⟩
def FRM_SEQCTRL_BRKEN : Fld := ⟨0x430000AC, 22, 1, 0⟩
def FRM_SEQCTRL_BRKGPIO : Fld := ⟨0x430000AC, 18, 4, 0⟩
def FRM_SEQCTRL_RSYACP : Fld := ⟨0x430000AC, 16, 2, 0⟩
def FRM_SEQCTRL_NOCLAIM : Fld := ⟨0x430000AC, 1, 1, 0⟩
def FRM_SEQCTRL_BSARM : Fld := ⟨0x430000AC, 0, 1, 0⟩
/-! `FRM_GSEL` (04_ride_through_and_black_start.md) -/
def FRM_GSEL_CHC : Fld := ⟨0x430000B0, 16, 6, 8⟩
def FRM_GSEL_CHB : Fld := ⟨0x430000B0, 8, 6, 7⟩
def FRM_GSEL_CHA : Fld := ⟨0x430000B0, 0, 6, 6⟩
/-! `FRM_GCAL` (04_ride_through_and_black_start.md) -/
def FRM_GCAL_GOFS : Fld := ⟨0x430000B4, 16, 16, 0⟩
def FRM_GCAL_GSCL : Fld := ⟨0x430000B4, 0, 16, 0x1000⟩
/-! `FRM_THETA` (03_forming_core.md) -/
def FRM_THETA_THETA : Fld := ⟨0x43000100, 0, 32, 0⟩
/-! `FRM_OMEGA` (03_forming_core.md) -/
def FRM_OMEGA_OMEGA : Fld := ⟨0x43000104, 0, 32, 0⟩
/-! `FRM_PM` (03_forming_core.md) -/
def FRM_PM_PM : Fld := ⟨0x43000108, 0, 32, 0⟩
/-! `FRM_PE` (03_forming_core.md) -/
def FRM_PE_PE : Fld := ⟨0x4300010C, 0, 32, 0⟩
/-! `FRM_QE` (03_forming_core.md) -/
def FRM_QE_QE : Fld := ⟨0x43000110, 0, 32, 0⟩
/-! `FRM_EMAG` (03_forming_core.md) -/
def FRM_EMAG_EMAG : Fld := ⟨0x43000114, 0, 32, 0⟩
/-! `FRM_VM` (03_forming_core.md) -/
def FRM_VM_VM : Fld := ⟨0x43000118, 0, 32, 0⟩
/-! `FRM_ZINV` (03_forming_core.md) -/
def FRM_ZINV_ZINV : Fld := ⟨0x4300011C, 0, 16, 0x7FFF⟩
/-! `FRM_ATIME` (03_forming_core.md) -/
def FRM_ATIME_ATIME : Fld := ⟨0x43000120, 0, 32, 0⟩
/-! `FRM_SEQSTAT` (04_ride_through_and_black_start.md) -/
def FRM_SEQSTAT_SUB : Fld := ⟨0x43000140, 28, 4, 0⟩
def FRM_SEQSTAT_ATTEMPT : Fld := ⟨0x43000140, 24, 4, 0⟩
def FRM_SEQSTAT_SLOT : Fld := ⟨0x43000140, 16, 8, 0⟩
def FRM_SEQSTAT_RTCAUSE : Fld := ⟨0x43000140, 8, 3, 0⟩
def FRM_SEQSTAT_CLAIMFAIL : Fld := ⟨0x43000140, 6, 1, 0⟩
def FRM_SEQSTAT_COLLISION : Fld := ⟨0x43000140, 5, 1, 0⟩
def FRM_SEQSTAT_CLOSEFAIL : Fld := ⟨0x43000140, 4, 1, 0⟩
def FRM_SEQSTAT_ISLANDED : Fld := ⟨0x43000140, 3, 1, 0⟩
def FRM_SEQSTAT_STAGE2 : Fld := ⟨0x43000140, 2, 1, 0⟩
def FRM_SEQSTAT_STAGE1 : Fld := ⟨0x43000140, 1, 1, 0⟩
def FRM_SEQSTAT_GRIDOK : Fld := ⟨0x43000140, 0, 1, 0⟩
/-! `FRM_SEQV` (04_ride_through_and_black_start.md) -/
def FRM_SEQV_V2 : Fld := ⟨0x43000144, 16, 16, 0⟩
def FRM_SEQV_V1 : Fld := ⟨0x43000144, 0, 16, 0⟩
/-! `FRM_VG` (04_ride_through_and_black_start.md) -/
def FRM_VG_VG : Fld := ⟨0x43000148, 0, 16, 0⟩
/-! `FRM_DELTA` (04_ride_through_and_black_start.md) -/
def FRM_DELTA_DELTA : Fld := ⟨0x4300014C, 0, 32, 0⟩
/-! `FRM_SLIP` (04_ride_through_and_black_start.md) -/
def FRM_SLIP_SLIP : Fld := ⟨0x43000150, 0, 32, 0⟩
/-! `FRM_SEQTIME` (04_ride_through_and_black_start.md) -/
def FRM_SEQTIME_TIME : Fld := ⟨0x43000154, 0, 32, 0⟩
/-! `PRF_CTRL` (03_forming_core.md) -/
def PRF_CTRL_EN : Fld := ⟨0x43010000, 0, 1, 0⟩
/-! `PRF_STAT` (03_forming_core.md) -/
def PRF_STAT_REMAIN : Fld := ⟨0x43010004, 16, 16, 0⟩
def PRF_STAT_AT : Fld := ⟨0x43010004, 8, 8, 0xFF⟩
def PRF_STAT_STATE : Fld := ⟨0x43010004, 0, 4, 0⟩
/-! `PRF_TGTn` (03_forming_core.md) -/
def PRF_TGT_TGT (i : Nat) : Fld := ⟨0x43010100 + 0x20 * i, 0, 32, (if i = 2 ∨ i = 3 then 0x40000000 else 0)⟩
/-! `PRF_RMAXn` (03_forming_core.md) -/
def PRF_RMAX_RMAX (i : Nat) : Fld := ⟨0x43010104 + 0x20 * i, 0, 32, 0⟩
/-! `PRF_AMAXn` (03_forming_core.md) -/
def PRF_AMAX_AMAX (i : Nat) : Fld := ⟨0x43010108 + 0x20 * i, 0, 32, 0⟩
/-! `PRF_JMAXn` (03_forming_core.md) -/
def PRF_JMAX_JMAX (i : Nat) : Fld := ⟨0x4301010C + 0x20 * i, 0, 32, 0⟩
/-! `PRF_CFGn` (03_forming_core.md) -/
def PRF_CFG_LOAD (i : Nat) : Fld := ⟨0x43010110 + 0x20 * i, 0, 1, 0⟩
/-! `PRF_OUTn` (03_forming_core.md) -/
def PRF_OUT_OUT (i : Nat) : Fld := ⟨0x43010114 + 0x20 * i, 0, 32, (if i = 2 ∨ i = 3 then 0x40000000 else 0)⟩
/-! `PRF_RATEn` (03_forming_core.md) -/
def PRF_RATE_RATE (i : Nat) : Fld := ⟨0x43010118 + 0x20 * i, 0, 32, 0⟩
/-! `PRF_ACCn` (03_forming_core.md) -/
def PRF_ACC_ACC (i : Nat) : Fld := ⟨0x4301011C + 0x20 * i, 0, 32, 0⟩
/-! `ARM_CTRL` (05_armature_fabric.md) -/
def ARM_CTRL_RUN1 : Fld := ⟨0x43020000, 3, 1, 0⟩
def ARM_CTRL_ACLR : Fld := ⟨0x43020000, 2, 1, 1⟩
def ARM_CTRL_PCOMMIT : Fld := ⟨0x43020000, 1, 1, 0⟩
def ARM_CTRL_EN : Fld := ⟨0x43020000, 0, 1, 0⟩
/-! `ARM_STAT` (05_armature_fabric.md) -/
def ARM_STAT_REMAIN : Fld := ⟨0x43020004, 16, 16, 0⟩
def ARM_STAT_AVALID : Fld := ⟨0x43020004, 15, 1, 0⟩
def ARM_STAT_PCPEND : Fld := ⟨0x43020004, 14, 1, 0⟩
def ARM_STAT_RUN : Fld := ⟨0x43020004, 13, 1, 0⟩
def ARM_STAT_STATE : Fld := ⟨0x43020004, 0, 4, 0⟩
/-! `ARM_ALRM` (05_armature_fabric.md) -/
def ARM_ALRM_OVRTRIP : Fld := ⟨0x43020008, 7, 1, 0⟩
def ARM_ALRM_PORTRESID : Fld := ⟨0x43020008, 6, 1, 0⟩
def ARM_ALRM_DOMAIN : Fld := ⟨0x43020008, 5, 1, 0⟩
def ARM_ALRM_ASAT : Fld := ⟨0x43020008, 4, 1, 0⟩
def ARM_ALRM_ILLOP : Fld := ⟨0x43020008, 3, 1, 0⟩
def ARM_ALRM_ECCERR : Fld := ⟨0x43020008, 2, 1, 0⟩
def ARM_ALRM_RESERR : Fld := ⟨0x43020008, 1, 1, 0⟩
def ARM_ALRM_OVERRUN : Fld := ⟨0x43020008, 0, 1, 0⟩
/-! `ARM_OVR` (05_armature_fabric.md) -/
def ARM_OVR_OVRTOT : Fld := ⟨0x4302000C, 16, 16, 0⟩
def ARM_OVR_OVRCNT : Fld := ⟨0x4302000C, 8, 8, 0⟩
def ARM_OVR_OVRLIM : Fld := ⟨0x4302000C, 0, 8, 8⟩
/-! `ARM_SLACK` (05_armature_fabric.md) -/
def ARM_SLACK_LASTEND : Fld := ⟨0x43020010, 16, 16, 0⟩
def ARM_SLACK_MINSLACK : Fld := ⟨0x43020010, 0, 16, 0x320⟩
/-! `ARM_FAULT` (05_armature_fabric.md) -/
def ARM_FAULT_ADDR : Fld := ⟨0x43020014, 24, 8, 0⟩
def ARM_FAULT_KIND : Fld := ⟨0x43020014, 16, 4, 0⟩
def ARM_FAULT_TILE : Fld := ⟨0x43020014, 0, 7, 0⟩
/-! `ARM_FAULTTIME` (05_armature_fabric.md) -/
def ARM_FAULTTIME_TIME : Fld := ⟨0x43020018, 0, 32, 0⟩
/-! `ARM_ATIME` (05_armature_fabric.md) -/
def ARM_ATIME_ATIME : Fld := ⟨0x4302001C, 0, 32, 0⟩
/-! `ARM_ECCCNT` (05_armature_fabric.md) -/
def ARM_ECCCNT_COUNT : Fld := ⟨0x43020020, 0, 16, 0⟩
/-! `ARM_OVRTILEj` (05_armature_fabric.md) -/
def ARM_OVRTILE_OVR (i : Nat) : Fld := ⟨0x43020040 + 0x4 * i, 0, 32, 0⟩
/-! `ARM_ASATj` (05_armature_fabric.md) -/
def ARM_ASAT_ASAT (i : Nat) : Fld := ⟨0x43020050 + 0x4 * i, 0, 32, 0⟩
/-! `ARM_TILEUSEj` (05_armature_fabric.md) -/
def ARM_TILEUSE_USE (i : Nat) : Fld := ⟨0x43020060 + 0x4 * i, 0, 32, 0⟩
/-! `ARM_RBANKw` (05_armature_fabric.md) -/
def ARM_RBANK_RES (i : Nat) : Fld := ⟨0x43020100 + 0x4 * i, 16, 4, 0⟩
def ARM_RBANK_DATA (i : Nat) : Fld := ⟨0x43020100 + 0x4 * i, 0, 16, 0⟩
/-! `MOD_CTRL` (06_modulation_and_balancing.md) -/
def MOD_CTRL_EN : Fld := ⟨0x44000000, 0, 1, 0⟩
/-! `MOD_STAT` (06_modulation_and_balancing.md) -/
def MOD_STAT_REMAIN : Fld := ⟨0x44000004, 16, 16, 0⟩
def MOD_STAT_ACTIVE : Fld := ⟨0x44000004, 15, 1, 0⟩
def MOD_STAT_STATE : Fld := ⟨0x44000004, 0, 4, 0⟩
/-! `MOD_ALRM` (06_modulation_and_balancing.md) -/
def MOD_ALRM_CFGERR : Fld := ⟨0x44000008, 8, 1, 0⟩
def MOD_ALRM_REDTRIP : Fld := ⟨0x44000008, 7, 1, 0⟩
def MOD_ALRM_REDLOW : Fld := ⟨0x44000008, 6, 1, 0⟩
def MOD_ALRM_REDWARN : Fld := ⟨0x44000008, 5, 1, 0⟩
def MOD_ALRM_LEVSAT : Fld := ⟨0x44000008, 4, 1, 0⟩
def MOD_ALRM_SMNEW : Fld := ⟨0x44000008, 3, 1, 0⟩
def MOD_ALRM_TELSTALE : Fld := ⟨0x44000008, 2, 1, 0⟩
def MOD_ALRM_INVREF : Fld := ⟨0x44000008, 1, 1, 0⟩
def MOD_ALRM_RESERR : Fld := ⟨0x44000008, 0, 1, 0⟩
/-! `MOD_ALRMARM` (06_modulation_and_balancing.md) -/
def MOD_ALRMARM_LEVSAT : Fld := ⟨0x4400000C, 16, 12, 0⟩
def MOD_ALRMARM_REDLOW : Fld := ⟨0x4400000C, 0, 12, 0⟩
/-! `MOD_ATIME` (06_modulation_and_balancing.md) -/
def MOD_ATIME_ATIME : Fld := ⟨0x44000010, 0, 32, 0⟩
/-! `MOD_ARMCFGa` (06_modulation_and_balancing.md) -/
def MOD_ARMCFG_ICH (i : Nat) : Fld := ⟨0x44000100 + 0x20 * i, 24, 6, 0⟩
def MOD_ARMCFG_REDACT (i : Nat) : Fld := ⟨0x44000100 + 0x20 * i, 19, 1, 0⟩
def MOD_ARMCFG_BYPAUTO (i : Nat) : Fld := ⟨0x44000100 + 0x20 * i, 18, 1, 0⟩
def MOD_ARMCFG_ISRC (i : Nat) : Fld := ⟨0x44000100 + 0x20 * i, 17, 1, 1⟩
def MOD_ARMCFG_RFS (i : Nat) : Fld := ⟨0x44000100 + 0x20 * i, 16, 1, 0⟩
def MOD_ARMCFG_NORM (i : Nat) : Fld := ⟨0x44000100 + 0x20 * i, 15, 1, 0⟩
def MOD_ARMCFG_MODE (i : Nat) : Fld := ⟨0x44000100 + 0x20 * i, 0, 2, 1⟩
/-! `MOD_ARMVSMa` (06_modulation_and_balancing.md) -/
def MOD_ARMVSM_IDEAD (i : Nat) : Fld := ⟨0x44000104 + 0x20 * i, 16, 16, 0x100⟩
def MOD_ARMVSM_VSMN (i : Nat) : Fld := ⟨0x44000104 + 0x20 * i, 0, 16, 0⟩
/-! `MOD_ARMREDa` (06_modulation_and_balancing.md) -/
def MOD_ARMRED_NWARN (i : Nat) : Fld := ⟨0x44000108 + 0x20 * i, 16, 12, 0⟩
def MOD_ARMRED_NREQ (i : Nat) : Fld := ⟨0x44000108 + 0x20 * i, 0, 12, 0⟩
/-! `MOD_ARMPWMa` (06_modulation_and_balancing.md) -/
def MOD_ARMPWM_MINP (i : Nat) : Fld := ⟨0x4400010C + 0x20 * i, 16, 16, 0⟩
def MOD_ARMPWM_CPER (i : Nat) : Fld := ⟨0x4400010C + 0x20 * i, 0, 13, 0x28⟩
/-! `MOD_ARMSTATa` (06_modulation_and_balancing.md) -/
def MOD_ARMSTAT_NAVAIL (i : Nat) : Fld := ⟨0x44000110 + 0x20 * i, 20, 12, 0⟩
def MOD_ARMSTAT_NINS (i : Nat) : Fld := ⟨0x44000110 + 0x20 * i, 8, 12, 0⟩
def MOD_ARMSTAT_SWAPS (i : Nat) : Fld := ⟨0x44000110 + 0x20 * i, 0, 8, 0⟩
/-! `MOD_ARMLEVa` (06_modulation_and_balancing.md) -/
def MOD_ARMLEV_NLEV (i : Nat) : Fld := ⟨0x44000114 + 0x20 * i, 16, 16, 0⟩
def MOD_ARMLEV_FRAC (i : Nat) : Fld := ⟨0x44000114 + 0x20 * i, 0, 16, 0⟩
/-! `MOD_ARMAGGa` (06_modulation_and_balancing.md) -/
def MOD_ARMAGG_MEAN (i : Nat) : Fld := ⟨0x44000118 + 0x20 * i, 16, 16, 0⟩
def MOD_ARMAGG_SPREAD (i : Nat) : Fld := ⟨0x44000118 + 0x20 * i, 0, 16, 0⟩
/-! `MOD_ARMDERa` (06_modulation_and_balancing.md) -/
def MOD_ARMDER_DERATE (i : Nat) : Fld := ⟨0x4400011C + 0x20 * i, 16, 16, 0x7FFF⟩
def MOD_ARMDER_TRANS (i : Nat) : Fld := ⟨0x4400011C + 0x20 * i, 0, 16, 0⟩
/-! `MOD_SMs` (06_modulation_and_balancing.md) -/
def MOD_SM_PRESENT (i : Nat) : Fld := ⟨0x44008000 + 0x4 * i, 31, 1, 0⟩
def MOD_SM_ARM (i : Nat) : Fld := ⟨0x44008000 + 0x4 * i, 27, 4, 0⟩
def MOD_SM_TYPE (i : Nat) : Fld := ⟨0x44008000 + 0x4 * i, 25, 2, 0⟩
def MOD_SM_FORCEOUT (i : Nat) : Fld := ⟨0x44008000 + 0x4 * i, 24, 1, 0⟩
def MOD_SM_BYPCMD (i : Nat) : Fld := ⟨0x44008000 + 0x4 * i, 23, 1, 0⟩
def MOD_SM_BYPASSED (i : Nat) : Fld := ⟨0x44008000 + 0x4 * i, 22, 1, 0⟩
def MOD_SM_FAULTY (i : Nat) : Fld := ⟨0x44008000 + 0x4 * i, 21, 1, 0⟩
def MOD_SM_STALE (i : Nat) : Fld := ⟨0x44008000 + 0x4 * i, 20, 1, 0⟩
def MOD_SM_AVAIL (i : Nat) : Fld := ⟨0x44008000 + 0x4 * i, 19, 1, 0⟩
def MOD_SM_LAST (i : Nat) : Fld := ⟨0x44008000 + 0x4 * i, 17, 2, 0⟩
def MOD_SM_AGE (i : Nat) : Fld := ⟨0x44008000 + 0x4 * i, 0, 16, 0⟩
/-! `RSP_CTRL` (06_modulation_and_balancing.md) -/
def RSP_CTRL_EN : Fld := ⟨0x44010000, 0, 1, 0⟩
/-! `RSP_STAT` (06_modulation_and_balancing.md) -/
def RSP_STAT_REMAIN : Fld := ⟨0x44010004, 16, 16, 0⟩
def RSP_STAT_STATE : Fld := ⟨0x44010004, 0, 4, 0⟩
/-! `RSP_ALRM` (06_modulation_and_balancing.md) -/
def RSP_ALRM_KEYSAT : Fld := ⟨0x44010008, 1, 1, 0⟩
def RSP_ALRM_RESERR : Fld := ⟨0x44010008, 0, 1, 0⟩
/-! `RSP_TIME` (06_modulation_and_balancing.md) -/
def RSP_TIME_DONE : Fld := ⟨0x4401000C, 0, 12, 0⟩
/-! `RSP_WTa` (06_modulation_and_balancing.md) -/
def RSP_WT_WE (i : Nat) : Fld := ⟨0x44010100 + 0x10 * i, 16, 16, 0x1000⟩
def RSP_WT_WT (i : Nat) : Fld := ⟨0x44010100 + 0x10 * i, 0, 16, 0⟩
/-! `RSP_WSa` (06_modulation_and_balancing.md) -/
def RSP_WS_WS (i : Nat) : Fld := ⟨0x44010104 + 0x10 * i, 16, 16, 0⟩
def RSP_WS_TREF (i : Nat) : Fld := ⟨0x44010104 + 0x10 * i, 0, 16, 0x1E00⟩
/-! `RSP_BANDa` (06_modulation_and_balancing.md) -/
def RSP_BAND_BAND (i : Nat) : Fld := ⟨0x44010108 + 0x10 * i, 16, 15, 0⟩
def RSP_BAND_SWMAX (i : Nat) : Fld := ⟨0x44010108 + 0x10 * i, 8, 8, 0xFF⟩
def RSP_BAND_DECAY (i : Nat) : Fld := ⟨0x44010108 + 0x10 * i, 4, 4, 8⟩
def RSP_BAND_DWELL (i : Nat) : Fld := ⟨0x44010108 + 0x10 * i, 0, 4, 0⟩
/-! `RSP_AUXa` (06_modulation_and_balancing.md) -/
def RSP_AUX_KB (i : Nat) : Fld := ⟨0x4401010C + 0x10 * i, 16, 16, 0⟩
def RSP_AUX_TELHOLD (i : Nat) : Fld := ⟨0x4401010C + 0x10 * i, 8, 8, 4⟩
def RSP_AUX_TPT (i : Nat) : Fld := ⟨0x4401010C + 0x10 * i, 0, 5, 0⟩
/-! `RSP_KEYs` (06_modulation_and_balancing.md) -/
def RSP_KEY_ACT (i : Nat) : Fld := ⟨0x44018000 + 0x4 * i, 16, 16, 0⟩
def RSP_KEY_KEY (i : Nat) : Fld := ⟨0x44018000 + 0x4 * i, 0, 16, 0x7FFF⟩
/-! `LNKn_CTRL` (07_frieze_link.md) -/
def LNK_CTRL_RESTART (i : Nat) : Fld := ⟨lnkBase i, 8, 1, 0⟩
def LNK_CTRL_AUTOADM (i : Nat) : Fld := ⟨lnkBase i, 3, 1, 1⟩
def LNK_CTRL_RETRY (i : Nat) : Fld := ⟨lnkBase i, 2, 1, 1⟩
def LNK_CTRL_PINVTX (i : Nat) : Fld := ⟨lnkBase i, 1, 1, 0⟩
def LNK_CTRL_EN (i : Nat) : Fld := ⟨lnkBase i, 0, 1, 0⟩
/-! `LNKn_STAT` (07_frieze_link.md) -/
def LNK_STAT_REMAIN (i : Nat) : Fld := ⟨lnkBase i + 0x4, 16, 16, 0⟩
def LNK_STAT_LSTATE (i : Nat) : Fld := ⟨lnkBase i + 0x4, 8, 4, 0⟩
def LNK_STAT_RXPINV (i : Nat) : Fld := ⟨lnkBase i + 0x4, 7, 1, 0⟩
def LNK_STAT_FOLDED (i : Nat) : Fld := ⟨lnkBase i + 0x4, 6, 1, 0⟩
def LNK_STAT_TOPOTX (i : Nat) : Fld := ⟨lnkBase i + 0x4, 5, 1, 0⟩
def LNK_STAT_STATE (i : Nat) : Fld := ⟨lnkBase i + 0x4, 0, 4, 0⟩
/-! `LNKn_ALRM` (07_frieze_link.md) -/
def LNK_ALRM_LONG (i : Nat) : Fld := ⟨lnkBase i + 0x8, 12, 1, 0⟩
def LNK_ALRM_PQFULL (i : Nat) : Fld := ⟨lnkBase i + 0x8, 11, 1, 0⟩
def LNK_ALRM_PTIMEOUT (i : Nat) : Fld := ⟨lnkBase i + 0x8, 10, 1, 0⟩
def LNK_ALRM_PTERR (i : Nat) : Fld := ⟨lnkBase i + 0x8, 9, 1, 0⟩
def LNK_ALRM_IDERR (i : Nat) : Fld := ⟨lnkBase i + 0x8, 8, 1, 0⟩
def LNK_ALRM_SWAP (i : Nat) : Fld := ⟨lnkBase i + 0x8, 7, 1, 0⟩
def LNK_ALRM_BREAK (i : Nat) : Fld := ⟨lnkBase i + 0x8, 6, 1, 0⟩
def LNK_ALRM_COUNT (i : Nat) : Fld := ⟨lnkBase i + 0x8, 5, 1, 0⟩
def LNK_ALRM_RTDRIFT (i : Nat) : Fld := ⟨lnkBase i + 0x8, 4, 1, 0⟩
def LNK_ALRM_CRCERR (i : Nat) : Fld := ⟨lnkBase i + 0x8, 3, 1, 0⟩
def LNK_ALRM_LATEAPPLY (i : Nat) : Fld := ⟨lnkBase i + 0x8, 2, 1, 0⟩
def LNK_ALRM_LOS (i : Nat) : Fld := ⟨lnkBase i + 0x8, 1, 1, 0⟩
def LNK_ALRM_RESERR (i : Nat) : Fld := ⟨lnkBase i + 0x8, 0, 1, 0⟩
/-! `LNKn_CFG` (07_frieze_link.md) -/
def LNK_CFG_HOLD (i : Nat) : Fld := ⟨lnkBase i + 0x10, 28, 4, 0⟩
def LNK_CFG_TOPO (i : Nat) : Fld := ⟨lnkBase i + 0x10, 26, 2, 0⟩
def LNK_CFG_END (i : Nat) : Fld := ⟨lnkBase i + 0x10, 25, 1, 0⟩
def LNK_CFG_PEER (i : Nat) : Fld := ⟨lnkBase i + 0x10, 20, 5, 0⟩
def LNK_CFG_LAT (i : Nat) : Fld := ⟨lnkBase i + 0x10, 19, 1, 0⟩
def LNK_CFG_FIBMAX (i : Nat) : Fld := ⟨lnkBase i + 0x10, 10, 9, 0⟩
def LNK_CFG_NSLOT (i : Nat) : Fld := ⟨lnkBase i + 0x10, 0, 10, 0⟩
/-! `LNKn_CFG2` (07_frieze_link.md) -/
def LNK_CFG2_CSIG (i : Nat) : Fld := ⟨lnkBase i + 0x14, 16, 16, 0⟩
def LNK_CFG2_CHAINB (i : Nat) : Fld := ⟨lnkBase i + 0x14, 9, 5, 0⟩
def LNK_CFG2_SPLIT (i : Nat) : Fld := ⟨lnkBase i + 0x14, 0, 9, 0⟩
/-! `LNKn_REACH` (07_frieze_link.md) -/
def LNK_REACH_REACH (i : Nat) : Fld := ⟨lnkBase i + 0x18, 16, 10, 0⟩
def LNK_REACH_REF (i : Nat) : Fld := ⟨lnkBase i + 0x18, 0, 10, 0⟩
/-! `LNKn_RT` (07_frieze_link.md) -/
def LNK_RT_RT (i : Nat) : Fld := ⟨lnkBase i + 0x1C, 0, 24, 0⟩
/-! `LNKn_RTLIM` (07_frieze_link.md) -/
def LNK_RTLIM_RTLIM (i : Nat) : Fld := ⟨lnkBase i + 0x20, 0, 24, 0x7D0⟩
/-! `LNKn_LAUNCH` (07_frieze_link.md) -/
def LNK_LAUNCH_TIME (i : Nat) : Fld := ⟨lnkBase i + 0x24, 0, 32, 0⟩
/-! `LNKn_CNT` (07_frieze_link.md) -/
def LNK_CNT_CRCERR (i : Nat) : Fld := ⟨lnkBase i + 0x28, 16, 16, 0⟩
def LNK_CNT_SLOTERR (i : Nat) : Fld := ⟨lnkBase i + 0x28, 0, 16, 0⟩
/-! `LNKn_IDERR` (07_frieze_link.md) -/
def LNK_IDERR_KIND (i : Nat) : Fld := ⟨lnkBase i + 0x2C, 30, 2, 0⟩
def LNK_IDERR_POS (i : Nat) : Fld := ⟨lnkBase i + 0x2C, 0, 9, 0⟩
/-! `LNKn_PSTAT` (07_frieze_link.md) -/
def LNK_PSTAT_PPEND (i : Nat) : Fld := ⟨lnkBase i + 0x30, 16, 16, 0⟩
def LNK_PSTAT_PTOUT (i : Nat) : Fld := ⟨lnkBase i + 0x30, 0, 16, 0⟩
/-! `LNKn_PERR` (07_frieze_link.md) -/
def LNK_PERR_KIND (i : Nat) : Fld := ⟨lnkBase i + 0x34, 30, 2, 0⟩
def LNK_PERR_ADDR (i : Nat) : Fld := ⟨lnkBase i + 0x34, 0, 18, 0⟩
/-! `LNKn_REFRESH` (07_frieze_link.md) -/
def LNK_REFRESH_MASK (i : Nat) : Fld := ⟨lnkBase i + 0x38, 0, 32, 0x1F00⟩
/-! `LNKn_NODEp` (07_frieze_link.md) -/
def LNK_NODE_REACHED (i j : Nat) : Fld := ⟨lnkBase i + 0x1000 + 0x4 * j, 31, 1, 0⟩
def LNK_NODE_IDOK (i j : Nat) : Fld := ⟨lnkBase i + 0x1000 + 0x4 * j, 30, 1, 0⟩
def LNK_NODE_ADMITTED (i j : Nat) : Fld := ⟨lnkBase i + 0x1000 + 0x4 * j, 29, 1, 0⟩
def LNK_NODE_INDEX (i j : Nat) : Fld := ⟨lnkBase i + 0x1000 + 0x4 * j, 16, 13, 0⟩
def LNK_NODE_STATUS (i j : Nat) : Fld := ⟨lnkBase i + 0x1000 + 0x4 * j, 0, 16, 0⟩
/-! `LNKn_IDLOp` (07_frieze_link.md) -/
def LNK_IDLO_IDLO (i j : Nat) : Fld := ⟨lnkBase i + 0x2000 + 0x8 * j, 0, 32, 0⟩
/-! `LNKn_IDHIp` (07_frieze_link.md) -/
def LNK_IDHI_IDHI (i j : Nat) : Fld := ⟨lnkBase i + 0x2004 + 0x8 * j, 0, 32, 0⟩
/-! `LBR_CTRL` (09_local_bridges_and_protection.md) -/
def LBR_CTRL_EN : Fld := ⟨0x47000000, 0, 1, 0⟩
/-! `LBR_STAT` (09_local_bridges_and_protection.md) -/
def LBR_STAT_REMAIN : Fld := ⟨0x47000004, 16, 16, 0⟩
def LBR_STAT_HALTED : Fld := ⟨0x47000004, 15, 1, 0⟩
def LBR_STAT_STATE : Fld := ⟨0x47000004, 0, 4, 0⟩
/-! `LBR_ALRM` (09_local_bridges_and_protection.md) -/
def LBR_ALRM_CFGERR : Fld := ⟨0x47000008, 5, 1, 0⟩
def LBR_ALRM_BANKINV : Fld := ⟨0x47000008, 4, 1, 0⟩
def LBR_ALRM_SHOOT : Fld := ⟨0x47000008, 3, 1, 0⟩
def LBR_ALRM_RTRIP : Fld := ⟨0x47000008, 2, 1, 0⟩
def LBR_ALRM_FTRIP : Fld := ⟨0x47000008, 1, 1, 0⟩
def LBR_ALRM_RESERR : Fld := ⟨0x47000008, 0, 1, 0⟩
/-! `LBR_PCFGp` (09_local_bridges_and_protection.md) -/
def LBR_PCFG_PEN (i : Nat) : Fld := ⟨0x47000100 + 0x20 * i, 31, 1, 0⟩
def LBR_PCFG_SUPPLY (i : Nat) : Fld := ⟨0x47000100 + 0x20 * i, 29, 2, 0⟩
def LBR_PCFG_MODE (i : Nat) : Fld := ⟨0x47000100 + 0x20 * i, 27, 2, 0⟩
def LBR_PCFG_ALIGN (i : Nat) : Fld := ⟨0x47000100 + 0x20 * i, 26, 1, 0⟩
def LBR_PCFG_SYNC (i : Nat) : Fld := ⟨0x47000100 + 0x20 * i, 25, 1, 0⟩
def LBR_PCFG_SRC (i : Nat) : Fld := ⟨0x47000100 + 0x20 * i, 24, 1, 0⟩
def LBR_PCFG_BANKW (i : Nat) : Fld := ⟨0x47000100 + 0x20 * i, 21, 3, 0⟩
def LBR_PCFG_OVSEL (i : Nat) : Fld := ⟨0x47000100 + 0x20 * i, 20, 1, 0⟩
def LBR_PCFG_POLH (i : Nat) : Fld := ⟨0x47000100 + 0x20 * i, 19, 1, 0⟩
def LBR_PCFG_POLL (i : Nat) : Fld := ⟨0x47000100 + 0x20 * i, 18, 1, 0⟩
def LBR_PCFG_POLS (i : Nat) : Fld := ⟨0x47000100 + 0x20 * i, 17, 1, 0⟩
def LBR_PCFG_RFP (i : Nat) : Fld := ⟨0x47000100 + 0x20 * i, 0, 6, 0xF⟩
/-! `LBR_PERp` (09_local_bridges_and_protection.md) -/
def LBR_PER_RFW (i : Nat) : Fld := ⟨0x47000104 + 0x20 * i, 20, 12, 0x190⟩
def LBR_PER_PERIOD (i : Nat) : Fld := ⟨0x47000104 + 0x20 * i, 0, 20, 0x3E80⟩
/-! `LBR_TIMp` (09_local_bridges_and_protection.md) -/
def LBR_TIM_DT (i : Nat) : Fld := ⟨0x47000108 + 0x20 * i, 16, 11, 0x190⟩
def LBR_TIM_MINP (i : Nat) : Fld := ⟨0x47000108 + 0x20 * i, 0, 11, 0xA0⟩
/-! `LBR_DUTYp` (09_local_bridges_and_protection.md) -/
def LBR_DUTY_DUTYL (i : Nat) : Fld := ⟨0x4700010C + 0x20 * i, 16, 16, 0⟩
def LBR_DUTY_DUTYH (i : Nat) : Fld := ⟨0x4700010C + 0x20 * i, 0, 16, 0⟩
/-! `LBR_PSTATp` (09_local_bridges_and_protection.md) -/
def LBR_PSTAT_RFCNT (i : Nat) : Fld := ⟨0x47000110 + 0x20 * i, 18, 6, 0⟩
def LBR_PSTAT_RLIVE (i : Nat) : Fld := ⟨0x47000110 + 0x20 * i, 17, 1, 0⟩
def LBR_PSTAT_FLIVE (i : Nat) : Fld := ⟨0x47000110 + 0x20 * i, 16, 1, 0⟩
def LBR_PSTAT_CFLT (i : Nat) : Fld := ⟨0x47000110 + 0x20 * i, 9, 1, 0⟩
def LBR_PSTAT_FREF (i : Nat) : Fld := ⟨0x47000110 + 0x20 * i, 8, 1, 0⟩
def LBR_PSTAT_BANKINV (i : Nat) : Fld := ⟨0x47000110 + 0x20 * i, 7, 1, 0⟩
def LBR_PSTAT_SHOOT (i : Nat) : Fld := ⟨0x47000110 + 0x20 * i, 6, 1, 0⟩
def LBR_PSTAT_RTRIP (i : Nat) : Fld := ⟨0x47000110 + 0x20 * i, 5, 1, 0⟩
def LBR_PSTAT_FTRIP (i : Nat) : Fld := ⟨0x47000110 + 0x20 * i, 4, 1, 0⟩
def LBR_PSTAT_STAGE (i : Nat) : Fld := ⟨0x47000110 + 0x20 * i, 0, 3, 0⟩
/-! `LBR_CARRYp` (09_local_bridges_and_protection.md) -/
def LBR_CARRY_CARRYL (i : Nat) : Fld := ⟨0x47000114 + 0x20 * i, 16, 16, 0⟩
def LBR_CARRY_CARRYH (i : Nat) : Fld := ⟨0x47000114 + 0x20 * i, 0, 16, 0⟩
/-! `PRT_CTRL` (09_local_bridges_and_protection.md) -/
def PRT_CTRL_PTEST : Fld := ⟨0x47010000, 2, 1, 0⟩
def PRT_CTRL_FICLR : Fld := ⟨0x47010000, 1, 1, 0⟩
def PRT_CTRL_EN : Fld := ⟨0x47010000, 0, 1, 0⟩
/-! `PRT_STAT` (09_local_bridges_and_protection.md) -/
def PRT_STAT_REMAIN : Fld := ⟨0x47010004, 16, 16, 0⟩
def PRT_STAT_STATE : Fld := ⟨0x47010004, 0, 4, 0⟩
/-! `PRT_ALRM` (09_local_bridges_and_protection.md) -/
def PRT_ALRM_CFGERR : Fld := ⟨0x47010008, 9, 1, 0⟩
def PRT_ALRM_CHVINV : Fld := ⟨0x47010008, 8, 1, 0⟩
def PRT_ALRM_OVTRIP : Fld := ⟨0x47010008, 7, 1, 0⟩
def PRT_ALRM_REV : Fld := ⟨0x47010008, 6, 1, 0⟩
def PRT_ALRM_SHORT : Fld := ⟨0x47010008, 5, 1, 0⟩
def PRT_ALRM_OPEN : Fld := ⟨0x47010008, 4, 1, 0⟩
def PRT_ALRM_FLT : Fld := ⟨0x47010008, 3, 1, 0⟩
def PRT_ALRM_HARD : Fld := ⟨0x47010008, 2, 1, 0⟩
def PRT_ALRM_SOFT : Fld := ⟨0x47010008, 1, 1, 0⟩
/-! `PRT_STAG` (09_local_bridges_and_protection.md) -/
def PRT_STAG_STAGGER : Fld := ⟨0x4701000C, 0, 10, 0⟩
/-! `PRT_FICNT` (09_local_bridges_and_protection.md) -/
def PRT_FICNT_OVF : Fld := ⟨0x47010010, 8, 1, 0⟩
def PRT_FICNT_COUNT : Fld := ⟨0x47010010, 0, 4, 0⟩
/-! `PRT_BIAS` (09_local_bridges_and_protection.md) -/
def PRT_BIAS_BIASPER : Fld := ⟨0x47010014, 0, 8, 0xA⟩
/-! `PRT_ROGCFGn` (09_local_bridges_and_protection.md) -/
def PRT_ROGCFG_EN (i : Nat) : Fld := ⟨0x47010100 + 0x10 * i, 31, 1, 0⟩
def PRT_ROGCFG_ACT (i : Nat) : Fld := ⟨0x47010100 + 0x10 * i, 30, 1, 1⟩
def PRT_ROGCFG_CFB (i : Nat) : Fld := ⟨0x47010100 + 0x10 * i, 29, 1, 1⟩
def PRT_ROGCFG_PINV (i : Nat) : Fld := ⟨0x47010100 + 0x10 * i, 28, 1, 0⟩
def PRT_ROGCFG_PAIRS (i : Nat) : Fld := ⟨0x47010100 + 0x10 * i, 0, 12, 0⟩
/-! `PRT_ROGTHRn` (09_local_bridges_and_protection.md) -/
def PRT_ROGTHR_HARD (i : Nat) : Fld := ⟨0x47010104 + 0x10 * i, 16, 16, 0x7D0⟩
def PRT_ROGTHR_SOFT (i : Nat) : Fld := ⟨0x47010104 + 0x10 * i, 0, 16, 0x3E8⟩
/-! `PRT_ROGTIMn` (09_local_bridges_and_protection.md) -/
def PRT_ROGTIM_BLANK (i : Nat) : Fld := ⟨0x47010108 + 0x10 * i, 16, 16, 0x64⟩
def PRT_ROGTIM_SOFTT (i : Nat) : Fld := ⟨0x47010108 + 0x10 * i, 0, 16, 0xC8⟩
/-! `PRT_ROGSTATn` (09_local_bridges_and_protection.md) -/
def PRT_ROGSTAT_SLIVE (i : Nat) : Fld := ⟨0x4701010C + 0x10 * i, 31, 1, 0⟩
def PRT_ROGSTAT_HLIVE (i : Nat) : Fld := ⟨0x4701010C + 0x10 * i, 30, 1, 0⟩
def PRT_ROGSTAT_OPEN (i : Nat) : Fld := ⟨0x4701010C + 0x10 * i, 27, 1, 0⟩
def PRT_ROGSTAT_SHORT (i : Nat) : Fld := ⟨0x4701010C + 0x10 * i, 26, 1, 0⟩
def PRT_ROGSTAT_REV (i : Nat) : Fld := ⟨0x4701010C + 0x10 * i, 25, 1, 0⟩
def PRT_ROGSTAT_PTDONE (i : Nat) : Fld := ⟨0x4701010C + 0x10 * i, 24, 1, 0⟩
def PRT_ROGSTAT_VBIAS (i : Nat) : Fld := ⟨0x4701010C + 0x10 * i, 0, 16, 0⟩
/-! `PRT_FLTCFGn` (09_local_bridges_and_protection.md) -/
def PRT_FLTCFG_EN (i : Nat) : Fld := ⟨0x47010300 + 0x8 * i, 31, 1, 0⟩
def PRT_FLTCFG_POL (i : Nat) : Fld := ⟨0x47010300 + 0x8 * i, 30, 1, 1⟩
def PRT_FLTCFG_ACT (i : Nat) : Fld := ⟨0x47010300 + 0x8 * i, 29, 1, 0⟩
def PRT_FLTCFG_DGL (i : Nat) : Fld := ⟨0x47010300 + 0x8 * i, 16, 8, 8⟩
def PRT_FLTCFG_PAIRS (i : Nat) : Fld := ⟨0x47010300 + 0x8 * i, 0, 12, 0⟩
/-! `PRT_FLTSTATn` (09_local_bridges_and_protection.md) -/
def PRT_FLTSTAT_LIVE (i : Nat) : Fld := ⟨0x47010304 + 0x8 * i, 31, 1, 0⟩
def PRT_FLTSTAT_LATCH (i : Nat) : Fld := ⟨0x47010304 + 0x8 * i, 30, 1, 0⟩
def PRT_FLTSTAT_COUNT (i : Nat) : Fld := ⟨0x47010304 + 0x8 * i, 0, 16, 0⟩
/-! `PRT_OVCFGc` (09_local_bridges_and_protection.md) -/
def PRT_OVCFG_EN (i : Nat) : Fld := ⟨0x47010400 + 0x10 * i, 31, 1, 0⟩
def PRT_OVCFG_ACT (i : Nat) : Fld := ⟨0x47010400 + 0x10 * i, 30, 1, 1⟩
def PRT_OVCFG_FS (i : Nat) : Fld := ⟨0x47010400 + 0x10 * i, 29, 1, 1⟩
def PRT_OVCFG_CH (i : Nat) : Fld := ⟨0x47010400 + 0x10 * i, 0, 5, 0⟩
/-! `PRT_OVTHRc` (09_local_bridges_and_protection.md) -/
def PRT_OVTHR_VON (i : Nat) : Fld := ⟨0x47010404 + 0x10 * i, 16, 16, 0x7000⟩
def PRT_OVTHR_VOFF (i : Nat) : Fld := ⟨0x47010404 + 0x10 * i, 0, 16, 0x6C00⟩
/-! `PRT_OVLVLc` (09_local_bridges_and_protection.md) -/
def PRT_OVLVL_VOV (i : Nat) : Fld := ⟨0x47010408 + 0x10 * i, 0, 16, 0x7800⟩
/-! `PRT_OVSTATc` (09_local_bridges_and_protection.md) -/
def PRT_OVSTAT_ON (i : Nat) : Fld := ⟨0x4701040C + 0x10 * i, 31, 1, 0⟩
def PRT_OVSTAT_VLIVE (i : Nat) : Fld := ⟨0x4701040C + 0x10 * i, 30, 1, 0⟩
def PRT_OVSTAT_OVTRIP (i : Nat) : Fld := ⟨0x4701040C + 0x10 * i, 29, 1, 0⟩
def PRT_OVSTAT_CHVINV (i : Nat) : Fld := ⟨0x4701040C + 0x10 * i, 28, 1, 0⟩
def PRT_OVSTAT_LAST (i : Nat) : Fld := ⟨0x4701040C + 0x10 * i, 0, 16, 0⟩
/-! `PRT_FISRCk` (09_local_bridges_and_protection.md) -/
def PRT_FISRC_KIND (i : Nat) : Fld := ⟨0x47010500 + 0x8 * i, 28, 4, 0⟩
def PRT_FISRC_SRC (i : Nat) : Fld := ⟨0x47010500 + 0x8 * i, 24, 4, 0⟩
def PRT_FISRC_PAIRS (i : Nat) : Fld := ⟨0x47010500 + 0x8 * i, 0, 12, 0⟩
/-! `PRT_FITIMEk` (09_local_bridges_and_protection.md) -/
def PRT_FITIME_TIME (i : Nat) : Fld := ⟨0x47010504 + 0x8 * i, 0, 32, 0⟩
/-! `SAF_CTRL` (10_safety_functions.md) -/
def SAF_CTRL_PTEST : Fld := ⟨0x47020000, 2, 1, 0⟩
def SAF_CTRL_EN : Fld := ⟨0x47020000, 0, 1, 0⟩
/-! `SAF_STAT` (10_safety_functions.md) -/
def SAF_STAT_REMAIN : Fld := ⟨0x47020004, 16, 16, 0⟩
def SAF_STAT_INH : Fld := ⟨0x47020004, 15, 1, 1⟩
def SAF_STAT_NVACT : Fld := ⟨0x47020004, 14, 1, 0⟩
def SAF_STAT_STATE : Fld := ⟨0x47020004, 0, 4, 0⟩
/-! `SAF_ALRM` (10_safety_functions.md) -/
def SAF_ALRM_CFGCRC : Fld := ⟨0x47020008, 9, 1, 0⟩
def SAF_ALRM_INTERR : Fld := ⟨0x47020008, 8, 1, 0⟩
def SAF_ALRM_NETDIFF : Fld := ⟨0x47020008, 7, 1, 0⟩
def SAF_ALRM_NETTMO : Fld := ⟨0x47020008, 6, 1, 0⟩
def SAF_ALRM_RSTREJ : Fld := ⟨0x47020008, 5, 1, 0⟩
def SAF_ALRM_XSHORT : Fld := ⟨0x47020008, 4, 1, 0⟩
def SAF_ALRM_STUCKLO : Fld := ⟨0x47020008, 3, 1, 0⟩
def SAF_ALRM_STUCKHI : Fld := ⟨0x47020008, 2, 1, 0⟩
def SAF_ALRM_DISCERR : Fld := ⟨0x47020008, 1, 1, 0⟩
def SAF_ALRM_DEMAND : Fld := ⟨0x47020008, 0, 1, 0⟩
/-! `SAF_TEST` (10_safety_functions.md) -/
def SAF_TEST_TPER : Fld := ⟨0x4702000C, 16, 16, 0x64⟩
def SAF_TEST_TPW : Fld := ⟨0x4702000C, 0, 9, 0xC8⟩
/-! `SAF_INHCFG` (10_safety_functions.md) -/
def SAF_INHCFG_ALLBLK : Fld := ⟨0x47020010, 17, 1, 1⟩
def SAF_INHCFG_INHOUT : Fld := ⟨0x47020010, 12, 4, 0⟩
def SAF_INHCFG_LBRMASK : Fld := ⟨0x47020010, 0, 12, 0xFFF⟩
/-! `SAF_CFGCRC` (10_safety_functions.md) -/
def SAF_CFGCRC_CRC : Fld := ⟨0x47020014, 0, 32, 0⟩
/-! `SAF_INCFGn` (10_safety_functions.md) -/
def SAF_INCFG_TYPE (i : Nat) : Fld := ⟨0x47020100 + 0x8 * i, 30, 2, 0⟩
def SAF_INCFG_FILT (i : Nat) : Fld := ⟨0x47020100 + 0x8 * i, 25, 5, 0xA⟩
def SAF_INCFG_DISC (i : Nat) : Fld := ⟨0x47020100 + 0x8 * i, 16, 9, 0x32⟩
def SAF_INCFG_FUNC (i : Nat) : Fld := ⟨0x47020100 + 0x8 * i, 8, 4, 0⟩
/-! `SAF_INSTATn` (10_safety_functions.md) -/
def SAF_INSTAT_DEM (i : Nat) : Fld := ⟨0x47020104 + 0x8 * i, 31, 1, 1⟩
def SAF_INSTAT_ALIVE (i : Nat) : Fld := ⟨0x47020104 + 0x8 * i, 30, 1, 0⟩
def SAF_INSTAT_BLIVE (i : Nat) : Fld := ⟨0x47020104 + 0x8 * i, 29, 1, 0⟩
def SAF_INSTAT_DISCL (i : Nat) : Fld := ⟨0x47020104 + 0x8 * i, 28, 1, 0⟩
def SAF_INSTAT_DEMCNT (i : Nat) : Fld := ⟨0x47020104 + 0x8 * i, 0, 16, 0⟩
/-! `SAF_OUTCFGm` (10_safety_functions.md) -/
def SAF_OUTCFG_EN (i : Nat) : Fld := ⟨0x47020200 + 0x8 * i, 31, 1, 0⟩
def SAF_OUTCFG_RST (i : Nat) : Fld := ⟨0x47020200 + 0x8 * i, 30, 1, 1⟩
def SAF_OUTCFG_TPEN (i : Nat) : Fld := ⟨0x47020200 + 0x8 * i, 29, 1, 1⟩
/-! `SAF_OUTSTATm` (10_safety_functions.md) -/
def SAF_OUTSTAT_ON (i : Nat) : Fld := ⟨0x47020204 + 0x8 * i, 31, 1, 0⟩
def SAF_OUTSTAT_RBA (i : Nat) : Fld := ⟨0x47020204 + 0x8 * i, 30, 1, 0⟩
def SAF_OUTSTAT_RBB (i : Nat) : Fld := ⟨0x47020204 + 0x8 * i, 29, 1, 0⟩
def SAF_OUTSTAT_FAULT (i : Nat) : Fld := ⟨0x47020204 + 0x8 * i, 28, 1, 0⟩
def SAF_OUTSTAT_FKIND (i : Nat) : Fld := ⟨0x47020204 + 0x8 * i, 24, 4, 0⟩
def SAF_OUTSTAT_XPART (i : Nat) : Fld := ⟨0x47020204 + 0x8 * i, 21, 3, 0⟩
def SAF_OUTSTAT_TESTCNT (i : Nat) : Fld := ⟨0x47020204 + 0x8 * i, 0, 16, 0⟩
/-! `SAF_NETCFG` (10_safety_functions.md) -/
def SAF_NETCFG_NETID : Fld := ⟨0x47020300, 16, 16, 0⟩
def SAF_NETCFG_CMPWIN : Fld := ⟨0x47020300, 8, 8, 5⟩
def SAF_NETCFG_NETTMO : Fld := ⟨0x47020300, 0, 8, 0xA⟩
/-! `SAF_NETSRC` (10_safety_functions.md) -/
def SAF_NETSRC_SRCID : Fld := ⟨0x47020304, 0, 32, 0⟩
/-! `SAF_NETSTAT` (10_safety_functions.md) -/
def SAF_NETSTAT_NDIFF : Fld := ⟨0x47020308, 16, 16, 0⟩
def SAF_NETSTAT_NACC : Fld := ⟨0x47020308, 0, 16, 0⟩
/-! `SAF_NETSEQ` (10_safety_functions.md) -/
def SAF_NETSEQ_SEQ : Fld := ⟨0x4702030C, 0, 32, 0⟩
/-! `WAK_CTRL` (15_modes_and_start_up.md) -/
def WAK_CTRL_KEY : Fld := ⟨0x4F000000, 16, 16, 0⟩
def WAK_CTRL_HIB : Fld := ⟨0x4F000000, 8, 1, 0⟩
def WAK_CTRL_WPOL : Fld := ⟨0x4F000000, 0, 1, 0⟩
/-! `WAK_STAT` (15_modes_and_start_up.md) -/
def WAK_STAT_HIBCNT : Fld := ⟨0x4F000004, 16, 16, 0⟩
def WAK_STAT_WLIVE : Fld := ⟨0x4F000004, 4, 1, 0⟩
def WAK_STAT_CAUSE : Fld := ⟨0x4F000004, 0, 4, 0⟩

end Reg

end Sys2Proof.Machine
end

