-- ==== Sys2Proof/Machine/Sparse.lean ====
section
/-! DEFINITION. Reading and writing a sparse store: keys strictly rising, and no entry equal to what an unlisted key reads as. -/

namespace Sys2Proof.Machine

/-- The entry of key `k`, if listed. -/
def spFind {α : Type} (m : Sparse α) (k : Nat) : Option α :=
  match m with
  | [] => none
  | (k', v) :: r => if k' = k then some v else spFind r k

/-- The value of key `k`; `d` where it is not listed. -/
def spGet {α : Type} (m : Sparse α) (k : Nat) (d : α) : α := (spFind m k).getD d

/-- The store with key `k` listed as `v`, keys kept rising. -/
def spPut {α : Type} (m : Sparse α) (k : Nat) (v : α) : Sparse α :=
  match m with
  | [] => [(k, v)]
  | (k', v') :: r =>
    if k < k' then (k, v) :: (k', v') :: r
    else if k = k' then (k, v) :: r
    else (k', v') :: spPut r k v

/-- The store without key `k`. -/
def spDel {α : Type} (m : Sparse α) (k : Nat) : Sparse α :=
  match m with
  | [] => []
  | (k', v') :: r => if k' = k then spDel r k else (k', v') :: spDel r k

/-- Write `v` at key `k`, where an unlisted key reads `d`: writing `d` takes the entry out, so that equal stores are equal lists. -/
def spSet {α : Type} [DecidableEq α] (m : Sparse α) (k : Nat) (v d : α) : Sparse α :=
  if v = d then spDel m k else spPut m k v

/-- Keys strictly rising from above `b`. -/
def spSorted {α : Type} (b : Nat) (m : Sparse α) : Bool :=
  match m with
  | [] => true
  | (k, _) :: r => decide (b ≤ k) && spSorted (k + 1) r

end Sys2Proof.Machine
end

