-- ==== Sys2Proof/Machine/State.lean ====
section
/-! DEFINITION. The state of the device as plain data, the ways a step can stop, and the state after reset. -/

namespace Sys2Proof.Machine

/-- The ways a step stops with a fault. -/
inductive Fault where
  /-- Raised by no command: no command of this block stops the device with a fault; what the spec calls an error is an effect on
  the state. Safe: it never happens. -/
  | none
  deriving DecidableEq, Repr

/-- The ways a command is refused. -/
inductive Refusal where
  /-- Raised by the dispatcher for a command with no meaning yet. Safe: nothing can be proved of it. -/
  | notModelled (mnemonic : String)
  deriving DecidableEq, Repr

/-- True time and device time. `ticks` counts nominal 4 ns periods of the TIME clock since power-on; `time` is device time in units
of 2^-32 ns, modulo 2^64 (R3, R344); `inc` is the committed increment in the same unit (R344); `timers` holds the tick at which each
running timer was started, by the timer's number. -/
structure Clk where
  ticks : Nat
  time : Nat
  inc : Nat
  timers : Sparse Nat
  deriving DecidableEq, Repr

/-- Device time 0, 4 ns a tick (the reset values of PTP_TIME, PTP_INC and PTP_INCF), no timer running. -/
def Clk.reset : Clk := { ticks := 0, time := 0, inc := 4 * 2 ^ 32, timers := [] }

/-- The answer to an access of master `master`: the data returned, and whether it was an error response. -/
structure BusAnswer where
  master : Nat
  data : Nat
  error : Bool
  deriving DecidableEq, Repr


/-- What has been sent out of the device (one entry for each thing sent, the newest first). -/
inductive Sent where
  /-- A message-signalled interrupt with this vector (R392). -/
  | msi (vector : Nat)
  /-- An Ethernet frame on a port, from the destination address, without FCS (R342). -/
  | eth (port : Nat) (bytes : List Nat)
  /-- A frame on a link port, after SOF_P, from the header to its CRC-32C (R207). -/
  | link (port : Nat) (bytes : List Nat)
  /-- A frame a node sends on its D or U side, after SOF_R (`ret`) or SOF_P (R212, R213). -/
  | node (j : Nat) (sideD ret : Bool) (bytes : List Nat)
  /-- The swap notice of a node on its D side (R239). -/
  | swap (j : Nat)
  /-- A lease message (R246) on a path (0 and 1 lanes, 2 and 3 ETH6 and ETH7): type (0 RENEW, 1 ACK, 2 RELEASE, 3 HANDOVER), member, epoch,
  highest epoch seen, lease end, sequence number and frame, with the state the sender tells (R244): 1 in SHADOW, plus 2 with IMGDIFF. -/
  | lease (path kind member epoch seen le seq frame state : Nat)
  /-- A heartbeat on ETH6 or ETH7 (R246), with the sender's epoch (R254). -/
  | heartbeat (port epoch : Nat)
  /-- A PMBus write (R456): device address, command, data (PAGE one byte, VOUT_COMMAND two).
  The PEC byte, which follows from them, is left out. -/
  | pmbus (addr cmd data : Nat)
  /-- A mirror record (R261) on the mirror lanes named (one bit each). -/
  | record (lanes : Nat) (r : MirRecord)
  /-- A snapshot in the heartbeat (R267): mode, the eight targets, FRM_SEQCTRL and the 32 words. -/
  | snapshot (mode : Nat) (targets : List Nat) (seqctrl : Nat) (words : List Nat)
  deriving DecidableEq, Repr

/-- What a core checks its own accesses by (R364): whether it is in user mode, and its 16 physical memory protection entries, each with
its configuration byte (R, W, X, the matching mode in bits 4 and 3, the lock in bit 7) and its address register. -/
structure CoreProt where
  user : Bool
  cfg : List Nat
  addr : List Nat
  deriving DecidableEq, Repr

def CoreProt.reset : CoreProt := { user := false, cfg := List.replicate 16 0, addr := List.replicate 16 0 }

/-- The supervisor side (13): the cores' protection; where each core starts or last started; the word each core's reservation covers; the semaphore owners
(an unlisted semaphore is free, 0xF); the round-robin pointer of each region's crossbar by reset code, and 8 higher that of the chip
interconnect for that region (R22, 0 first); the DMA channels'
present source and destination addresses, their held event requests, the channels to stop after their burst, the tick at which each channel's last burst ended, the channel whose burst runs and the channel after the last
served; mtime in TIME ticks (ten to one count); whether the host has enabled MSI, the MSI vectors disarmed, and the vectors seen pending; the
cores that External Debug halts (R370); the masters whose next transaction meets an uncorrectable error in a buffer of the interconnect (R447). -/
structure Sup where
  prot : Sparse CoreProt
  coreStart : Sparse Nat
  resv : Sparse Nat
  sem : Sparse Nat
  rr : Sparse Nat
  dmaSrc : Sparse Nat
  dmaDst : Sparse Nat
  dmaEvt : Sparse Nat
  dmaStop : Sparse Nat
  dmaLast : Sparse Nat
  dmaCur : Option Nat
  dmaNext : Nat
  mtime : Nat
  msiOn : Bool
  msiOff : Sparse Nat
  dbgHalt : Sparse Nat
  busBad : Sparse Nat
  deriving DecidableEq, Repr

def Sup.reset : Sup :=
  { prot := [], coreStart := [], resv := [], sem := [], rr := [], dmaSrc := [], dmaDst := [], dmaEvt := [], dmaStop := [], dmaLast := [], dmaCur := none, dmaNext := 0,
    mtime := 0, msiOn := false, msiOff := [], dbgHalt := [], busBad := [] }


/-- The fuses (R399, R400, R417, R419, R361): security mode (0 OPEN, 1 CLOSED), debug level, the revoked and the programmed key slots
(one bit a slot), the programmed key hashes (word `8 * slot + i`), the anti-rollback counter, the unique identity, and the PCIe
Vendor and Device IDs. Fuses survive every reset. -/
structure Fuses where
  secMode : Nat
  dbgLvl : Nat
  keyRev : Nat
  keyProg : Nat
  keyHash : Sparse Nat
  arb : Nat
  uidLo : Nat
  uidHi : Nat
  vendorId : Nat
  deviceId : Nat
  deriving DecidableEq, Repr

/-- The fuses of a blank part. DESIGN CHOICE (log 4): the spec gives the fuse contents no value. -/
def Fuses.blank : Fuses :=
  { secMode := 0, dbgLvl := 0, keyRev := 0, keyProg := 0, keyHash := [], arb := 0, uidLo := 0, uidHi := 0, vendorId := 0, deviceId := 0 }

/-- The security policy in force (R415 to R418): `ACCESS` words by master, ARMPROG, SECMASK, DBGLVL, TAMP0, TAMP1, PFLAGS. -/
structure Policy where
  access : Sparse Nat
  armProg : Nat
  secMask : Nat
  dbgLvl : Nat
  tamp0 : Nat
  tamp1 : Nat
  pflags : Nat
  deriving DecidableEq, Repr

def Policy.reset : Policy := { access := [], armProg := 0, secMask := 0, dbgLvl := 0, tamp0 := 0, tamp1 := 0, pflags := 0 }

/-- Mode logic and the wake domain (15, 17): a trip waiting for its frame start; a trip recorded in SHADOW for the later claim
(R432); the mode request that waits (its target, and 16 times its master); whether that request waits by R253; the regions whose drain runs and what follows it (by reset
code: 1 power-down, 2 reset, 3 logic test); the regions whose reload is due; whether the wait of R253 has ended in SHADOW at the next frame start, and
whether a request to leave READY was accepted at the last frame start (R431); the pins BOOT0 to BOOT2 as sampled; RST_N held low;
PWR_EN; WAKE's level; the PLLs in lock (core, ser, time, sup); REFCLK lost; a tamper action holding the debug level CLOSED; the
rails in range; HIBERNATE asked for and waiting for the ports; a class D error detected (R248, R249); a LOCKOUT
due, with the kind and region of SUP_LOCK (R436). -/
structure Ctl where
  tripPend : Bool
  shadowTrip : Bool
  req : Option Nat
  reqWait : Bool
  shadowDue : Bool
  leftReady : Bool
  drain : Sparse Nat
  reload : Sparse Nat
  bootPins : Nat
  rstLow : Bool
  pwrEn : Bool
  wakePin : Bool
  pllLock : Nat
  refLost : Bool
  dbgClosed : Bool
  railsOk : Bool
  hibPend : Bool
  classD : Bool
  lock : Option (Nat × Nat)
  deriving DecidableEq, Repr

/-- Right after the release of the CHIP reset: rails up, no PLL in lock yet, BOOT. -/
def Ctl.reset : Ctl :=
  { tripPend := false, shadowTrip := false, req := none, reqWait := false, shadowDue := false, leftReady := false, drain := [], reload := [], bootPins := 0, rstLow := false,
    pwrEn := true, wakePin := false, pllLock := 0, refLost := false, dbgClosed := false, railsOk := true, hibPend := false, classD := false, lock := none }


/-- The acquisition block (02): each sequencer's phase (0 idle, 1 in its delay, 2 running), the entries whose results are not yet
delivered and the tick of its first ADC edge; the result queues; the physical converter at each logical position (unlisted: its own
number); the input of each physical converter's previous entry plus 1, and the tick from which it is free; the logical converter of
each input's last entry plus 1; the converter that samples along for a hand-over, the results compared, the sum of differences, and whether it has been accepted and
takes the position at the start of the next sequence that uses it; whether the round's last slot, without a hand-over, comes next; the tick of
the earliest first sample known of each running sequence; the consecutive calibration failures; whether a full calibration waits for sequences to end; the copy of channel values and times taken at
the compute start (R63); the burn-out test: input under test, next input to try, whether this frame's test is done, and the
consecutive tests that met each condition. -/
structure Acq where
  seqPhase : Sparse Nat
  seqLeft : Sparse (List Nat)
  seqStart : Sparse Nat
  queues : Sparse (List Nat)
  qHead : Sparse Nat
  pos : Sparse Nat
  prevIn : Sparse Nat
  adcFree : Sparse Nat
  lastConv : Sparse Nat
  incoming : Option Nat
  overlap : Nat
  diffSum : Nat
  takeOver : Bool
  rotLast : Bool
  seqFirst : Sparse Nat
  calFails : Sparse Nat
  calPend : Bool
  snap : Sparse Nat
  snapTime : Sparse Nat
  itCur : Option Nat
  itNext : Nat
  itDone : Bool
  openRun : Sparse Nat
  shortRun : Sparse Nat
  deriving DecidableEq, Repr

def Acq.reset : Acq :=
  { seqPhase := [], seqLeft := [], seqStart := [], queues := [], qHead := [], pos := [], prevIn := [], adcFree := [], lastConv := [],
    incoming := none, overlap := 0, diffSum := 0, takeOver := false, rotLast := false, seqFirst := [], calFails := [], calPend := false, snap := [], snapTime := [], itCur := none,
    itNext := 0, itDone := false, openRun := [], shortRun := [] }

/-- The grid angle tracker (02). Sector method: the reference code (0 none), the net step count, the tick of the last counted step, the
ticks of the last counted steps in one direction, the run of consecutive steps, its direction, the run of forward steps, the last
measured frequency (grid, Hz), its validity, the dead state, the armed index. PLL: active, angle (turns on the grid) at device time
`pllTs`, integrator and frequency. Serial word: last accepted angle and stamp tick if any, frequency, whether a frequency is formed, lost,
and the tick of the chip select whose word is being read. Output: angle (turns) at tick `outTick` and frequency. Pointing: pulses in progress
with their width in microseconds, effective targets, the outputs whose ANG_ACPnCFG has been written since the last reset of ACQ (R469; 1
written, 2 driven), the channels asked to arm for the configuration of the next frame start, the tick at which angle or targets were
last replaced, the channels that such a replacement carried across their target at that tick, and the tick of each channel's last pulse start. -/
structure Ang where
  refCode : Nat
  netSteps : Nat
  stepTick : Nat
  steps : List Nat
  run : Nat
  dir : Int
  fwdRun : Nat
  secHz : Int
  secValid : Bool
  dead : Bool
  idxArmed : Bool
  pllOn : Bool
  pllTheta : Int
  pllTs : Nat
  pllInteg : Int
  pllHz : Int
  sawLast : Option (Nat × Nat)
  sawHz : Int
  sawGood : Bool
  sawLost : Bool
  sawCs : Option Nat
  outTheta : Int
  outTick : Nat
  outHz : Int
  acpOn : Sparse Nat
  acpTheta : Sparse Nat
  acpDriven : Sparse Nat
  acpReq : Sparse Nat
  acpAt : Nat
  acpDue : Sparse Nat
  acpLast : Sparse Nat
  resBad : Option (Fin 64)
  deriving DecidableEq, Repr

def Ang.reset : Ang :=
  { refCode := 0, netSteps := 0, stepTick := 0, steps := [], run := 0, dir := 0, fwdRun := 0, secHz := 0, secValid := false, dead := true,
    idxArmed := true, pllOn := false, pllTheta := 0, pllTs := 0, pllInteg := 0, pllHz := 0, sawLast := none, sawHz := 0, sawGood := false,
    sawLost := false, sawCs := none, outTheta := 0, outTick := 0, outHz := 0, acpOn := [], acpTheta := [], acpDriven := [], acpReq := [], acpAt := 0,
    acpDue := [], acpLast := [], resBad := none }


/-- Pins: SPI0 assigned to the tracker (R84, R408); the UART enables; the function byte of each GPIO (R408); the levels on GPIO inputs;
the levels firmware drives on GPIO outputs are the initial levels of the maquette; the instruction in the JTAG TAP (R417); PMB_ALERT low
(R456), and the level of CONDENSE after its deglitch filter (R477). -/
structure Pins where
  spi0 : Nat
  uarts : Nat
  gpioCfg : Sparse Nat
  gpioIn : Nat
  tap : Jtag
  alertLow : Bool
  condense : Bool
  deriving DecidableEq, Repr

def Pins.reset : Pins := { spi0 := 0, uarts := 0, gpioCfg := [], gpioIn := 0, tap := .idcode, alertLow := false, condense := false }


/-- A frame that an Ethernet port is sending: its bytes from the destination address (without FCS), and the fields of its transmit
record (R342); LTIME of one launched on time (R356). -/
structure TxFrame where
  bytes : List Nat
  flags : Nat
  tsid : Nat
  tref : Nat
  cfofs : Nat
  launched : Option Nat
  deriving DecidableEq, Repr

/-- An entry of the transmit stamp queue (R351). -/
structure TxStamp where
  tsid : Nat
  port : Nat
  stamp : Nat
  deriving DecidableEq, Repr

/-- Network ports and time (12): the LTIME of each port's held launch record; the frame each port is sending; the transmit stamp queue,
oldest first; PPS_OUT; the latest second boundary; the sample counts each stream has accepted in its
present second, newest first; the receive counts of the ports; whether the PCIe function is in D3hot, and its uncorrectable error status
(R361). -/
structure Net where
  launch : Sparse Nat
  txCur : Sparse TxFrame
  txq : List TxStamp
  ppsOut : Bool
  secLast : Option Nat
  svSeen : Sparse (List (Nat × Nat))
  rseq : Sparse Nat
  d3 : Bool
  aer : Nat
  deriving DecidableEq, Repr

def Net.reset : Net := { launch := [], txCur := [], txq := [], ppsOut := false, secLast := none, svSeen := [], rseq := [], d3 := false, aer := 0 }


/-- The forming core (03, 04). On the grid: machine angle in turns, with 16 fraction bits below the binary angle between frames; frequency in
Q2.46; the Q2.30 states; the previous reference vector, the last valid phase currents, the impedance scale, Psw for the next frame. Limiter: stage 2, its
consecutive frames that qualify for the end, and the magnitudes of the virtual currents of this stay, newest first. The last frames'
vectors of R116 and grid-angle differences of R127, newest first. The consecutive frames out of band and of invalid current, whether a
substitute voltage is used, and the device time of the frame's compute start. Sequences: the mode that
RIDE_THROUGH came from, V* in force, the frames of a ramp, whether the ramp is a claim, the highest Vm in JOIN, the
frequency set-point while it differs from channel 2, the magnitude correction, whether the closing pulse has started. The 17 words of
the output vector. -/
structure Frm where
  theta : Int
  omega : Int
  pf : Int
  qf : Int
  vm : Int
  x : Int
  e : Int
  pm : Int
  vref : Int × Int
  cur : Int × Int × Int
  k : Int
  stage2 : Bool
  s2ok : Nat
  psw : Int
  peaks : List (Int × Int)
  hist : List ((Int × Int) × (Int × Int))
  phiG : Int
  dphi : List Int
  low : Nat
  high : Nat
  noCur : Nat
  vSub : Bool
  t0 : Nat
  rtFrom : Nat
  vStar : Int
  rampN : Nat
  claim : Bool
  joinMax : Int
  wOver : Option Int
  dv : Int
  fired : Bool
  out : List Nat
  deriving DecidableEq, Repr

def Frm.reset : Frm :=
  { theta := 0, omega := 0, pf := 0, qf := 0, vm := 0, x := 0, e := 0, pm := 0, vref := (0, 0), cur := (0, 0, 0), k := 2 ^ 60,
    stage2 := false, s2ok := 0, psw := 0, peaks := [], hist := [], phiG := 0, dphi := [], low := 0, high := 0, noCur := 0, vSub := false,
    t0 := 0, rtFrom := 5, vStar := 2 ^ 60, rampN := 0, claim := false, joinMax := 0, wOver := none,
    dv := 0, fired := false, out := List.replicate 11 0 ++ [0x7FFF] ++ List.replicate 5 0 }

/-- A profile channel (R112): output, rate and acceleration on the grid. -/
structure PrfCh where
  y : Int
  r : Int
  a : Int
  deriving DecidableEq, Repr

/-- The reset value of profile channel `n`: 1.0 pu for channels 2 and 3 (PRF_OUTn). -/
def PrfCh.reset (n : Nat) : PrfCh := { y := if n = 2 ∨ n = 3 then 2 ^ 60 else 0, r := 0, a := 0 }


/-- A tile in a schedule (R152): its program address, the cycle after fabric start from which it may issue, and whether it has executed
END. -/
structure ArmTile where
  pc : Nat
  at_ : Nat
  ended : Bool
  deriving DecidableEq, Repr

/-- A word on its way from an output port (R153): its arrival cycle, source tile, destination port (`8 * tile + port`), and the word with its
residue. -/
structure ArmWord where
  cycle : Nat
  src : Nat
  dst : Nat
  val : Nat
  deriving DecidableEq, Repr

/-- The Armature (05), its words with their residues above them (R6, R144). Accumulators (`4 * tile + i`, 40 bits and residue); data words (`1024 * tile + a`) and programs (`256 * tile + slot`);
written parameter shadows; each master's staged first word (tile, slot, word); the tiles of the running schedule; input queues
(`8 * tile + port`, oldest first, each word with its arrival cycle) and the cycle in which a full queue last got a free place; words on their way; routes of output ports (`4 * tile + port`); the frame input bank of the schedule;
the pending bank; whether the next schedule is the first of a forming stay (R161); a commit due at the fabric start; a RUN1 request, and
whether the running schedule is one; the cycle of the last END; whether this frame has run its schedule, and has had a fault. -/
structure Arm where
  acc : Sparse Nat
  dat : Sparse Nat
  prog : Sparse Nat
  shadow : Sparse Nat
  staging : Sparse (Nat × Nat × Nat)
  tiles : Sparse ArmTile
  queues : Sparse (List (Nat × Nat))
  roomAt : Sparse Nat
  flight : List ArmWord
  routes : Sparse (List Nat)
  bank : Sparse Nat
  pend : Sparse Nat
  first : Bool
  commitDue : Bool
  commitNext : Bool
  run1 : Bool
  run1Now : Bool
  lastEnd : Nat
  ran : Bool
  faulted : Bool
  deriving DecidableEq, Repr

def Arm.reset : Arm :=
  { acc := [], dat := [], prog := [], shadow := [], staging := [], tiles := [], queues := [], roomAt := [], flight := [], routes := [], bank := [],
    pend := [], first := false, commitDue := false, commitNext := false, run1 := false, run1Now := false, lastEnd := 0, ran := false, faulted := false }


/-- The telemetry of a submodule (R180, R201): Vcap and aux codes as last received, the codes latched at the last compute start, its age in
compute starts, whether it has arrived since the last compute start. -/
structure SmTel where
  vcap : Int
  aux : Int
  lvcap : Int
  laux : Int
  age : Nat
  fresh : Bool
  deriving DecidableEq, Repr

/-- An arm in the modulator and the Rasp (R184 to R194): the carry in 1/65,536, the carrier count, sign_i and pol_r, the mode and the
carrier period of the last frame, the ranking of its available submodules, MEAN and VMEAN. -/
structure ArmMod where
  carry : Int
  cnt : Nat
  signI : Int
  polR : Int
  mode : Nat
  cper : Nat
  order : List Nat
  mean : Int
  vmean : Int
  deriving DecidableEq, Repr

def ArmMod.reset : ArmMod := { carry := 0, cnt := 0, signI := 1, polR := 1, mode := 1, cper := 40, order := [], mean := 0, vmean := 0 }

/-- The modulator and the Rasp (06): telemetry by global index; the submodules whose node reports a
fault (1); the state S2 each submodule ended the last frame in; the arms; the
aggregate words (`4 * arm + i`); the downlink commands as command byte + t1 * 2^8 + t2 * 2^24 (an unlisted slot has the blocked command);
the bank last delivered to the modulator; and whether the last frame was not modulated. -/
structure Mod where
  tel : Sparse SmTel
  faults : Sparse Nat
  s2 : Sparse Nat
  arms : Sparse ArmMod
  agg : Sparse Nat
  cmds : Sparse Nat
  given : Sparse Nat
  blocked : Bool
  deriving DecidableEq, Repr

def Mod.reset : Mod := { tel := [], faults := [], s2 := [], arms := [], agg := [], cmds := [], given := [], blocked := true }


/-- A link port (R215, R237 to R240): a frame is due in this period; the receiver is aligned; it has lost alignment since
bring-up began, so that only RETRY = 1 lets it leave DOWN; consecutive correct frames; frames with an equal REACH; the REACH before a fall and the frames below it; RT at the end of
RANGE; LEAD and APPLY of the last launch; and whether it has been enabled since its region was last reset: it then sends IDLE between frames and
after EN = 0 (R241). -/
structure LnkPort where
  due : Bool
  aligned : Bool
  lost : Bool
  good : Nat
  steady : Nat
  base : Nat
  low : Nat
  idling : Bool
  refRt : Nat
  lead : Nat
  apply : Nat
  deriving DecidableEq, Repr

def LnkPort.reset : LnkPort :=
  { due := false, aligned := false, lost := false, good := 0, steady := 0, base := 0, low := 0, idling := false, refRt := 0, lead := 0, apply := 0 }

/-- A point operation on its way (R233, R234): opcode, point, data and TAG; the port that carried it; the frames since; the reissues made;
whether it waits to be carried again; whether bring-up placed it. -/
structure PointOp where
  opc : Nat
  point : Nat
  data : Nat
  tag : Nat
  port : Nat
  age : Nat
  tries : Nat
  again : Bool
  bring : Bool
  deriving DecidableEq, Repr

/-- The device's point channel to one node (R233 to R238): queued WRITEs (point, value), oldest first; the operation on its way; the last
TAG; consecutive WRITEs; the next point to refresh; the bring-up stage (0 none, 1 and 2 reading points 0 and 1, 3 identity accepted, 4 and
5 writing points 4 and 6, 6 waiting for ADMIT = 1, 7 admission failed, 8 reading point 6 of a node that reports ADMIT = 1) and the port that runs it; consecutive EPREJ reports. -/
structure PtNode where
  queue : List (Nat × Nat)
  op : Option PointOp
  tag : Nat
  writes : Nat
  next : Nat
  stage : Nat
  owner : Nat
  eprej : Nat
  deriving DecidableEq, Repr

def PtNode.reset : PtNode := { queue := [], op := none, tag := 0, writes := 0, next := 0, stage := 0, owner := 0, eprej := 0 }

/-- The link ports and the point channel, by port and by global index; the last frame of RESERR is in `resRec`. -/
structure Lnk where
  ports : Sparse LnkPort
  points : Sparse PtNode
  bad : Sparse Nat
  deriving DecidableEq, Repr

def Lnk.reset : Lnk := { ports := [], points := [], bad := [] }

/-- A command a node keeps for its apply time (R226, R227): apply time, epoch, the first 40 slot bits, the frame period in ns, and H. -/
structure NodeCmd where
  apply : Nat
  epoch : Nat
  bits : Nat
  per : Nat
  hold : Nat
  deriving DecidableEq, Repr

/-- The last frame a node received from one end (R219 to R221): APPLY, LEAD, RT, its local arrival time, ACTIVE,
and TOPO = DUAL. -/
structure NodeSeen where
  apply : Nat
  lead : Nat
  rt : Nat
  arr : Int
  active : Bool
  dual : Bool
  deriving DecidableEq, Repr

/-- A submodule node (R212 to R236): NSTATE; E_h; admission and its signature; its clock: offset of its time from its free-running count
(0.05 ns units) at the count of the last correction, what it slews in a period, that period in ns, the filtered error, SYNC and the runs of R222; the last frame from each end; the departure of
its last frame downstream by side, and RTT by side; the END of the SINGLE frame it timed from last (R219); per side: alignment, inverted polarity, folding, frames delivered in a row with a
correct CRC-32C, and periods without one; the kept commands, by rising apply time; the command applied last and the tick of that; whether one was applied since
the entry to RUN; the state code in force (4 blocked); the bypass switch; the RW points; the pending reply by end (value + 2^32 RERR +
2^33 TAG); the flags CMDERR, LATE and EPREJ since the last uplink; the counters of points 5, 8, 9 and 13; the cause of point 5; the last
temperatures and warning; the tick of the last header with correct HCRC. -/
structure Node where
  st : Nat
  eh : Nat
  admitted : Bool
  csig : Nat
  ofs : Int
  ref : Int
  slew : Int
  per : Nat
  err : Int
  sync : Bool
  okRun : Nat
  badRun : Nat
  seen : Sparse NodeSeen
  left : Sparse Int
  rtt : Sparse Nat
  timed : Nat
  side : Sparse Nat
  inv : Sparse Nat
  fold : Sparse Nat
  ret : Sparse Nat
  noRet : Sparse Nat
  cmds : List NodeCmd
  cur : Option NodeCmd
  curTick : Nat
  ran : Bool
  sw : Nat
  byp : Bool
  pts : Sparse Nat
  reply : Sparse Nat
  cmdErr : Bool
  late : Bool
  epRej : Bool
  holdCnt : Nat
  crcCnt : Sparse Nat
  slotErr : Nat
  cmdErrs : Nat
  swCnt : Nat
  cause : Nat
  hdrTick : Nat
  deriving DecidableEq, Repr

/-- A node at its power-up (R224): INIT, blocked. Its own stored points are zero, and its free-running count starts at no offset
(log 21). -/
def Node.reset : Node :=
  { st := 0, eh := 0, admitted := false, csig := 0, ofs := 0, ref := 0, slew := 0, per := 0, err := 0, sync := false, okRun := 0, badRun := 0, seen := [],
    left := [], rtt := [], timed := 0, side := [], inv := [], fold := [], ret := [], noRet := [], cmds := [], cur := none, curTick := 0, ran := false, sw := 4,
    byp := false, pts := [], reply := [], cmdErr := false, late := false, epRej := false, holdCnt := 0, crcCnt := [], slotErr := 0,
    cmdErrs := 0, swCnt := 0, cause := 0, hdrTick := 0 }


/-- The redundant pair (08): whether the device holds the Mallet, and held it earlier in this power cycle; whether a RELEASE has arrived and at what device time; the frame of a HANDOVER received, and of one sent; the sending time
of the last acknowledged RENEW; the RENEWs sent after it (sequence number, lease end, sending time), newest first, and whether no ACK has
stopped their repetition yet; the next sequence number;
the sequence numbers seen, newest first; the tick of the last ACTIVE frame with an epoch at or above EPSEEN; whether a RENEW has arrived
since the wait of R253 began; whether the partner has told that it is in SHADOW, and that its IMGDIFF is set; the highest epoch in a
frame received on a port; the tick of the last partner frame in SHADOW, and of the last frame start; whether frame starts were corrected in this frame (R258); the
record kept for the next compute start, whether this frame's record has been counted as missed, and the run of missed records; the mode of
the last record applied and of the last snapshot; the digest of R264, and whether the partner's differs; the mirror list. -/
structure Mir where
  holds : Bool
  held : Bool
  released : Option Nat
  hoIn : Option Nat
  hoOut : Option Nat
  ackSent : Nat
  renews : List (Nat × Nat × Nat)
  renewing : Bool
  seq : Nat
  seqSeen : List Nat
  active : Option Nat
  renewSeen : Bool
  partnerShadow : Bool
  partnerDiffers : Bool
  portEpoch : Nat
  heard : Nat
  frameTick : Nat
  corrected : Bool
  keep : Option MirRecord
  missed : Bool
  missRun : Nat
  recMode : Option Nat
  snapMode : Option Nat
  digest : Nat
  differs : Bool
  list : List Nat
  deriving DecidableEq, Repr

def Mir.reset : Mir :=
  { holds := false, held := false, released := none, hoIn := none, hoOut := none, ackSent := 0, renews := [], renewing := false, seq := 0,
    seqSeen := [], active := none, renewSeen := false, partnerShadow := false, partnerDiffers := false, portEpoch := 0, heard := 0, frameTick := 0, corrected := false, keep := none, missed := false,
    missRun := 0, recMode := none, snapMode := none, digest := 0, differs := false, list := [] }


/-- A placed edge of a local bridge pair: instant in quarter nanoseconds of true time, high or low side, on or off. -/
structure Edge where
  time : Nat
  hi : Bool
  on : Bool
  deriving DecidableEq, Repr

/-- A local bridge pair (R269 to R291). Carries in 1.25 ns steps; the instant of the next period start (none: waiting for a frame start
or not started) and of the present one, in quarter nanoseconds; the switches commanded on by the pulse logic, the instants of their last
turn-off, and of the low side's last change; the edges still to come; the longest uninterrupted low-side on time of this period that has
ended, and whether a period has begun since the pair was enabled;
the fault inputs that cut this period (one bit each) and those of them counted for it, whether SHOOT drives it off; whether a row from 1 to 5 of R282 acted; the two-step sequence (0 none,
1 waiting, 2 SOFT), the switches it found on, its SOFTT, the instant of its detection and its start; and MODE, OVSEL, MINP, RFW, SYNC and the
polarities (POLH, POLL, POLS from bit 0 up) as latched at the last period start (R272). -/
structure LbrPair where
  ch : Int
  cl : Int
  next : Option Nat
  start : Nat
  hOn : Bool
  lOn : Bool
  hOff : Nat
  lOff : Nat
  lAt : Nat
  plan : List Edge
  lowRun : Nat
  began : Bool
  cut : Nat
  counted : Nat
  shoot : Bool
  acted : Bool
  two : Nat
  heldH : Bool
  heldL : Bool
  softT : Nat
  detAt : Nat
  softAt : Nat
  mode : Nat
  ovsel : Nat
  minp : Nat
  rfw : Nat
  sync : Bool
  pol : Nat
  deriving DecidableEq, Repr

def LbrPair.reset : LbrPair :=
  { ch := 0, cl := 0, next := none, start := 0, hOn := false, lOn := false, hOff := 0, lOff := 0, lAt := 0, plan := [], lowRun := 0, began := false,
    cut := 0, counted := 0, shoot := false, acted := false, two := 0, heldH := false, heldL := false, softT := 0, detAt := 0, softAt := 0, mode := 0, ovsel := 0,
    minp := 0, rfw := 0, sync := false, pol := 0 }

/-- A Rogowski channel (R288 to R295): the instant at which blanking ends (quarter nanoseconds), the thresholds in force in mV, the
consecutive coil checks that met each condition, and the polarity test: edges with excursions and how many were negative. -/
structure RogCh where
  blank : Nat
  hard : Nat
  soft : Nat
  openRun : Nat
  shortRun : Nat
  test : Option (Nat × Nat)
  deriving DecidableEq, Repr

def RogCh.reset : RogCh := { blank := 0, hard := 2000, soft := 1000, openRun := 0, shortRun := 0, test := none }

/-- The local bridges and their protection (09): pairs, Rogowski channels, the pairs waiting for their SOFT stage, the start of the last
SOFT stage, the over-voltage controllers that have had a result since they were enabled, the tick at which a device halt began, the levels of
the fault inputs after their filters (an unlisted input is inactive), the tick of the last first-in record with the number of the
first of that tick, and the pairs whose pins are driven because LBR_PCFGp has been written since the last reset of GRD (R469). -/
structure Brg where
  pairs : Sparse LbrPair
  rogs : Sparse RogCh
  softQ : List Nat
  lastSoft : Option Nat
  ovHad : Sparse Nat
  haltAt : Option Nat
  fltPin : Sparse Nat
  fiAt : List Nat
  driven : Sparse Nat
  deriving DecidableEq, Repr

def Brg.reset : Brg := { pairs := [], rogs := [], softQ := [], lastSoft := none, ovHad := [], haltAt := none, fltPin := [], fiAt := [], driven := [] }


/-- The safety block (10): for RESET pairs the tick since which both channels are high and the last such time; restart cycles in progress;
the MANUAL outputs enabled by a reset event; a reset event waiting for the scan; the tick of the last scan; the start of the test cycle and a
new cycle asked for; the pulse in progress (channel, start); the tick at which each pair was switched off; the tick at which each channel's
pulse ended; the network input's demand; the tick of the last PERMIT; the first copy of a frame (port, payload, tick); the accepted commands
waiting for the scan; CRC2 of the safety section; whether the SOA and SOB pins are driven because EN has been 1 since the last
reset of GRD (R468). -/
structure Saf where
  highSince : Sparse Nat
  highDur : Sparse Nat
  cycleSeen : Sparse Nat
  manual : Nat
  rst : Bool
  scan : Nat
  cycle : Nat
  ptest : Bool
  pulse : Option (Nat × Nat)
  offAt : Sparse Nat
  pulseEnd : Sparse Nat
  netDem : Bool
  permit : Option Nat
  copy : Option (Nat × List Nat × Nat)
  cmds : List Nat
  crc2 : Nat
  driven : Bool
  deriving DecidableEq, Repr

def Saf.reset : Saf :=
  { highSince := [], highDur := [], cycleSeen := [], manual := 0, rst := false, scan := 0, cycle := 0, ptest := false, pulse := none,
    offAt := [], pulseEnd := [], netDem := true, permit := none, copy := none, cmds := [], crc2 := 0, driven := false }



/-- A cast (R326 to R334): its segment; PRE, POST, the source words, RATE and the row period in ns as latched at arming; the rows written; the
trigger row; SEQ; the time stamp; the kept pre-trigger rows and the post-trigger rows of an ended one; START; FLAGS; TSRC at the trigger; the
word measured and the hysteresis; RETRIGN; the tick at which it ended. -/
structure Cast where
  seg : Nat
  base : Nat
  pre : Nat
  post : Nat
  srcs : List Nat
  frame : Bool
  rowNs : Nat
  rows : Nat
  trig : Option Nat
  seq : Nat
  stamp : Nat
  preN : Nat
  postN : Nat
  start : Nat
  flags : Nat
  tkind : Nat
  measW : Nat
  hyst : Nat
  retrigN : Nat
  ended : Nat
  deriving DecidableEq, Repr

/-- The recorder (11): the cast being recorded; the casts waiting for their measurements, oldest first, and the tick at which the engine is
free; the casts requested and not yet ended, and whether recording is continuous; whether a segment is awaited after an end or for want of
one; the tick of the next row and the frame of the last one; what has happened since the last row (bit 0 PRT, 1 SAF, 2 MODE, 3 SWTRIG);
the qualification of the edge detector (bit 0 rising, 1 falling); SEQ of the last cast; whether the tamper erase ended recording. -/
structure Cst where
  cast : Option Cast
  meas : List Cast
  free : Nat
  left : Nat
  cont : Bool
  await : Bool
  nextRow : Nat
  lastT0 : Option Nat
  evt : Nat
  qual : Nat
  seq : Nat
  dead : Bool
  deriving DecidableEq, Repr

def Cst.reset : Cst :=
  { cast := none, meas := [], free := 0, left := 0, cont := false, await := false, nextRow := 0, lastT0 := none, evt := 0, qual := 0, seq := 0,
    dead := false }



/-- A live image that has passed its checks (R421): the bodies of sections 0x06 and 0x07 it holds, and its VERSION; the frame at which its
COMMIT takes effect, if not at the next, and whether the frame asked for was past (R422). -/
structure Staged where
  form : Option (List Nat)
  prot : Option (List Nat)
  version : Nat
  frame : Option Nat
  late : Bool
  deriving DecidableEq, Repr

/-- The loader (14): the length of an image that lies in SUP SRAM for a load and whether it came by UART0; whether a load has failed in
this BOOT; of the running image: where it was read (0 and 1 the two flash places, 2 SUP SRAM), VERSION, ENTRY, STRUCT, the key slot that
signed it, the offset and length of each section body and the SHA-256 recorded of each structure section (R407), the PCIe subsystem IDs
(R361); the bodies of sections 0x06 and 0x07 last committed (R407), and which of them the retention memory has lost (bit 0 and 1, R440); the staged live image; the fuse command in progress (command and
slot); the tamper inputs that are active (bits 0 and 1) and those that are low (bits 2 and 3); whether an erasure waits for LOCKOUT (R418). -/
structure Mqt where
  ready : Option Nat
  uart : Bool
  failed : Bool
  place : Nat
  version : Nat
  entry : Nat
  digest : Nat
  key : Option Nat
  places : Sparse (Nat × Nat)
  digests : Sparse Nat
  ssvid : Nat
  ssid : Nat
  form : List Nat
  prot : List Nat
  retBad : Nat
  staged : Option Staged
  fuse : Option (Nat × Nat)
  tamper : Nat
  erase : Bool
  deriving DecidableEq, Repr

def Mqt.reset : Mqt :=
  { ready := none, uart := false, failed := false, place := 0, version := 0, entry := 0, digest := 0, key := none, places := [], digests := [],
    ssvid := 0, ssid := 0, form := [], prot := [], retBad := 0, staged := none, fuse := none, tamper := 0, erase := false }

/-- Tests and ageing (16): the bit corrected in each word by the last scrub pass of its array (`upsetKey`; twice the bit position, plus 1
once counted as hard); the corrections in each array since its last pass, and its intervals without a correction; the regions still to be tested by
logic, the one under test (its reset code) and whether it is isolated for it; the arrays under memory test (one bit each); ABORT asked
for. Patina: the consecutive judgements above SLKHI, the retries of the set point being written, the exponent of VOUT_MODE (5 bits, two's
complement), the next lane, the conditions met at the last measurements (bits 0 to 43 lanes, 44 VMIN, 45 REFDRIFT, 46 OSCSHIFT), the
powered hours since the last log entry, and since the last SRAM measurement; the array that the transparent test is in (R461). -/
structure Bst where
  scrub : Sparse Nat
  corr : Sparse Nat
  quiet : Sparse Nat
  lbLeft : List Nat
  lbCur : Option Nat
  lbOn : Bool
  arrays : Nat
  abort : Bool
  hiRun : Nat
  tries : Nat
  vexp : Nat
  lane : Nat
  live : Nat
  logAge : Nat
  sramAge : Nat
  tb : Option Nat
  deriving DecidableEq, Repr

def Bst.reset : Bst :=
  { scrub := [], corr := [], quiet := [], lbLeft := [], lbCur := none, lbOn := false, arrays := 0, abort := false, hiRun := 0, tries := 0,
    vexp := 0, lane := 0, live := 0, logAge := 0, sramAge := 0, tb := none }


/-- The state of the device: every register, memory, queue, counter, mode and pin the spec gives it, the engines' own state, and the
queue of waiting commands. -/
structure State where
  /-- The commands waiting, first in, first out. -/
  pending : List Instr
  /-- The register fields that differ from their reset values, by key (`Fld.key`). -/
  regs : Sparse Nat
  /-- The copy of the register fields of the latching blocks taken at the last frame start (R35). -/
  latch : Sparse Nat
  /-- True time, device time and the running timers. -/
  clk : Clk
  /-- The model's own counter of free values drawn so far. -/
  free : Nat
  /-- The answers to the accesses of the last command. -/
  bus : List BusAnswer
  /-- What has been sent out, newest first. -/
  sent : List Sent
  /-- SUP SRAM, capture SRAM and the point mirror (R26), as bytes. -/
  mem : List Host.Cell
  /-- Upset bits of stored words in the arrays of R440: by array and word (`upsetKey`), the flipped bits of data and check bits. -/
  upset : Sparse Nat
  /-- Cores, DMA, semaphores and interrupts (13). -/
  sup : Sup
  /-- The fuses (14, R399, R419). -/
  fuses : Fuses
  /-- The security policy in force (14, R415). -/
  policy : Policy
  /-- Mode requests, trips, drains, reset and power pins (15, 17). -/
  ctl : Ctl
  /-- Converters, sequencers, result queues and input tests (02). -/
  acq : Acq
  /-- The grid angle tracker and the Pointing outputs (02). -/
  ang : Ang
  /-- The last residue mismatch: frame number, region, block and channel or slot (R38); empty when none. -/
  resRec : List Nat
  /-- Pins set by the maquette and levels driven from outside (14, 17). -/
  pins : Pins
  /-- Network ports, transmit stamps and PPS (12). -/
  net : Net
  /-- The forming core and its sequences (03, 04). -/
  frm : Frm
  /-- The profile channels that have moved (R112); an unlisted channel is at its reset value. -/
  prf : Sparse PrfCh
  /-- The Armature (05). -/
  arm : Arm
  /-- The modulator and the Rasp (06). -/
  mod : Mod
  /-- The link ports and the point channel (07). -/
  lnk : Lnk
  /-- The submodule nodes by global index; an unlisted node is at its power-up (07). -/
  nodes : Sparse Node
  /-- The redundant pair and the Mallet (08). -/
  mir : Mir
  /-- Local bridges and power-stage protection (09). -/
  brg : Brg
  /-- The safety block (10). -/
  saf : Saf
  /-- The Casting recorder (11). -/
  cst : Cst
  /-- The QSPI flash on the board (R26, R402), as bytes by offset. -/
  flash : List Host.Cell
  /-- The maquette loader, fuse commands and tamper inputs (14). -/
  mqt : Mqt
  /-- Scrubbing, tests and ageing (16). -/
  bst : Bst
  deriving DecidableEq, Repr

/-- The device right after its reset: registers at the reset values of their cards (no register listed), memory with nothing
listed, no command waiting. -/
def State.reset : State where
  pending := []
  regs := []
  latch := []
  clk := Clk.reset
  free := 0
  bus := []
  sent := []
  mem := []
  upset := []
  sup := Sup.reset
  fuses := Fuses.blank
  policy := Policy.reset
  ctl := Ctl.reset
  acq := Acq.reset
  ang := Ang.reset
  resRec := []
  pins := Pins.reset
  net := Net.reset
  frm := Frm.reset
  prf := []
  arm := Arm.reset
  mod := Mod.reset
  lnk := Lnk.reset
  nodes := []
  mir := Mir.reset
  brg := Brg.reset
  saf := Saf.reset
  cst := Cst.reset
  flash := []
  mqt := Mqt.reset
  bst := Bst.reset

/-- The state with `pending` replaced. -/
def State.setPending (s : State) (x : List Instr) : State := { s with pending := x }

/-- The state with `regs` replaced. -/
def State.setRegs (s : State) (x : Sparse Nat) : State := { s with regs := x }

/-- The state with `latch` replaced. -/
def State.setLatch (s : State) (x : Sparse Nat) : State := { s with latch := x }

/-- The state with `clk` replaced. -/
def State.setClk (s : State) (x : Clk) : State := { s with clk := x }

/-- The state with `free` replaced. -/
def State.setFree (s : State) (x : Nat) : State := { s with free := x }

/-- The state with `bus` replaced. -/
def State.setBus (s : State) (x : List BusAnswer) : State := { s with bus := x }

/-- The state with `sent` replaced. -/
def State.setSent (s : State) (x : List Sent) : State := { s with sent := x }

/-- The state with `mem` replaced. -/
def State.setMem (s : State) (x : List Host.Cell) : State := { s with mem := x }

/-- The state with `upset` replaced. -/
def State.setUpset (s : State) (x : Sparse Nat) : State := { s with upset := x }

/-- The state with `sup` replaced. -/
def State.setSup (s : State) (x : Sup) : State := { s with sup := x }

/-- The state with `fuses` replaced. -/
def State.setFuses (s : State) (x : Fuses) : State := { s with fuses := x }

/-- The state with `policy` replaced. -/
def State.setPolicy (s : State) (x : Policy) : State := { s with policy := x }

/-- The state with `ctl` replaced. -/
def State.setCtl (s : State) (x : Ctl) : State := { s with ctl := x }

/-- The state with `acq` replaced. -/
def State.setAcq (s : State) (x : Acq) : State := { s with acq := x }

/-- The state with `ang` replaced. -/
def State.setAng (s : State) (x : Ang) : State := { s with ang := x }

/-- The state with `resRec` replaced. -/
def State.setResRec (s : State) (x : List Nat) : State := { s with resRec := x }

/-- The state with `pins` replaced. -/
def State.setPins (s : State) (x : Pins) : State := { s with pins := x }

/-- The state with `net` replaced. -/
def State.setNet (s : State) (x : Net) : State := { s with net := x }

/-- The state with `frm` replaced. -/
def State.setFrm (s : State) (x : Frm) : State := { s with frm := x }

/-- The state with `prf` replaced. -/
def State.setPrf (s : State) (x : Sparse PrfCh) : State := { s with prf := x }

/-- The state with `arm` replaced. -/
def State.setArm (s : State) (x : Arm) : State := { s with arm := x }

/-- The state with `mod` replaced. -/
def State.setMod (s : State) (x : Mod) : State := { s with mod := x }

/-- The state with `lnk` replaced. -/
def State.setLnk (s : State) (x : Lnk) : State := { s with lnk := x }

/-- The state with `nodes` replaced. -/
def State.setNodes (s : State) (x : Sparse Node) : State := { s with nodes := x }

/-- The state with `mir` replaced. -/
def State.setMir (s : State) (x : Mir) : State := { s with mir := x }

/-- The state with `brg` replaced. -/
def State.setBrg (s : State) (x : Brg) : State := { s with brg := x }

/-- The state with `saf` replaced. -/
def State.setSaf (s : State) (x : Saf) : State := { s with saf := x }

/-- The state with `cst` replaced. -/
def State.setCst (s : State) (x : Cst) : State := { s with cst := x }

/-- The state with `flash` replaced. -/
def State.setFlash (s : State) (x : List Host.Cell) : State := { s with flash := x }

/-- The state with `mqt` replaced. -/
def State.setMqt (s : State) (x : Mqt) : State := { s with mqt := x }

/-- The state with `bst` replaced. -/
def State.setBst (s : State) (x : Bst) : State := { s with bst := x }

end Sys2Proof.Machine
end

