-- ==== Sys2Proof/Machine/Ops.lean ====
section
/-! DEFINITION. The named operations over registers, time, error records and access answers that every command's meaning uses. -/

namespace Sys2Proof.Machine

/-- What a command answers. -/
abbrev Result := Host.Outcome State Fault Refusal

/-! ## Register fields -/

/-- The key of a field in the register store: its address and lowest bit. -/
def Fld.key (f : Fld) : Nat := f.addr * 32 + f.lo

/-- The value of field `f`, as wide as the field; its reset value where nothing is listed. -/
def State.rd (s : State) (f : Fld) : Nat := spGet s.regs f.key f.rst % 2 ^ f.wid

/-- Write field `f` with the low `f.wid` bits of `v`. -/
def State.wr (s : State) (f : Fld) (v : Nat) : State := s.setRegs (spSet s.regs f.key (v % 2 ^ f.wid) f.rst)

/-- The value of field `f` as latched at the last frame start (R35). -/
def State.lrd (s : State) (f : Fld) : Nat := spGet s.latch f.key f.rst % 2 ^ f.wid

/-- Set a flag. -/
def State.set1 (s : State) (f : Fld) : State := s.wr f 1

/-- Clear a flag. -/
def State.set0 (s : State) (f : Fld) : State := s.wr f 0

/-- Whether a flag is set. -/
def State.flag (s : State) (f : Fld) : Bool := s.rd f != 0

/-- Add `n` to a counter field that saturates. -/
def State.addSat (s : State) (f : Fld) (n : Nat) : State := s.wr f (min (s.rd f + n) (2 ^ f.wid - 1))

/-- Add `n` to a counter field that wraps. -/
def State.addWrap (s : State) (f : Fld) (n : Nat) : State := s.wr f (s.rd f + n)

/-- Bit `i` of `w`. -/
def bitAt (w i : Nat) : Bool := w / 2 ^ i % 2 = 1

/-- `w` with bit `i` made `b`. -/
def putBit (w i : Nat) (b : Bool) : Nat := w - (w / 2 ^ i % 2) * 2 ^ i + (if b then 2 ^ i else 0)

/-- Bit `i` of field `f`. -/
def State.rdBit (s : State) (f : Fld) (i : Nat) : Bool := bitAt (s.rd f) i

/-- Write bit `i` of field `f`. -/
def State.wrBit (s : State) (f : Fld) (i : Nat) (b : Bool) : State := s.wr f (putBit (s.rd f) i b)

/-- The two's-complement reading of the low `n` bits of `w`. -/
def signed (n w : Nat) : Int := if w % 2 ^ n < 2 ^ (n - 1) then (w % 2 ^ n : Nat) else (w % 2 ^ n : Nat) - (2 ^ n : Nat)

/-- The `n`-bit two's-complement pattern of `i`. -/
def pattern (n : Nat) (i : Int) : Nat := (i % ((2 ^ n : Nat) : Int)).toNat

/-- `i` held between `lo` and `hi`. -/
def clampInt (lo hi i : Int) : Int := if i < lo then lo else if hi < i then hi else i

/-- `n` held between `lo` and `hi`. -/
def clampNat (lo hi n : Nat) : Nat := if n < lo then lo else if hi < n then hi else n

/-- The R9 difference of two 32-bit quantities, a signed 32-bit number. -/
def diff32 (a b : Nat) : Int := signed 32 (a + 2 ^ 32 - b % 2 ^ 32)

/-! ## Regions and blocks -/

/-- The reset code of a region (R23). -/
def regionCode : Region → Nat
  | .sup => 1 | .net => 2 | .acq => 3 | .frm => 4 | .mod => 5 | .lka => 6 | .lkb => 7 | .grd => 8

/-- The region with reset code `c`. -/
def regionOf (c : Nat) : Option Region :=
  match c with
  | 1 => some .sup | 2 => some .net | 3 => some .acq | 4 => some .frm | 5 => some .mod | 6 => some .lka | 7 => some .lkb
  | 8 => some .grd | _ => none

/-- Whether the loss of a region is a class D error (R23). -/
def lossIsD : Region → Bool
  | .sup => false | .net => true | .acq => true | .frm => true | .mod => true | .lka => false | .lkb => false | .grd => true

/-- The region's bit in SUP_RGN_CTRL and SUP_RGN_STAT. -/
def regionBit (r : Region) : Nat := regionCode r - 1

/-- Whether a region is powered, out of reset and not isolated (SUP_RGN_STAT.ON). -/
def State.regionOn (s : State) (r : Region) : Bool := s.rdBit Reg.SUP_RGN_STAT_ON (regionBit r)

/-- The region of a block (R23). -/
def blockRegion : Block → Region
  | .mbx | .sem | .int | .dma | .rng | .mqt | .sec | .pat | .bst => .sup
  | .net | .ptp | .svs | .mir => .net
  | .acq | .ang | .cst => .acq
  | .frm | .prf | .arm => .frm
  | .mod | .rsp => .mod
  | .lnk n => if n.val < 16 then .lka else .lkb
  | .lbr | .prt | .saf => .grd

/-- The block window index of a block within its region (R31). -/
def blockIndex : Block → Nat
  | .mbx => 1 | .sem => 2 | .int => 3 | .dma => 4 | .rng => 5 | .mqt => 6 | .sec => 7 | .pat => 8 | .bst => 9
  | .net => 0 | .ptp => 1 | .svs => 2 | .mir => 3
  | .acq => 0 | .ang => 1 | .cst => 2
  | .frm => 0 | .prf => 1 | .arm => 2
  | .mod => 0 | .rsp => 1
  | .lnk n => n.val % 16
  | .lbr => 0 | .prt => 1 | .saf => 2

/-- The base address of a block's window (R31). -/
def blockBase (b : Block) : Nat := 0x40000000 + regionBit (blockRegion b) * 0x1000000 + blockIndex b * 0x10000

/-- The reset value of a block's EN (the blocks' own cards). -/
def blockEnRst : Block → Nat
  | .mbx | .sem | .int | .rng | .mqt | .sec | .bst | .ptp => 1
  | _ => 0

/-- The reset value of a block's STATE (the blocks' own cards). -/
def blockStateRst : Block → Nat
  | .mbx | .sem | .int | .rng | .mqt | .sec | .ptp => 1
  | _ => 0

/-- EN of a block (R32). -/
def blockEn (b : Block) : Fld := ⟨blockBase b, 0, 1, blockEnRst b⟩

/-- STATE of a block (R32, R44). -/
def blockState (b : Block) : Fld := ⟨blockBase b + 4, 0, 4, blockStateRst b⟩

/-- REMAIN of a block (R32). -/
def blockRemain (b : Block) : Fld := ⟨blockBase b + 4, 16, 16, 0⟩

/-- The STATE codes of R44. -/
def stOff : Nat := 0
def stRunning : Nat := 1
def stStopping : Nat := 2
def stStopped : Nat := 3
def stFenced : Nat := 4

/-- Whether a block reports RUNNING. -/
def State.running (s : State) (b : Block) : Bool := s.rd (blockState b) = stRunning

/-- Whether a block is fenced (R19). -/
def State.fenced (s : State) (b : Block) : Bool := s.rd (blockState b) = stFenced

/-- Whether a block works: EN is 1, it is not fenced, and its region is on. -/
def State.works (s : State) (b : Block) : Bool :=
  s.rd (blockEn b) = 1 && s.rd (blockState b) = stRunning && s.regionOn (blockRegion b)

/-- Whether a block that latches its registers works in the present frame (R35, R74): EN as latched at its start is 1, and the block runs. EN
cleared within the frame lets the frame complete, EN set within it acts from the next frame on. -/
def State.worksNow (s : State) (b : Block) : Bool :=
  s.lrd (blockEn b) = 1 && s.rd (blockState b) = stRunning && s.regionOn (blockRegion b)

/-- A block is enabled and works (R46). -/
def State.blockStart (s : State) (b : Block) : State := (s.wr (blockEn b) 1).wr (blockState b) stRunning

/-! ## Modes (R17) -/

def mHibernate : Nat := 0
def mBoot : Nat := 1
def mIdle : Nat := 2
def mPrecharge : Nat := 3
def mReady : Nat := 4
def mFormGrid : Nat := 5
def mFormIsland : Nat := 6
def mBlackStart : Nat := 7
def mRideThrough : Nat := 8
def mResync : Nat := 9
def mShadow : Nat := 10
def mMaintenance : Nat := 11
def mLockout : Nat := 12

/-- The present mode (SUP_MODE.MODE). -/
def State.mode (s : State) : Nat := s.rd Reg.SUP_MODE_MODE

/-- The five forming modes (R89). -/
def isForming (m : Nat) : Bool := decide (mFormGrid ≤ m) && decide (m ≤ mResync)

/-- IDLE or MAINTENANCE. -/
def State.idleOrMaint (s : State) : Bool := s.mode = mIdle || s.mode = mMaintenance

/-! ## Time -/

/-- TIME ticks in a microsecond and in a millisecond (250 MHz, R39). -/
def ticksUs (n : Nat) : Nat := 250 * n
def ticksMs (n : Nat) : Nat := 250000 * n

/-- Device time: the low 32 bits of the nanosecond count (R3). -/
def State.now (s : State) : Nat := s.clk.time / 2 ^ 32 % 2 ^ 32

/-- Let `n` TIME ticks pass: true time and mtime advance, and, while NET is on, device time by the committed increment a tick
(R344). A wrap of device time sets WRAP and counts in CST_TSHI (R347). -/
def State.elapse (s : State) (n : Nat) : State :=
  let s := s.setSup { s.sup with mtime := s.sup.mtime + n }
  if s.regionOn .net then
    let t := s.clk.time + n * s.clk.inc
    let wraps := t / 2 ^ 64
    let s := s.setClk { s.clk with ticks := s.clk.ticks + n, time := t % 2 ^ 64 }
    if wraps = 0 then s else (s.set1 Reg.PTP_ALRM_WRAP).addWrap Reg.CST_TSHI_TSHI wraps
  else s.setClk { s.clk with ticks := s.clk.ticks + n }

/-- Let time pass until true time reaches tick `t`; nothing where it has been reached. -/
def State.elapseTo (s : State) (t : Nat) : State := if s.clk.ticks < t then s.elapse (t - s.clk.ticks) else s

/-- Let time pass until device time reaches `d` by the R9 difference; nothing where it has been reached. -/
def State.elapseToDevice (s : State) (d : Nat) : State :=
  let gap := diff32 d s.now
  if 0 < gap ∧ 0 < s.clk.inc then
    s.elapse ((gap.toNat * 2 ^ 32 - s.clk.time % 2 ^ 32 + s.clk.inc - 1) / s.clk.inc)
  else s

/-- Start (or restart) timer `k` now. -/
def State.startTimer (s : State) (k : Nat) : State := s.setClk { s.clk with timers := spPut s.clk.timers k s.clk.ticks }

/-- Stop timer `k`. -/
def State.stopTimer (s : State) (k : Nat) : State := s.setClk { s.clk with timers := spDel s.clk.timers k }

/-- Whether timer `k` runs. -/
def State.timerOn (s : State) (k : Nat) : Bool := (spFind s.clk.timers k).isSome

/-- The ticks that have passed since timer `k` was started; 0 where it does not run. -/
def State.timerAge (s : State) (k : Nat) : Nat :=
  match spFind s.clk.timers k with
  | some t => s.clk.ticks - t
  | none => 0

/-- The expiry of timer `k` after `d` ticks: time passes up to that instant and the timer stops. -/
def State.expire (s : State) (k d : Nat) : State :=
  match spFind s.clk.timers k with
  | some t => (s.elapseTo (t + d)).stopTimer k
  | none => s

/-! ## Free values -/

/-- A free value at the present counter, from 0 to `k` (log 3). -/
def State.freeUpTo (s : State) (k : Nat) : Nat := Config.freeNat s.free % (k + 1)

/-- A free error at the present counter, from `-k` to `k` (log 3). -/
def State.freeErr (s : State) (k : Nat) : Int := (s.freeUpTo (2 * k) : Int) - (k : Nat)

/-- The free error `j` places on from the present counter, from `-k` to `k`. -/
def State.freeErrAt (s : State) (j k : Nat) : Int := (Config.freeNat (s.free + j) % (2 * k + 1) : Nat) - (k : Int)

/-- Advance the counter of free values by `n`. -/
def State.drawnBy (s : State) (n : Nat) : State := s.setFree (s.free + n)

/-- Advance the counter of free values, after one has been used. -/
def State.drawn (s : State) : State := s.setFree (s.free + 1)

/-- Report a signed quantity in field `f`: the `exact` value rounded to the field's unit, off by at most `k` units (a free value),
saturated to the field. -/
def State.report (s : State) (f : Fld) (exact : Int) (k : Nat) : State :=
  let m : Int := (2 ^ (f.wid - 1) : Nat)
  (s.wr f (pattern f.wid (clampInt (-m) (m - 1) (exact + s.freeErr k)))).drawn

/-- A count of units of 2^-k within `b` units of the exact value `a`, both bounds met: a free choice, `j` places on from the present
counter (log 3). -/
def State.nearAt (s : State) (j k : Nat) (b : Int) (a : Int) : Int :=
  let r := fxNear k b a
  r.1 + (Config.freeNat (s.free + j) % max 1 r.2 : Nat)

/-- Report the exact value `a` in field `f`, in units of 2^-k: a free value within `b` units of it, saturated to the field. -/
def State.reportNear (s : State) (f : Fld) (k : Nat) (b : Int) (a : Int) : State :=
  let m : Int := (2 ^ (f.wid - 1) : Nat)
  (s.wr f (pattern f.wid (clampInt (-m) (m - 1) (s.nearAt 0 k b a)))).drawn

/-! ## Answers to an access -/

/-- The access of master `m` is answered with data `d`. -/
def State.answer (s : State) (m d : Nat) : State := s.setBus [⟨m, d, false⟩]

/-- A core takes a trap: it goes on in machine mode (R364), and its reservation ends (R366). Other masters take none. -/
def State.coreTrap (s : State) (m : Nat) : State :=
  if 1 ≤ m ∧ m ≤ 4 then
    let p := spGet s.sup.prot (m - 1) CoreProt.reset
    s.setSup { s.sup with resv := spDel s.sup.resv (m - 1), prot := spSet s.sup.prot (m - 1) { p with user := false } CoreProt.reset }
  else s

/-- The access of master `m` receives an error response; a core takes an access fault (R27). -/
def State.answerError (s : State) (m : Nat) : State := (s.coreTrap m).setBus [⟨m, 0, true⟩]

/-- An unbound channel keeps VALID = 0 (R359). -/
def State.svUnbound (s : State) : State :=
  (List.range 32).foldl (fun s i => if s.flag (Reg.SVS_BIND_EN i) then s else s.set0 (Reg.ACQ_CHVAL_VALID (32 + i))) s

/-! ## Programming errors (R393) -/

def peUnmapped : Nat := 1
def pePolicy : Nat := 2
def peRegionOff : Nat := 3
def peWidth : Nat := 4
def peLocked : Nat := 5
def peBusyMode : Nat := 6
def peState : Nat := 7
def peMisalign : Nat := 8

/-- A programming error: counted, and recorded when no record is held (R393). -/
def State.perr (s : State) (kind m addr : Nat) : State :=
  let s := s.addSat Reg.INT_PERRCNT_COUNT 1
  if s.flag Reg.INT_PERR_VALID then s
  else (((s.set1 Reg.INT_PERR_VALID).wr Reg.INT_PERR_KIND kind).wr Reg.INT_PERR_MASTER m).wr Reg.INT_PERRADDR_ADDR addr

/-! ## Error records (R445 to R449) -/

def clsB : Nat := 1
def clsC : Nat := 2
def clsD : Nat := 3

def kResidue : Nat := 1
def kEcc : Nat := 2
def kCheck : Nat := 3
def kIllop : Nat := 4
def kSupply : Nat := 5
def kClock : Nat := 6
def kXbar : Nat := 7
def kLbist : Nat := 8
def kMbist : Nat := 9
def kFence : Nat := 10

/-- An error of class B or higher: counted (classes B and C), and recorded where no record is held or the record held is of a
lower class (R448). -/
def State.errorRec (s : State) (cls region block kind detail addr : Nat) : State :=
  let s := if cls = clsB then s.addSat Reg.INT_ERRCNT_BCNT 1 else if cls = clsC then s.addSat Reg.INT_ERRCNT_CCNT 1 else s
  let held := s.flag Reg.INT_ERR_VALID
  if held ∧ cls ≤ s.rd Reg.INT_ERR_CLASS then s
  else
    let s := s.wr Reg.INT_ERR_OVR (if held then 1 else 0)
    let s := (((s.set1 Reg.INT_ERR_VALID).wr Reg.INT_ERR_CLASS cls).wr Reg.INT_ERR_REGION region).wr Reg.INT_ERR_BLOCK block
    ((s.wr Reg.INT_ERR_KIND kind).wr Reg.INT_ERR_DETAIL detail |>.wr Reg.INT_ERRADDR_ADDR addr).wr Reg.INT_ERRTIME_TIME s.now

/-- A class A error (R441, R445). -/
def State.errorA (s : State) : State := s.addSat Reg.INT_ERRCNT_ACNT 1

/-- A class B error of a block. -/
def State.errorB (s : State) (b : Block) (kind detail addr : Nat) : State :=
  s.errorRec clsB (regionCode (blockRegion b)) (blockIndex b) kind detail addr

/-! ## Address map and policy (R26, R415 to R417) -/

/-- The part of the address map an address lies in (R26): the policy's target number (R416), or 15 for MQT_ and SEC_. -/
def addrTarget (a : Nat) : Option Nat :=
  if a < 0x10000 then some 0
  else if 0x10000000 ≤ a ∧ a < 0x10400000 then some 1
  else if 0x20000000 ≤ a ∧ a < 0x20C00000 then some 2
  else if 0x30000000 ≤ a ∧ a < 0x30100000 then some 3
  else if 0x40000000 ≤ a ∧ a < 0x41000000 then (if a / 0x10000 = 0x4006 ∨ a / 0x10000 = 0x4007 then some 15 else some 4)
  else if 0x41000000 ≤ a ∧ a < 0x48000000 then some (4 + (a / 0x1000000 - 0x40))
  else if 0x4F000000 ≤ a ∧ a < 0x50000000 then some 12
  else if 0x50000000 ≤ a ∧ a < 0x50100000 then some 13
  else if 0x60000000 ≤ a ∧ a < 0x70000000 then some 14
  else none

/-- The region an access at `a` needs: the window's region (R23, R28); the tile memories need FRM (R29). -/
def addrRegion (a : Nat) : Option Region :=
  if 0x40000000 ≤ a ∧ a < 0x48000000 then regionOf (a / 0x1000000 - 0x40 + 1)
  else if 0x50000000 ≤ a ∧ a < 0x50100000 then some .frm
  else none

/-- The effective debug level (R417): the highest of the fuse, the policy's level from the end of BOOT, and CLOSED after tamper. -/
def State.debugLevel (s : State) : Nat :=
  max s.fuses.dbgLvl (max (if s.mode = mBoot then 0 else s.policy.dbgLvl) (if s.ctl.dbgClosed then 2 else 0))

/-- Whether the policy lets master `m` read (or write) target `t` (R416, R417). The loader (8) is never restricted. -/
def State.permits (s : State) (m : Nat) (write : Bool) (t : Nat) : Bool :=
  if m = 8 then true
  else
    let dbgOk := m ≠ 7 ∨ s.debugLevel = 0 ∨ (s.debugLevel = 1 ∧ write = false)
    let acc := spGet s.policy.access m 0
    let byPolicy :=
      if s.mode = mBoot then true
      else if t = 15 then (if write then bitAt s.policy.secMask m else acc / 2 ^ 8 % 4 ≠ 0)
      else if write then 2 ≤ acc / 2 ^ (2 * t) % 4 else acc / 2 ^ (2 * t) % 4 ≠ 0
    decide dbgOk && byPolicy

/-- The region whose crossbar leads to address `a` (R22, R23, R440): a window's own, SUP for its memories and the flash, ACQ for the capture
SRAM, LKA and LKB for the halves of the point mirror, FRM for the tile memories; none for the wake domain (log 80). -/
def xbarRegion (a : Nat) : Option Region :=
  match addrTarget a with
  | none | some 12 => none
  | some 2 => some .acq
  | some 3 => if a < 0x30080000 then some .lka else some .lkb
  | some 0 | some 1 | some 14 => some .sup
  | some _ => addrRegion a

/-- The region of a master (R23, R33): the host and the partner in NET, the others in SUP. -/
def masterRegion (m : Nat) : Region := if m = 0 ∨ m = 6 then .net else .sup

/-- The place of the chip interconnect's pointer towards a region beside that of the region's crossbar in `sup.rr`. -/
def linkPointer (r : Region) : Nat := 8 + regionCode r

/-- The grants that let an access of master `m` through to address `a` (R22): the pointer of the target region's crossbar moves to the master
that follows, and where the master's region is another one, the chip interconnect's pointer towards the target to the region code that
follows; both wrap from 8 to 0. -/
def State.granted (s : State) (m a : Nat) : State :=
  match xbarRegion a with
  | none => s
  | some r =>
    let rr := spSet s.sup.rr (regionCode r) ((m + 1) % 9) 0
    let f := masterRegion m
    s.setSup { s.sup with rr := if f = r then rr else spSet rr (linkPointer r) ((regionCode f + 1) % 9) 0 }

/-- The number of core `c` as mhartid reads it (R364). -/
def mhartid (c : Fin 4) : Nat := c.val

/-- How many low bits of `x` are ones, at most `fuel`. -/
def lowOnes (fuel x : Nat) : Nat :=
  match fuel with
  | 0 => 0
  | fuel + 1 => if x % 2 = 1 then lowOnes fuel (x / 2) + 1 else 0

/-- Whether protection entry `i` of a core covers the word of address `a` (R364): TOR, NA4 or NAPOT as the RISC-V privileged specification has them
(log 92). -/
def CoreProt.covers (p : CoreProt) (i a : Nat) : Bool :=
  let x := p.addr.getD i 0
  match p.cfg.getD i 0 / 8 % 4 with
  | 0 => false
  | 1 => decide ((if i = 0 then 0 else p.addr.getD (i - 1) 0) ≤ a / 4) && decide (a / 4 < x)
  | 2 => a / 4 = x
  | _ => let k := 2 ^ (lowOnes 32 x + 1); a / 4 / k = x / k

/-- Whether a core's own protection lets its access at `a` leave it: the lowest entry that covers the word decides, in machine mode only where it is
locked; where none does, machine mode may and user mode may not (R364, log 92). -/
def CoreProt.allows (p : CoreProt) (write : Bool) (a : Nat) : Bool :=
  match (List.range 16).find? (fun i => p.covers i a) with
  | none => !p.user
  | some i => (!p.user && !bitAt (p.cfg.getD i 0) 7) || bitAt (p.cfg.getD i 0) (if write then 1 else 0)

/-- Whether an access of master `m` leaves it: a core checks its own (R364). -/
def State.leaves (s : State) (m : Nat) (write : Bool) (a : Nat) : Bool :=
  m = 0 || decide (4 < m) || (spGet s.sup.prot (m - 1) CoreProt.reset).allows write a

/-- A transaction of master `m` meets an uncorrectable error in a buffer of the chip interconnect: an error response and a class B error, and
nothing is fenced (R447). The interconnect has no reset code and no block window (log 95). -/
def State.busFault (s : State) (m a : Nat) : State :=
  ((s.setSup { s.sup with busBad := spDel s.sup.busBad m }).answerError m).errorRec clsB 0 0 kEcc 0 a

/-- The gate an access passes before it acts: the core's own protection, whose refusal is the core's access fault (R364), the interconnect, the address map, the
policy (R416), then the region's power (R28). A refused access is answered by an error response (R27) and, where it left its core, recorded;
otherwise the crossbars grant it, the answer is 0 and `k` acts. -/
def State.gate (s : State) (m : Master) (write : Bool) (a : Nat) (k : State → State) : State :=
  if s.leaves m write a = false then s.answerError m
  else if (spFind s.sup.busBad m.val).isSome then s.busFault m a
  else
  match addrTarget a with
  | none => (s.answerError m).perr peUnmapped m a
  | some t =>
    if s.permits m write t = false then (s.answerError m).perr pePolicy m a
    else
      match addrRegion a with
      | none => k ((s.granted m a).answer m 0)
      | some r => if s.regionOn r then k ((s.granted m a).answer m 0) else (s.answerError m).perr peRegionOff m a

/-- Whether master `m` reaches address `a`: what `gate` asks. -/
def State.reaches (s : State) (m : Master) (write : Bool) (a : Nat) : Bool :=
  match addrTarget a with
  | none => false
  | some t => s.leaves m write a && (spFind s.sup.busBad m.val).isNone && s.permits m write t && (match addrRegion a with | none => true | some r => s.regionOn r)

end Sys2Proof.Machine
end

