-- ==== Sys2Proof/Machine/Irq.lean ====
section
/-! DEFINITION. The interrupt tree (13, R389 to R392): what is pending at each stage, message-signalled interrupts, and the answer
that ends every command's meaning. -/

namespace Sys2Proof.Machine

/-- Add to what the device has sent. -/
def State.emit (s : State) (x : Sent) : State := s.setSent (x :: s.sent)

/-- Whether any field of the register at address `a` is listed as not 0; for the alarm registers, whose reset value is 0, whether the
register is not 0. -/
def State.wordSet (s : State) (a : Nat) : Bool := s.regs.any (fun e => e.1 / 32 = a && e.2 != 0)

/-- The size of ring `n` in bytes (R371). -/
def State.ringSize (s : State) (n : Nat) : Nat := 64 * 2 ^ s.rd (Reg.RNG_CFG_SZ n)

/-- The fill of ring `n` (R371). -/
def State.ringFill (s : State) (n : Nat) : Nat :=
  (s.rd (Reg.RNG_WR_WR n) + 2 * s.ringSize n - s.rd (Reg.RNG_RD_RD n) % (2 * s.ringSize n)) % (2 * s.ringSize n)

/-- Whether ring `n` is at or above its watermark (R373). -/
def State.ringAtWm (s : State) (n : Nat) : Bool := s.rd (Reg.RNG_WM_WM n) * 64 ≤ s.ringFill n

/-- The watermark of result queue `q` in force: 0 and values above 1,024 behave as 1,024. -/
def State.queueWm (s : State) (q : Nat) : Nat :=
  let w := s.rd (Reg.ACQ_QCFG_WM q)
  if w = 0 ∨ 1024 < w then 1024 else w

/-- Whether mailbox channel `c` makes master `m` pending: it is the receiver of a full channel, or the sender of one with a notice. -/
def State.mbxPends (s : State) (m c : Nat) : Bool :=
  s.flag (Reg.MBX_CCFG_EN c) &&
    ((s.flag (Reg.MBX_CSTAT_FULL c) && s.rd (Reg.MBX_CCFG_RCV c) = m) || (s.rd (Reg.MBX_CNOTE_KIND c) != 0 && s.rd (Reg.MBX_CCFG_SND c) = m))

/-- The interrupt of block window `i` of region `r` (reset code minus 1): whether a condition its chapter names holds (R389). -/
def State.blockIrq (s : State) (r i : Nat) : Bool :=
  let base := 0x40000000 + r * 0x1000000 + i * 0x10000
  match r, i with
  | 0, 0 => s.flag Reg.SUP_MODE_CHG || s.flag Reg.SUP_MODESTAT_REFUSED
      || [Reg.SUP_TRIP_OV, Reg.SUP_TRIP_ROG, Reg.SUP_TRIP_FLT, Reg.SUP_TRIP_REDTRIP, Reg.SUP_TRIP_MODFENCE, Reg.SUP_TRIP_OVRTRIP,
          Reg.SUP_TRIP_ARMFENCE, Reg.SUP_TRIP_IHOLD, Reg.SUP_TRIP_FRMFENCE, Reg.SUP_TRIP_INHIBIT, Reg.SUP_TRIP_COMMAND,
          Reg.SUP_CORESTAT_WDT0, Reg.SUP_CORESTAT_WDT1, Reg.SUP_CORESTAT_WDT2, Reg.SUP_CORESTAT_WDT3].any s.flag
  | 0, 1 => (List.range 32).any (fun c => s.flag (Reg.MBX_CSTAT_FULL c) || s.rd (Reg.MBX_CNOTE_KIND c) != 0)
  | 0, 3 => false
  | 0, 4 => s.flag Reg.DMA_ALRM_REQLOST || s.flag Reg.DMA_ERRCH_ERR
      || (List.range 32).any (fun c => s.rdBit Reg.DMA_DONE_DONE c && s.flag (Reg.DMA_CFG_IRQEN c))
  | 0, 5 => (List.range 64).any (fun n => s.flag (Reg.RNG_WM_IRQEN n) && s.ringAtWm n)
  | 0, 10 => s.flag Reg.PWR_STAT_ALERT || s.flag Reg.PWR_STAT_AVSFAIL || s.flag Reg.PWR_ENV_COND || s.flag Reg.PWR_ENV_TJHI
  | 1, 1 => s.wordSet (base + 8) || s.rd Reg.PTP_STAT_TXQN != 0
  | 2, 0 => (List.range 4).any (fun q => s.queueWm q ≤ s.rd (Reg.ACQ_QSTAT_FILL q))
  | 2, 1 => s.wordSet 0x42010210
  | 2, 2 => s.wordSet (base + 8) || max 1 (s.rd Reg.CST_DONE_DONEWM) ≤ s.rd Reg.CST_DONE_NDONE
  | 3, 0 => s.wordSet (base + 8) || s.flag Reg.FRM_SEQSTAT_CLAIMFAIL || s.flag Reg.FRM_SEQSTAT_COLLISION || s.flag Reg.FRM_SEQSTAT_CLOSEFAIL
  | 3, 1 => false
  | _, _ => s.wordSet (base + 8)

/-- INT_RCAUSEr: one bit a block window (R389). -/
def State.rcause (s : State) (r : Nat) : Nat :=
  ((List.range 16).map (fun i => if s.blockIrq r i then 2 ^ i else 0)).foldl (· + ·) 0

/-- INT_SUM: the regions, PERR (bit 8) and ERR (bit 9) (R389). -/
def State.intSum (s : State) : Nat :=
  ((List.range 8).map (fun r => if s.rcause r ≠ 0 then 2 ^ r else 0)).foldl (· + ·) 0
    + (if s.flag Reg.INT_PERR_VALID then 256 else 0) + (if s.flag Reg.INT_ERR_VALID then 512 else 0)

/-- The master of an interrupt target (R390): cores for 0 to 3, the host for 4, none for IRQ_N. -/
def targetMaster (t : Nat) : Option Nat := if t < 4 then some (t + 1) else if t = 4 then some 0 else none

/-- The blocks of region `r` pending for target `t` after its mask, with the MBX_ bit judged by the target's master (R390). -/
def State.targetCause (s : State) (t r : Nat) : Nat :=
  let en := s.rd (Reg.INT_EN_EN t r)
  ((List.range 16).map (fun i =>
    if bitAt en i ∧ (if r = 0 ∧ i = 1 then (match targetMaster t with
        | some m => (List.range 32).any (s.mbxPends m)
        | none => false) else s.blockIrq r i) = true
    then 2 ^ i else 0)).foldl (· + ·) 0

/-- INT_TPENDt (R390). -/
def State.targetPend (s : State) (t : Nat) : Nat :=
  ((List.range 8).map (fun r => if s.targetCause t r ≠ 0 then 2 ^ r else 0)).foldl (· + ·) 0
    + (if s.flag Reg.INT_PERR_VALID && s.flag (Reg.INT_TEN_PERR t) then 256 else 0)
    + (if s.flag Reg.INT_ERR_VALID && s.flag (Reg.INT_TEN_ERR t) then 512 else 0)

/-- The level of IRQ_N: low while target 5 is pending (R391). -/
def State.irqN (s : State) : Bool := s.targetPend 5 = 0

/-- INTA: asserted while target 4 is pending and the host has not enabled MSI (R392), but for D3hot (R361, log 89). -/
def State.inta (s : State) : Bool := !s.sup.msiOn && !s.net.d3 && s.targetPend 4 != 0

/-- Whether MSI vector `v` is pending: a pending region or record of target 4 has it, modulo the vectors granted (R392). -/
def State.vectorPend (s : State) (v : Nat) : Bool :=
  let g := 2 ^ s.rd Reg.NET_PCIE_MSIV
  let p := s.targetPend 4
  (List.range 8).any (fun r => bitAt p r && s.rd Reg.INT_HVEC_RVEC / 2 ^ (3 * r) % 8 % g = v)
    || ((bitAt p 8 || bitAt p 9) && s.rd Reg.INT_HVEC_EVEC % g = v)

/-- Send the MSI of vector `v` and disarm it, when it is pending and armed (R392). -/
def State.msiVector (s : State) (v : Nat) : State :=
  if (spFind s.sup.msiOff v).isSome = false ∧ s.vectorPend v = true then
    (s.setSup { s.sup with msiOff := spPut s.sup.msiOff v 1 }).emit (.msi v)
  else s

/-- Send what MSI vectors have become pending while armed (R392); none in D3hot (R361, log 89). -/
def State.msiSend (s : State) : State :=
  if s.sup.msiOn && !s.net.d3 then (List.range 8).foldl State.msiVector s else s

/-- The end of a command: the interrupt tree settles, and the device goes on. -/
def done (s : State) : Result := .next s.msiSend

end Sys2Proof.Machine
end

