-- ==== Sys2Proof/Machine/Gate.lean ====
section
/-! DEFINITION. The switches of the local bridge pairs as the rows of R282 leave them, and what a change of mode or a halt does to
them (R271, R285). -/

namespace Sys2Proof.Machine

/-- True time in quarter nanoseconds. -/
def State.nowQ (s : State) : Nat := s.clk.ticks * 16

/-- Let time pass until true time reaches `q` quarter nanoseconds. -/
def State.elapseToQ (s : State) (q : Nat) : State := s.elapseTo ((q + 15) / 16)

def State.pair (s : State) (p : Nat) : LbrPair := spGet s.brg.pairs p LbrPair.reset
def State.putPair (s : State) (p : Nat) (x : LbrPair) : State :=
  s.setBrg { s.brg with pairs := spSet s.brg.pairs p x LbrPair.reset }

/-- The longest time, up to `q`, for which the low side has been on without interruption within the present period (R279). -/
def LbrPair.lowest (x : LbrPair) (q : Nat) : Nat := if x.lOn then max x.lowRun (q - max x.lAt x.start) else x.lowRun

/-- The pair's switches are driven off and its placed edges dropped. -/
def LbrPair.off (x : LbrPair) (q : Nat) : LbrPair :=
  { x with hOn := false, lOn := false, plan := [], lowRun := x.lowest q, hOff := if x.hOn then q else x.hOff, lOff := if x.lOn then q else x.lOff,
           lAt := if x.lOn then q else x.lAt }

/-- Drive pair `p` off by a row from 1 to 5 of R282: its carry restarts at 0 (R277). A two-step sequence is left to run. -/
def State.pairOff (s : State) (p : Nat) : State :=
  let x := s.pair p
  if x.two = 0 then s.putPair p { x.off s.nowQ with acted := true } else s.putPair p { x with plan := [], acted := true }

/-- Drive every pair off. -/
def State.pairsOff (s : State) : State := (List.range 12).foldl State.pairOff s

/-- Whether local bridge pairs may run in mode `m` (R271). -/
def bridgeMode (m : Nat) : Bool := m = mIdle || m = mPrecharge || m = mReady || isForming m || m = mMaintenance

/-- Whether the period counter of a pair runs: the conditions of R271 but MODE, which is latched at each period start (R272, log 78). -/
def State.pairCounts (s : State) (p : Nat) : Bool :=
  s.works .lbr && s.works .prt && s.flag (Reg.LBR_PCFG_PEN p) && bridgeMode s.mode

/-- MODE of a pair: as latched at the start of the present period (R272), before the first one as written. -/
def State.pairUses (s : State) (p : Nat) : Nat := if (s.pair p).began then (s.pair p).mode else s.rd (Reg.LBR_PCFG_MODE p)

/-- Whether a pair runs (R271). -/
def State.pairRuns (s : State) (p : Nat) : Bool := s.pairCounts p && s.pairUses p != 0

/-- A device halt begins: the pairs freeze (R285). -/
def State.haltPairs (s : State) : State := (s.set1 Reg.LBR_STAT_HALTED).setBrg { s.brg with haltAt := some s.clk.ticks }

/-- A device halt ends: each counter resumes from its held value, that of a pair enabled during the halt from 0 (R285). The outputs of CHOPPER
pairs were not held. -/
def State.resumePairs (s : State) : State :=
  match s.brg.haltAt with
  | none => s
  | some t =>
    let d := (s.clk.ticks - t) * 16
    let f (x : LbrPair) : LbrPair :=
      { x with next := x.next.map (fun n => if x.began = false ∧ t * 16 ≤ n then s.nowQ else n + d), start := x.start + d,
               plan := if x.mode = 3 then x.plan else x.plan.map (fun e => { e with time := e.time + d }) }
    (s.setBrg { s.brg with pairs := s.brg.pairs.map (fun e => (e.1, f e.2)), haltAt := none }).set0 Reg.LBR_STAT_HALTED

/-- An event that may trigger a cast at the next row (R328): 0 PRT, 1 SAF, 2 MODE, 3 SWTRIG. -/
def State.castEvent (s : State) (k : Nat) : State := s.setCst { s.cst with evt := putBit s.cst.evt k true }

end Sys2Proof.Machine
end

