-- ==== Sys2Proof/Machine/Ecc.lean ====
section
/-! DEFINITION. The extended Hamming code of R482: the check bits of a word, and what a stored word with its check bits reads as. -/

namespace Sys2Proof.Machine

/-- Exclusive OR of the bits of a list. -/
def parityOf (l : List Bool) : Bool := l.foldl (fun a b => a != b) false

/-- Whether `n` is a power of two. -/
def isPow2 (n : Nat) : Bool := n != 0 && 2 ^ n.log2 = n

/-- The positions of `k` data bits: the integers from 3 upwards that are no power of two (R482). -/
def dataPositions (k : Nat) : List Nat := ((List.range (2 * k + 8)).filter (fun n => 3 ≤ n && !isPow2 n)).take k

/-- The number of Hamming check bits for `k` data bits: 5 for 20, 6 for 32 and 48 (R482). -/
def hammingBits (k : Nat) : Nat := if k ≤ 20 then 5 else 6

/-- Hamming check bit `j` of a `k`-bit word. -/
def hammingBit (k j d : Nat) : Bool :=
  parityOf ((dataPositions k).zipIdx.map (fun pi => pi.1 / 2 ^ j % 2 = 1 && d / 2 ^ pi.2 % 2 = 1))

/-- The check bits of a `k`-bit word: the Hamming bits from bit 0, the overall parity bit above them (R482). -/
def eccCheck (k d : Nat) : Nat :=
  let m := hammingBits k
  let cs := (List.range m).map (fun j => hammingBit k j d)
  let ds := (List.range k).map (fun i => decide (d / 2 ^ i % 2 = 1))
  let cw := (cs.zipIdx.map (fun ci => if ci.1 then 2 ^ ci.2 else 0)).foldl (· + ·) 0
  cw + (if parityOf (ds ++ cs) then 2 ^ m else 0)

/-- The stored word: data below, check bits above. -/
def eccStore (k d : Nat) : Nat := d % 2 ^ k + eccCheck k (d % 2 ^ k) * 2 ^ k

/-- What a read of a stored word finds. -/
inductive EccRead where
  | good (d : Nat)
  | corrected (d : Nat)
  | bad
  deriving DecidableEq, Repr

/-- Read a stored word of `k` data bits and its check bits: no error, one bit corrected, or uncorrectable (R441, R482). -/
def eccRead (k w : Nat) : EccRead :=
  let m := hammingBits k
  let d := w % 2 ^ k
  let c := w / 2 ^ k % 2 ^ (m + 1)
  let syndrome := ((List.range m).map (fun j => if (c / 2 ^ j % 2 = 1) != hammingBit k j d then 2 ^ j else 0)).foldl (· + ·) 0
  let odd := parityOf ((List.range (k + m + 1)).map (fun i => w / 2 ^ i % 2 = 1))
  if syndrome = 0 then (if odd then .corrected d else .good d)
  else if odd = false then .bad
  else if isPow2 syndrome then .corrected d
  else
    match (dataPositions k).zipIdx.find? (fun pi => pi.1 = syndrome) with
    | some pi => .corrected (if d / 2 ^ pi.2 % 2 = 1 then d - 2 ^ pi.2 else d + 2 ^ pi.2)
    | none => .bad

end Sys2Proof.Machine
end

