-- ==== Sys2Proof/Machine/Memory.lean ====
section
/-! DEFINITION. The byte memories (SUP SRAM, capture SRAM, point mirror; R26) in one canonical form, and their error-correcting
code (R440, R441). -/

namespace Sys2Proof.Machine

/-- What a byte of memory that nothing has written reads as. DESIGN CHOICE (log 2). -/
def memDefault : Byte := 0

/-- The byte at address `a`. -/
def State.memByte (s : State) (a : Nat) : Byte := spGet s.mem a memDefault

/-- Write the byte at address `a`. -/
def State.memPut (s : State) (a : Nat) (b : Byte) : State := s.setMem (spSet s.mem a b memDefault)

/-- The canonical form of a memory: addresses strictly rising, no cell equal to what an unlisted address reads as. -/
def Memory.wf (m : List Host.Cell) : Bool := spSorted 0 m && m.all (fun c => c.2 != memDefault)

/-- The little-endian value of `n` bytes from `a` (R1). -/
def State.memRead (s : State) (a n : Nat) : Nat :=
  match n with
  | 0 => 0
  | n + 1 => (s.memByte a).toNat + 256 * s.memRead (a + 1) n

/-- Write the low `n` bytes of `v` from `a`, little-endian (R1). -/
def State.memWrite (s : State) (a n v : Nat) : State :=
  match n with
  | 0 => s
  | n + 1 => (s.memPut a (BitVec.ofNat 8 v)).memWrite (a + 1) n (v / 256)

/-- Write a list of bytes from `a`. -/
def State.memBytes (s : State) (a : Nat) (l : List Nat) : State :=
  match l with
  | [] => s
  | b :: r => (s.memPut a (BitVec.ofNat 8 b)).memBytes (a + 1) r

/-- The arrays of R440 that are byte memories here, and the address of their first word. -/
def arrayBase (array : Nat) : Nat := if array = 0 then 0x10000000 else if array = 2 then 0x20000000 else 0x30000000

/-- The key of word `w` of array `array` in the store of upset bits. -/
def upsetKey (array w : Nat) : Nat := array * 2 ^ 32 + w

/-- The upset bits of word `w` of array `array`: data bits below, check bits above; 0 where none is upset. -/
def State.upsetOf (s : State) (array w : Nat) : Nat := spGet s.upset (upsetKey array w) 0

/-- Replace the upset bits of a word. -/
def State.putUpset (s : State) (array w x : Nat) : State := s.setUpset (spSet s.upset (upsetKey array w) x 0)

/-- Count a corrected error of an array, class A (R441); `bst.corr` counts those of its present scrub interval (R454). -/
def State.countCorr (s : State) (array : Nat) : State :=
  let s := (s.addSat (Reg.BST_ECC_CORR array) 1).errorA
  s.setBst { s.bst with corr := spSet s.bst.corr array (spGet s.bst.corr array 0 + 1) 0 }

/-- Count an uncorrectable error of an array and report it as class B with the array as its origin (R440). -/
def State.countUncorr (s : State) (array addr : Nat) (b : Block) : State :=
  (s.addSat (Reg.BST_ECC_UNCORR array) 1).errorB b kEcc array addr

/-- The data bits of a word of array `a` (R440). -/
def arrayBits (a : Nat) : Nat := if a = 4 then 48 else if a = 5 then 20 else 32

/-- The words of an array that are upset. -/
def State.upsetWords (s : State) (a : Nat) : List Nat :=
  (s.upset.filter (fun e => e.1 / 2 ^ 32 = a)).map (fun e => e.1 % 2 ^ 32)

/-- A block reads the words of one of its arrays 6 to 9 that satisfy `p` through their code (R441): single-bit errors are written back
corrected and counted, and the words that are uncorrectable, each counted, follow. -/
def State.readWords (s : State) (a : Nat) (p : Nat → Bool) : State × List Nat :=
  ((s.upsetWords a).filter p).foldl (fun (x : State × List Nat) w =>
    match eccRead (arrayBits a) (x.1.upsetOf a w) with
    | .good _ => x
    | .corrected _ => ((x.1.putUpset a w 0).countCorr a, x.2)
    | .bad => (x.1.addSat (Reg.BST_ECC_UNCORR a) 1, x.2 ++ [w])) (s, [])

/-- The words of array `a` that satisfy `p` are written whole (R441). -/
def State.cleanWords (s : State) (a : Nat) (p : Nat → Bool) : State :=
  s.setUpset (s.upset.filter (fun e => !(decide (e.1 / 2 ^ 32 = a) && p (e.1 % 2 ^ 32))))

/-- The block that owns an array of R440, for error records; SUP SRAM and the boot ROM have none, and stand under BST_ (log 30). -/
def arrayBlock (array : Nat) : Block :=
  match array with
  | 2 => .cst | 3 | 8 => .lnk 0 | 4 | 5 => .arm | 6 => .acq | 7 => .mod | 9 => .net | 10 => .mqt | _ => .bst

/-- The block that owns word `w` of an array: in the point mirror and the link buffers the word's port (R440; log 95). -/
def wordBlock (array w : Nat) : Block :=
  match array with
  | 3 => .lnk (Fin.ofNat 32 (w / 8192))
  | 8 => .lnk (Fin.ofNat 32 (w / 2048))
  | 9 => if w < 8192 then .net else if w < 12288 then .svs else .mir
  | _ => arrayBlock array

/-- Read the 32-bit word at `a` of byte-memory array `array` through its code: corrected and written back, or `none` where it is
uncorrectable (R441). -/
def State.readWord (s : State) (array a : Nat) : State × Option Nat :=
  let w := (a - arrayBase array) / 4
  let d := s.memRead a 4
  let x := s.upsetOf array w
  if x = 0 then (s, some d)
  else
    match eccRead 32 (eccStore 32 d ^^^ x) with
    | .good v => (s, some v)
    | .corrected v => ((((s.memWrite a 4 v).putUpset array w 0).countCorr array), some v)
    | .bad => (s.countUncorr array a (wordBlock array w), none)

/-- Whether the word at `a` of a byte-memory array can be read: it has no uncorrectable error (R441). -/
def State.wordReadable (s : State) (array a : Nat) : Bool :=
  let x := s.upsetOf array ((a - arrayBase array) / 4)
  x = 0 || (match eccRead 32 (eccStore 32 (s.memRead a 4) ^^^ x) with | .bad => false | _ => true)

/-- A block reads the word at `a` of a byte-memory array: a single-bit error is corrected in the stored pattern and counted, an
uncorrectable word keeps its pattern and is reported (R440, R441). -/
def State.wordSeen (array : Nat) (s : State) (a : Nat) : State :=
  let w := (a - arrayBase array) / 4
  let x := s.upsetOf array w
  if x = 0 then s
  else
    let d := s.memRead a 4
    match eccRead 32 (eccStore 32 d ^^^ x) with
    | .good _ => s
    | .corrected v => (s.putUpset array w (eccStore 32 v ^^^ eccStore 32 d)).countCorr array
    | .bad => s.countUncorr array a (wordBlock array w)

/-- Write `size` bytes of `v` at `a` of a byte-memory array: a whole word replaces the stored pattern; a narrower write of an
uncorrectable word is refused (`none`), R441. -/
def State.writeMem (s : State) (array a size v : Nat) : Option State :=
  let wa := a / 4 * 4
  let w := (wa - arrayBase array) / 4
  if size = 4 then some ((s.memWrite a 4 v).putUpset array w 0)
  else
    match s.readWord array wa with
    | (s', some _) => some ((s'.memWrite a size v).putUpset array w 0)
    | (_, none) => none

end Sys2Proof.Machine
end

