-- ==== Sys2Proof/Machine/Supervisor.lean ====
section
/-! DEFINITION. The supervisor side (13): core control and watchdogs, mailboxes, semaphores, rings, MSI and SUP SRAM. -/

namespace Sys2Proof.Machine

/-! ## Timers of this family -/

def tmWdt (c : Nat) : Nat := 100 + c
def tmMbx (c : Nat) : Nat := 200 + c

/-! ## Mailboxes -/

/-- Post notice `k` to the sender of channel `c`; a new notice replaces an unread one and sets NOVR (R386). -/
def State.mbxPost (s : State) (c k : Nat) : State :=
  let s := if s.rd (Reg.MBX_CNOTE_KIND c) = 0 then s else s.set1 (Reg.MBX_CNOTE_NOVR c)
  s.wr (Reg.MBX_CNOTE_KIND c) k

def noteAcked : Nat := 1
def noteExpired : Nat := 2
def noteAborted : Nat := 3
def noteRefused : Nat := 4

/-- Whether `m` is the sender or the receiver of the bound channel `c`. -/
def State.mbxParty (s : State) (m c : Nat) : Bool :=
  s.flag (Reg.MBX_CCFG_EN c) && (s.rd (Reg.MBX_CCFG_SND c) = m || s.rd (Reg.MBX_CCFG_RCV c) = m)

/-- An access to the registers of channel `c`: other masters than its parties, and every master of an unbound channel, receive an
error response with kind POLICY (R381). -/
def State.mbxGate (s : State) (m : Master) (c a : Nat) (k : State → State) : State :=
  s.gate m true a (fun s => if s.mbxParty m c then k s else (s.answerError m).perr pePolicy m a)

/-- Whether master `m` is held in reset: a core whose STATE is RESET, or the host while the PCIe link is down (log 12). -/
def State.masterInReset (s : State) (m : Nat) : Bool :=
  match m with
  | 0 => s.rd Reg.NET_PCIE_LINKUP = 0
  | 1 => s.rd Reg.SUP_CORESTAT_STATE0 = 0
  | 2 => s.rd Reg.SUP_CORESTAT_STATE1 = 0
  | 3 => s.rd Reg.SUP_CORESTAT_STATE2 = 0
  | 4 => s.rd Reg.SUP_CORESTAT_STATE3 = 0
  | _ => false

/-- The sender writes data word `i` while the channel is EMPTY; while it is FULL the write is discarded with the notice REFUSED (R382). -/
def State.mbxDataWrite (s : State) (m : Master) (c i v : Nat) : State :=
  s.mbxGate m c (0x40011040 + 0x100 * c + 4 * i) (fun s =>
    if s.rd (Reg.MBX_CCFG_SND c) ≠ m.val then s.perr peState m (0x40011040 + 0x100 * c + 4 * i)
    else if s.flag (Reg.MBX_CSTAT_FULL c) then (s.mbxPost c noteRefused).perr peState m (0x40011040 + 0x100 * c + 4 * i)
    else s.wr (Reg.MBX_D_DATA c i) v)

/-- The sender posts the message (R382): the channel becomes FULL, SEQ counts and the expiry timer starts. -/
def State.mbxGo (s : State) (m : Master) (c : Nat) : State :=
  let a := 0x40011004 + 0x100 * c
  s.mbxGate m c a (fun s =>
    if s.rd (Reg.MBX_CCFG_SND c) ≠ m.val then s.perr peState m a
    else if s.flag (Reg.MBX_CSTAT_FULL c) then (s.mbxPost c noteRefused).perr peState m a
    else if s.masterInReset (s.rd (Reg.MBX_CCFG_RCV c)) then s.mbxPost c noteAborted
    else ((s.set1 (Reg.MBX_CSTAT_FULL c)).addWrap (Reg.MBX_CSTAT_SEQ c) 1).startTimer (tmMbx c))

/-- The receiver acknowledges (R383): the channel becomes EMPTY and ACKED is posted; on an EMPTY channel only LATEACK counts. -/
def State.mbxAck (s : State) (m : Master) (c : Nat) : State :=
  let a := 0x40011004 + 0x100 * c
  s.mbxGate m c a (fun s =>
    if s.rd (Reg.MBX_CCFG_RCV c) ≠ m.val then s.perr peState m a
    else if s.flag (Reg.MBX_CSTAT_FULL c) then ((s.set0 (Reg.MBX_CSTAT_FULL c)).stopTimer (tmMbx c)).mbxPost c noteAcked
    else s.addSat (Reg.MBX_CSTAT_LATEACK c) 1)

/-- EXP passes without an ACK (R384): the message is withdrawn and EXPIRED posted; the data words keep their contents. -/
def State.mbxExpiry (s : State) (c : Nat) : State :=
  if s.flag (Reg.MBX_CSTAT_FULL c) then
    ((s.expire (tmMbx c) (ticksUs (s.rd (Reg.MBX_CCFG_EXP c)))).set0 (Reg.MBX_CSTAT_FULL c)).mbxPost c noteExpired
  else s

/-- The sender clears the channel's notice (R386). -/
def State.mbxNoteClr (s : State) (m : Master) (c : Nat) : State :=
  let a := 0x4001100C + 0x100 * c
  s.mbxGate m c a (fun s =>
    if s.rd (Reg.MBX_CCFG_SND c) ≠ m.val then s.perr peState m a
    else (s.set0 (Reg.MBX_CNOTE_KIND c)).set0 (Reg.MBX_CNOTE_NOVR c))

/-- The reset of master `m` at channel `c` (R385): as receiver it empties the channel, clears its data words and posts ABORTED; as
sender it clears the channel's notice. -/
def State.mbxMasterReset (m : Nat) (s : State) (c : Nat) : State :=
  if s.flag (Reg.MBX_CCFG_EN c) = false then s
  else
    let s := if s.rd (Reg.MBX_CCFG_SND c) = m then (s.set0 (Reg.MBX_CNOTE_KIND c)).set0 (Reg.MBX_CNOTE_NOVR c) else s
    if s.rd (Reg.MBX_CCFG_RCV c) = m then
      let s := (s.set0 (Reg.MBX_CSTAT_FULL c)).stopTimer (tmMbx c)
      ((List.range 16).foldl (fun s i => s.wr (Reg.MBX_D_DATA c i) 0) s).mbxPost c noteAborted
    else s

/-! ## Semaphores -/

/-- The owner of semaphore `n`; 0xF where it is free. -/
def State.semOwner (s : State) (n : Nat) : Nat := spGet s.sup.sem n 15

/-- Set the owner of semaphore `n`. -/
def State.putSem (s : State) (n o : Nat) : State := s.setSup { s.sup with sem := spSet s.sup.sem n o 15 }

/-- Release every semaphore held by master `m`, and set AUTOREL where there was one (R388). -/
def State.semMasterReset (s : State) (m : Nat) : State :=
  let held := s.sup.sem.any (fun e => e.2 = m)
  let s := s.setSup { s.sup with sem := s.sup.sem.filter (fun e => e.2 ≠ m) }
  if held then s.set1 Reg.SEM_ALRM_AUTOREL else s

/-- The order in which a crossbar serves the masters that meet in one cycle: from its round-robin pointer upwards, wrapping from 8
to 0 (R22). -/
def serveOrder (ptr : Nat) (ms : List Master) : List Master :=
  ((List.range 9).map (fun i => (ptr + i) % 9)).filterMap (fun k => ms.find? (fun m => m.val = k))

/-- The read of SEM_LOCKn by one master (R387): it takes a free semaphore; the answer gives GRANT and the owner after the read. -/
def State.semRead (n : Nat) (s : State) (m : Master) : State :=
  let answers := s.bus
  let s := s.gate m false (0x40020100 + 4 * n) (fun s =>
    let s := if s.semOwner n = 15 then s.putSem n m.val else s
    s.answer m ((if s.semOwner n = m.val then 2 ^ 31 else 0) + s.semOwner n))
  s.setBus (answers ++ s.bus)

/-- Reads of SEM_LOCKn that meet in one crossbar cycle, served in the order of R22. -/
def State.semReads (s : State) (ms : List Master) (n : Nat) : State :=
  (serveOrder (spGet s.sup.rr 1 0) ms).foldl (State.semRead n) (s.setBus [])

/-- A write of SEM_LOCKn: the owner releases it; any other master is refused (R388). -/
def State.semWrite (s : State) (m : Master) (n : Nat) : State :=
  s.gate m true (0x40020100 + 4 * n) (fun s =>
    if s.semOwner n = m.val then s.putSem n 15 else s.perr peState m (0x40020100 + 4 * n))

/-- A forced release (R388). -/
def State.semForce (s : State) (m : Master) (n : Nat) : State :=
  s.gate m true 0x4002000C (fun s => (s.putSem n 15).set1 Reg.SEM_ALRM_FORCED)

/-! ## Cores -/

/-- The STATE field of core `c` in SUP_CORESTAT: 0 RESET, 1 RUNNING, 2 HALTED, 3 WFI. -/
def coreState (c : Nat) : Fld := ⟨0x40000204, 8 * c, 2, 0⟩

/-- The WDT flag of core `c` in SUP_CORESTAT. -/
def coreWdt (c : Nat) : Fld := ⟨0x40000204, 8 * c + 2, 1, 0⟩

/-- The state of a core that would run: HALTED while the device halt lasts or the core is held by External Debug (R370). -/
def State.runState (s : State) (c : Nat) : Nat := if s.flag Reg.SUP_DBG_HALTED || (spFind s.sup.dbgHalt c).isSome then 2 else 1

/-- Start core `c` at SUP_BOOTADDRc (R365). -/
def State.coreStartAt (s : State) (c : Nat) : State :=
  (s.wr (coreState c) (s.runState c)).setSup { s.sup with coreStart := spSet s.sup.coreStart c (s.rd (Reg.SUP_BOOTADDR_ADDR c)) 0 }

/-- The reset of a master's claims: its semaphores and mailbox channels (R369, R385, R388). -/
def State.masterReset (s : State) (m : Nat) : State :=
  (List.range 32).foldl (State.mbxMasterReset m) (s.semMasterReset m)

/-- A reset of core `c` (R365, R369): it is in machine mode without protection (R364), its semaphores are released, the channels it receives are aborted, its reservation is lost;
it stays in reset while RUN is 0 and otherwise restarts at SUP_BOOTADDRc. DMA channels run on. -/
def State.coreReset (s : State) (c : Nat) : State :=
  let s := (s.wr (coreState c) 0).setSup { s.sup with resv := spDel s.sup.resv c, prot := spDel s.sup.prot c }
  let s := s.masterReset (c + 1)
  if s.rdBit Reg.SUP_CORECTRL_RUN c then s.coreStartAt c else s

/-! ## SUP SRAM (R366, R440, R441) -/

/-- A write of the word at `a` clears every reservation on it (R366). -/
def State.clearResv (s : State) (a : Nat) : State :=
  s.setSup { s.sup with resv := s.sup.resv.filter (fun e => e.2 ≠ a / 4 * 4) }

/-- What an AMO leaves in memory for the old word `x` and the operand `y`. -/
def amoValue (op : SramOp) (x y : Nat) : Nat :=
  match op with
  | .amoSwap => y
  | .amoAdd => (x + y) % 2 ^ 32
  | .amoXor => x ^^^ y
  | .amoAnd => x &&& y
  | .amoOr => x ||| y
  | .amoMin => if signed 32 x ≤ signed 32 y then x else y
  | .amoMax => if signed 32 x ≤ signed 32 y then y else x
  | .amoMinu => min x y
  | .amoMaxu => max x y
  | .load | .store | .lr | .sc => y

/-- Whether an access of `size` bytes at `a` is one the memories take: 1, 2 or 4 bytes, aligned to its size. -/
def sizeOk (size a : Nat) : Bool := (size = 1 || size = 2 || size = 4) && a % size = 0

/-- An access that has reached SUP SRAM. -/
def State.sramDo (s : State) (m : Master) (op : SramOp) (a size v : Nat) : State :=
  let wa := a / 4 * 4
  let core := m.val - 1
  let isCore : Bool := decide (1 ≤ m.val) && decide (m.val ≤ 4)
  match op with
  | .load =>
    match s.readWord 0 wa with
    | (s, some d) => s.answer m (d / 2 ^ (8 * (a % 4)) % 2 ^ (8 * size))
    | (s, none) => s.answerError m
  | .store =>
    match s.writeMem 0 a size v with
    | some s => s.clearResv a
    | none => (s.answerError m).perr peState m a
  | .lr =>
    match s.readWord 0 wa with
    | (s, some d) => (s.answer m d).setSup (if isCore then { s.sup with resv := spPut s.sup.resv core wa } else s.sup)
    | (s, none) => s.answerError m
  | .sc =>
    let held := isCore && spFind s.sup.resv core = some wa
    let s := if isCore then s.setSup { s.sup with resv := spDel s.sup.resv core } else s
    if held then
      match s.writeMem 0 wa 4 v with
      | some s => (s.clearResv a).answer m 0
      | none => s.answerError m
    else s.answer m 1
  | _ =>
    match s.readWord 0 wa with
    | (s, some d) =>
      match s.writeMem 0 wa 4 (amoValue op d v) with
      | some s => (s.clearResv a).answer m d
      | none => s.answerError m
    | (s, none) => s.answerError m

/-- An access of a master to SUP SRAM. An atomic takes the aligned word; on any other target it raises an access fault in its core
and reaches no register (R366). A load or store outside SUP SRAM, unaligned or of another width is no access of this row and is answered as an
unassigned one (R27). -/
def State.sramAccess (s : State) (m : Master) (op : SramOp) (a size v : Nat) : State :=
  if addrTarget a = some 1 ∧ sizeOk size a = true then
    s.gate m (op != .load && op != .lr) a (fun s => s.sramDo m op a size v)
  else if op = .load ∨ op = .store then (s.answerError m).perr peUnmapped m a
  else s.answerError m

/-! ## Rings (R371, R372) -/

/-- A write of WR by a master: discarded where the producer is a block, where the value is no multiple of 4, or where the fill would
exceed the size (R372). -/
def State.ringWrWrite (s : State) (m : Master) (n v : Nat) : State :=
  s.gate m true (0x40050108 + 0x20 * n) (fun s =>
    let t := s.wr (Reg.RNG_WR_WR n) v
    if s.rd (Reg.RNG_CFG_PRODK n) ≠ 0 ∨ v % 4 ≠ 0 ∨ s.ringSize n < t.ringFill n then
      (s.set1 Reg.RNG_ALRM_PTRERR).perr peState m (0x40050108 + 0x20 * n)
    else t)

/-- A write of RD by a master: discarded where the consumer is a block, and as for WR (R372). -/
def State.ringRdWrite (s : State) (m : Master) (n v : Nat) : State :=
  s.gate m true (0x4005010C + 0x20 * n) (fun s =>
    let t := s.wr (Reg.RNG_RD_RD n) v
    if s.rd (Reg.RNG_CFG_CONSK n) ≠ 0 ∨ v % 4 ≠ 0 ∨ s.ringSize n < t.ringFill n then
      (s.set1 Reg.RNG_ALRM_PTRERR).perr peState m (0x4005010C + 0x20 * n)
    else t)

/-- The address of byte `i` of ring `n`'s stream (R371). -/
def State.ringAddr (s : State) (n i : Nat) : Nat := s.rd (Reg.RNG_BASE_BASE n) + i % s.ringSize n

/-- The little-endian value of up to four bytes of `l` from index `i`. -/
def bytesWord (l : List Nat) (i : Nat) : Nat :=
  l.getD i 0 + 256 * l.getD (i + 1) 0 + 65536 * l.getD (i + 2) 0 + 16777216 * l.getD (i + 3) 0

/-- A write of a whole word into SUP SRAM by a block: the stored pattern is replaced and reservations on it end (R366, R441). -/
def State.sramPut (s : State) (a v : Nat) : State :=
  ((s.memWrite a 4 v).putUpset 0 ((a - 0x10000000) / 4) 0).clearResv a

/-- A block producer writes a whole record, a multiple of 4 bytes, into ring `n` and then advances WR; the caller has made sure that
it fits (R372). -/
def State.ringPut (s : State) (n : Nat) (l : List Nat) : State :=
  let w := s.rd (Reg.RNG_WR_WR n)
  let s' := (List.range (l.length / 4)).foldl (fun s i => s.sramPut (s.ringAddr n (w + 4 * i)) (bytesWord l (4 * i))) s
  s'.wr (Reg.RNG_WR_WR n) ((w + l.length) % (2 * s.ringSize n))

/-- `k` bytes of ring `n`'s stream from offset `o` after RD. -/
def State.ringBytes (s : State) (n o k : Nat) : List Nat :=
  (List.range k).map (fun i => (s.memByte (s.ringAddr n (s.rd (Reg.RNG_RD_RD n) + o + i))).toNat)

/-- The words of SUP SRAM that the first `k` bytes of ring `n`'s stream after RD stand in. -/
def State.ringWords (s : State) (n k : Nat) : List Nat :=
  (List.range ((k + 3) / 4)).map (fun i => s.ringAddr n (s.rd (Reg.RNG_RD_RD n) + 4 * i) / 4 * 4)

/-- A block consumer advances RD by `k` bytes (R372). -/
def State.ringTake (s : State) (n k : Nat) : State :=
  s.wr (Reg.RNG_RD_RD n) ((s.rd (Reg.RNG_RD_RD n) + k) % (2 * s.ringSize n))

/-! ## Event requests of the DMA engine (R376) -/

/-- An event request of channel `c`: held as one pending event while the channel is started; a further one is lost (R376). -/
def State.dmaPost (s : State) (c : Nat) : State :=
  let st := s.rd (Reg.DMA_CSTAT_STATE c)
  if st = 1 ∨ st = 2 then
    (if spGet s.sup.dmaEvt c 0 = 1 then s.set1 Reg.DMA_ALRM_REQLOST
     else s.setSup { s.sup with dmaEvt := spPut s.sup.dmaEvt c 1 })
  else s

/-- A firing of class 1 trigger `k`: an event for every channel paced by it (R376). -/
def State.dmaTrigger (s : State) (k : Nat) : State :=
  (List.range 32).foldl (fun s c => if s.rd (Reg.DMA_CFG_REQ c) = 16 + k then s.dmaPost c else s) s

/-! ## Meanings -/

/-- CORE_RUN (R365): the RUN bit of core `c` is written 1; a core in reset starts at SUP_BOOTADDRc. -/
def execCoreRun (m : Master) (c : Fin 4) (s : State) : Result :=
  done (s.gate m true 0x40000200 (fun s =>
    let s := s.wrBit Reg.SUP_CORECTRL_RUN c true
    if s.rd (coreState c) = 0 then s.coreStartAt c else s))

/-- CORE_RESET (R365). -/
def execCoreReset (m : Master) (c : Fin 4) (s : State) : Result := done (s.gate m true 0x40000200 (fun s => s.coreReset c))

/-- WDT_KICK (R369): while EN is 1, 0xA5 restarts the count and any other value is a programming error; else it does nothing. -/
def execWdtKick (m : Master) (c : Fin 4) (v : Word) (s : State) : Result :=
  done (s.gate m true (0x40000230 + 4 * c) (fun s =>
    if s.flag (Reg.SUP_WDT_EN c) = false then s
    else if v.toNat = 0xA5 then s.startTimer (tmWdt c)
    else s.perr peState m (0x40000230 + 4 * c)))

/-- A write of SUP_WDTc has left EN at its present value, `was` before it: the count starts with EN set, and stops with it cleared (R369). -/
def State.wdtWritten (s : State) (c : Nat) (was : Bool) : State :=
  if s.flag (Reg.SUP_WDT_EN c) = false then s.stopTimer (tmWdt c) else if was then s else s.startTimer (tmWdt c)

/-- WDT_TIMEOUT (R369): TIMEOUT x 10 us without a restart reset the core as RST does and set WDT; a TIMEOUT of 0 behaves as 1. -/
def execWdtTimeout (c : Fin 4) (s : State) : Result :=
  done (if s.flag (Reg.SUP_WDT_EN c) && s.timerOn (tmWdt c) then
    (((s.expire (tmWdt c) (ticksUs (10 * max 1 (s.rd (Reg.SUP_WDT_TIMEOUT c))))).coreReset c).set1 (coreWdt c)).startTimer (tmWdt c)
  else s)

/-- mtimecmp of core `c`. -/
def State.mtimecmp (s : State) (c : Nat) : Nat := s.rd (Reg.SUP_MTIMECMP_CMPLO c) + s.rd (Reg.SUP_MTIMECMPH_CMPHI c) * 2 ^ 32

/-- mtime: a 64-bit count at 25 MHz, one for ten TIME ticks (R368). -/
def State.mtime (s : State) : Nat := s.sup.mtime / 10 % 2 ^ 64

/-- Whether core `c` has its machine timer interrupt pending (R368). -/
def State.mtip (s : State) (c : Nat) : Bool := s.mtimecmp c ≤ s.mtime

/-- Whether core `c` has its machine software interrupt pending (R368). -/
def State.msip (s : State) (c : Nat) : Bool := s.rdBit Reg.SUP_MSIP_MSIP c

/-- Whether core `c` has its machine external interrupt pending: its target is (R368, R390). -/
def State.meip (s : State) (c : Nat) : Bool := s.targetPend c != 0

/-- MTIME_COMPARE_MATCH (R368): time passes until mtime reaches the core's mtimecmp; a core waiting for an interrupt runs again. -/
def execMtimeCompareMatch (c : Fin 4) (s : State) : Result :=
  let s := if s.mtime < s.mtimecmp c then s.elapse (s.mtimecmp c * 10 - s.sup.mtime % (10 * 2 ^ 64)) else s
  done (if s.rd (coreState c) = 3 then s.wr (coreState c) 1 else s)

/-- RING_WR_WRITE (R372). -/
def execRingWrWrite (m : Master) (n : Fin 64) (v : Word) (s : State) : Result := done (s.ringWrWrite m n v.toNat)

/-- RING_RD_WRITE (R372). -/
def execRingRdWrite (m : Master) (n : Fin 64) (v : Word) (s : State) : Result := done (s.ringRdWrite m n v.toNat)

/-- MBX_DATA_WRITE (R382). -/
def execMbxDataWrite (m : Master) (c : Fin 32) (i : Fin 16) (v : Word) (s : State) : Result := done (s.mbxDataWrite m c i v.toNat)

/-- MBX_GO (R382). -/
def execMbxGo (m : Master) (c : Fin 32) (s : State) : Result := done (s.mbxGo m c)

/-- MBX_ACK (R383). -/
def execMbxAck (m : Master) (c : Fin 32) (s : State) : Result := done (s.mbxAck m c)

/-- MBX_EXPIRY (R384). -/
def execMbxExpiry (c : Fin 32) (s : State) : Result := done (s.mbxExpiry c)

/-- MBX_NOTE_CLR (R386). -/
def execMbxNoteClr (m : Master) (c : Fin 32) (s : State) : Result := done (s.mbxNoteClr m c)

/-- SEM_LOCK_READ (R387, R22). -/
def execSemLockRead (ms : List Master) (n : Fin 64) (s : State) : Result := done (s.semReads ms n)

/-- SEM_LOCK_WRITE (R388). -/
def execSemLockWrite (m : Master) (n : Fin 64) (s : State) : Result := done (s.semWrite m n)

/-- SEM_FORCE (R388). -/
def execSemForce (m : Master) (n : Fin 64) (s : State) : Result := done (s.semForce m n)

/-- INT_HACK (R392): the vectors named are armed again; one still pending is sent at once. -/
def execIntHack (m : Master) (v : Byte) (s : State) : Result :=
  done (s.gate m true 0x40030304 (fun s =>
    s.setSup { s.sup with msiOff := s.sup.msiOff.filter (fun e => bitAt v.toNat e.1 = false) }))

/-- HOST_MSI_ENABLE (R392): with the link up, the host enables MSI and grants 2^`granted` vectors; INTA ends. -/
def execHostMsiEnable (granted : Fin 4) (s : State) : Result :=
  done (if s.flag Reg.NET_PCIE_LINKUP then (s.wr Reg.NET_PCIE_MSIV granted).setSup { s.sup with msiOn := true } else s)

/-- SUP_SRAM_ACCESS (R366, R441). -/
def execSupSramAccess (m : Master) (op : SramOp) (a : Word) (size : Nat) (v : Word) (s : State) : Result :=
  done (s.sramAccess m op a.toNat size v.toNat)

end Sys2Proof.Machine
end

