-- ==== Sys2Proof/Machine/Acquire.lean ====
section
/-! DEFINITION. Measurement (02): sequencers, conversion, latest values, result queues, calibration and input tests. -/

namespace Sys2Proof.Machine

def tmSeq (n : Nat) : Nat := 300 + n
def tmCal : Nat := 310
def tmRotCal : Nat := 311
def tmItest : Nat := 312
def tmRotSlot : Nat := 313
def tmSv (st : Nat) : Nat := 320 + st

/-- Device time at tick `t`, past or to come, at the present increment. -/
def State.devAt (s : State) (t : Nat) : Nat :=
  if t ≤ s.clk.ticks then (s.clk.time + 2 ^ 64 - ((s.clk.ticks - t) * s.clk.inc) % 2 ^ 64) % 2 ^ 64 / 2 ^ 32
  else (s.clk.time + (t - s.clk.ticks) * s.clk.inc) % 2 ^ 64 / 2 ^ 32

/-- The tick of the first ADC clock edge at or after tick `t`: every fifth TIME edge (R60). -/
def adcEdge (t : Nat) : Nat := (t + 4) / 5 * 5

/-- Whether a sequencer is enabled by its list length: 1 to 32 entries. -/
def State.seqEnabled (s : State) (n : Nat) : Bool :=
  decide (1 ≤ s.rd (Reg.ACQ_SEQCFG_NENT n)) && decide (s.rd (Reg.ACQ_SEQCFG_NENT n) ≤ 32)

/-- A trigger of sequencer `n` (R58, R60, R61): it starts the delay, or is counted as lost while the sequencer runs or a full
calibration is in force. -/
def State.seqTrigger (s : State) (n : Nat) : State :=
  if s.works .acq = false ∨ s.seqEnabled n = false then s
  else if s.flag Reg.ACQ_STAT_CALBUSY ∨ s.flag (Reg.ACQ_SEQSTAT_BUSY n) then s.addSat (Reg.ACQ_SEQSTAT_LOST n) 1
  else ((s.set1 (Reg.ACQ_SEQSTAT_BUSY n)).startTimer (tmSeq n)).setAcq { s.acq with seqPhase := spSet s.acq.seqPhase n 1 0 }

/-- A trigger of every sequencer whose source is `src` with selector `sel` (`none`: the source has no selector), in ascending order. -/
def State.seqTriggers (s : State) (src : Nat) (sel : Option Nat) : State :=
  (List.range 4).foldl (fun s n =>
    if s.rd (Reg.ACQ_SEQCFG_SRC n) = src ∧ (sel = none ∨ sel = some (s.rd (Reg.ACQ_SEQCFG_SEL n)))
    then s.seqTrigger n else s) s

/-- Whether no sequence runs. -/
def State.acqQuiet (s : State) : Bool := (List.range 4).all (fun n => !s.flag (Reg.ACQ_SEQSTAT_BUSY n))

/-- The full self-calibration starts when the last running sequence has ended (R58). -/
def State.calMayStart (s : State) : State :=
  if s.acq.calPend && s.acqQuiet then (s.startTimer tmCal).setAcq { s.acq with calPend := false } else s

/-- The end of a sequence (R61). -/
def State.seqEnd (s : State) (n : Nat) : State :=
  (((s.set0 (Reg.ACQ_SEQSTAT_BUSY n)).stopTimer (tmSeq n)).setAcq
    { s.acq with seqPhase := spSet s.acq.seqPhase n 0 0, seqLeft := spDel s.acq.seqLeft n, seqStart := spDel s.acq.seqStart n }).calMayStart

/-- The entries of sequencer `n` that are converted: converters 12 to 15 skip the entry. -/
def State.seqEntries (s : State) (n : Nat) : List Nat :=
  (List.range (s.rd (Reg.ACQ_SEQCFG_NENT n))).filter (fun e => decide (s.rd (Reg.ACQ_SEQENT_ADC n e) < 12))

/-- The physical converter at logical position `k`. -/
def State.physical (s : State) (k : Nat) : Nat := spGet s.acq.pos k k

/-- The settling of physical converter `p` before an entry of input `i`, in ticks: two sample clocks where its previous entry had
another input, or it has none (R54). -/
def State.settling (s : State) (p i : Nat) : Nat := if spFind s.acq.prevIn p = some (i + 1) then 0 else 10

/-- The tick of the first sample of entry `e` of sequencer `n`: from the sequence's first ADC edge, when its converter is free, after
its settling (R54, R59, R62). -/
def State.entryFirst (s : State) (n e : Nat) : Nat :=
  let p := s.physical (s.rd (Reg.ACQ_SEQENT_ADC n e))
  adcEdge (max (spGet s.acq.seqStart n 0) (spGet s.acq.adcFree p 0)) + s.settling p (s.rd (Reg.ACQ_SEQENT_INPUT n e))

/-- Whether sequencer `n` has an entry of logical converter `k` still to deliver. -/
def State.seqWants (s : State) (n k : Nat) : Bool :=
  decide (spGet s.acq.seqPhase n 0 = 2) && (spGet s.acq.seqLeft n []).any (fun x => s.rd (Reg.ACQ_SEQENT_ADC n x) = k)

/-- The rotation goes on to the next position; after the twelfth the round's last slot calibrates the spare itself (R55). -/
def State.rotNext (s : State) : State :=
  let k := s.rd Reg.ACQ_ROTSTAT_POS
  (s.wr Reg.ACQ_ROTSTAT_POS ((k + 1) % 12)).setAcq { s.acq with rotLast := decide (k = 11) }

/-- An accepted hand-over takes the position at the start of sequence `n`, where that uses the position and no other running sequence
still does (R56). -/
def State.rotTake (s : State) (n : Nat) : State :=
  match s.acq.incoming with
  | none => s
  | some p =>
    let k := s.rd Reg.ACQ_ROTSTAT_POS
    if s.acq.takeOver ∧ (s.seqEntries n).any (fun e => s.rd (Reg.ACQ_SEQENT_ADC n e) = k) ∧ (List.range 4).all (fun m => !s.seqWants m k) then
      ((s.wr Reg.ACQ_ROTSTAT_SPARE (s.physical k)).setAcq
        { s.acq with pos := if p = k then spDel s.acq.pos k else spPut s.acq.pos k p, incoming := none, overlap := 0, diffSum := 0,
                     takeOver := false }).rotNext
    else s

/-- Whether entry `e` is the first of the list `l` that its logical converter takes (R59). -/
def State.firstOnConverter (s : State) (n : Nat) (l : List Nat) (e : Nat) : Bool :=
  l.find? (fun x => s.rd (Reg.ACQ_SEQENT_ADC n x) = s.rd (Reg.ACQ_SEQENT_ADC n e)) = some e

/-- The tick of the first sample of the sequence that sequencer `n` runs: the earliest of the entries delivered and, as the converters
stand, of those still to come. -/
def State.seqFirstTick (s : State) (n : Nat) : Option Nat :=
  let left := spGet s.acq.seqLeft n []
  ((left.filter (s.firstOnConverter n left)).map (s.entryFirst n)).foldl (fun b t => some (match b with | some x => min x t | none => t))
    (spFind s.acq.seqFirst n)

/-- ACQ_SEQTIMEn of every running sequence is the instant of its first sample (R60): it is known at the start, but that a converter shared with
another sequencer may come to it later (R62). -/
def State.noteFirst (s : State) : State :=
  (List.range 4).foldl (fun s n =>
    match s.seqFirstTick n with
    | some t => if spGet s.acq.seqPhase n 0 = 2 then s.wr (Reg.ACQ_SEQTIME_TIME n) (s.devAt t) else s
    | none => s) s

/-- After DELAY the sequence starts at the next ADC clock edge (R60): its count advances, and the instant of its first sample is
recorded. -/
def State.seqStart (s : State) (n : Nat) : State :=
  if spGet s.acq.seqPhase n 0 ≠ 1 then s
  else
    let t := match spFind s.clk.timers (tmSeq n) with | some t => t | none => s.clk.ticks
    let e := adcEdge (t + 5 * min (s.rd (Reg.ACQ_SEQCFG_DELAY n)) 1000)
    let s := (s.elapseTo e).rotTake n
    let s := s.addWrap (Reg.ACQ_SEQSTAT_SEQ n) 1
    let l := s.seqEntries n
    let s := s.setAcq { s.acq with
      seqPhase := spSet s.acq.seqPhase n 2 0, seqLeft := spPut s.acq.seqLeft n l, seqStart := spPut s.acq.seqStart n e }
    match l with
    | [] => s.seqEnd n
    | _ => (s.setAcq { s.acq with seqFirst := spDel s.acq.seqFirst n }).noteFirst

/-! ## Conversion (R52) -/

/-- The Q1.15 result of an entry's `count` raw samples with GAIN and OFFSET, and whether SAT is set (R52). -/
def adcConvert (count : Nat) (raw : List Int) (gain offset : Nat) : Int × Bool :=
  let mean := rhe (raw.foldl (· + ·) 0) (count : Nat)
  let x := mean * 4 - signed 16 offset
  let r := rhe (x * (gain : Nat)) 16384
  (satInt 16 r, decide (satInt 16 r ≠ r) || raw.any (fun v => v = -8192 || v = 8191))

/-! ## Delivery (R63 to R66, R69) -/

/-- Write the latest value of channel `c`: two words of array 6 from 4096 (R440, log 95). -/
def State.putChannel (s : State) (c : Nat) (valid sat stale nosync : Bool) (seq data time : Nat) : State :=
  let s := (s.wr (Reg.ACQ_CHVAL_VALID c) (if valid then 1 else 0)).wr (Reg.ACQ_CHVAL_SAT c) (if sat then 1 else 0)
  let s := (s.wr (Reg.ACQ_CHVAL_STALE c) (if stale then 1 else 0)).wr (Reg.ACQ_CHVAL_NOSYNC c) (if nosync then 1 else 0)
  let s := s.cleanWords 6 (fun w => decide (w / 2 = 2048 + c))
  let s := ((s.wr (Reg.ACQ_CHVAL_SEQ c) seq).wr (Reg.ACQ_CHVAL_RES c) (residue data)).wr (Reg.ACQ_CHVAL_DATA c) data
  s.wr (Reg.ACQ_CHTIME_TIME c) time

/-- The entries of result queue `q`, oldest first. -/
def State.queue (s : State) (q : Nat) : List Nat := spGet s.acq.queues q []

/-- Replace the entries of result queue `q`; FILL follows. -/
def State.putQueue (s : State) (q : Nat) (l : List Nat) : State :=
  (s.setAcq { s.acq with queues := spSet s.acq.queues q l [] }).wr (Reg.ACQ_QSTAT_FILL q) l.length

/-- The word of array 6 that holds entry `i` of queue `q`, the oldest being entry 0 (R440, log 95). -/
def State.queueWord (s : State) (q i : Nat) : Nat := 1024 * q + (spGet s.acq.qHead q 0 + i) % 1024

/-- Write an entry to a queue; a full queue keeps its oldest 1,024 entries, sets OVF and counts LOST (R66). -/
def State.pushQueue (s : State) (q x : Nat) : State :=
  if 1024 ≤ (s.queue q).length then (s.set1 (Reg.ACQ_QSTAT_OVF q)).addSat (Reg.ACQ_QSTAT_LOST q) 1
  else (s.cleanWords 6 (fun w => decide (w = s.queueWord q (s.queue q).length))).putQueue q (s.queue q ++ [x])

/-- A result of channel `c`: to the latest-value store, and to its queue where it is mapped (R63, R64); VALID stays clear while the
input reads open or shorted (R69). -/
def State.deliver (s : State) (c : Nat) (sat : Bool) (seq data time : Nat) : State :=
  let bad := s.rdBit Reg.ACQ_OPEN_OPEN c || s.rdBit Reg.ACQ_SHORT_SHORT c
  let s := s.putChannel c (!bad) sat false false seq data time
  if s.flag (Reg.ACQ_CHMAP_QEN c) then
    s.pushQueue (s.rd (Reg.ACQ_CHMAP_Q c)) (data + residue data * 2 ^ 16 + c * 2 ^ 20 + seq * 2 ^ 26)
  else s

/-- The residue record of R38: frame number, region, block and detail of the last mismatch found. -/
def State.resRecord (s : State) (b : Block) (detail : Nat) : State :=
  s.setResRec [s.rd Reg.MQT_LFRAME_NOW, regionCode (blockRegion b), blockIndex b, detail]

/-- A fence of ACQ_ (R67): VALID of channels 0 to 31 is cleared, the sequencers stop and nothing more enters the queues. -/
def State.fenceAcq (s : State) (kind detail : Nat) : State :=
  let s := ((s.resRecord .acq detail).errorB .acq kind detail 0).wr (blockState .acq) stFenced
  let s := (List.range 32).foldl (fun s c => s.set0 (Reg.ACQ_CHVAL_VALID c)) s
  (List.range 4).foldl State.seqEnd s

/-- An uncorrectable word of the result queues or the latest-value store fences ACQ_ (R440), whether it runs or not (log 87). -/
def State.acqEcc (s : State) (kind : Nat) : State := if s.fenced .acq then s.errorB .acq kind 6 0 else s.fenceAcq kind 6

/-- The signed pattern of a 16-bit result. -/
def word16 (i : Int) : Nat := pattern 16 i

/-- The sequencer whose entry logical converter `k` takes next (R62): the one whose sequence can use it first, and of those at one
instant the lower-numbered. -/
def State.seqTaken (s : State) (k : Nat) : Option Nat :=
  let due (n : Nat) : Nat := adcEdge (max (spGet s.acq.seqStart n 0) (spGet s.acq.adcFree (s.physical k) 0))
  ((List.range 4).filter (fun n => s.seqWants n k)).foldl (fun b n =>
    match b with
    | none => some n
    | some m => if due n < due m then some n else some m) none

/-- The result of entry `e` of sequencer `n` is ready (R52 to R54, R59, R63 to R67). The entry is the first of its converter's entries
not yet delivered, of the sequencer the converter takes next (R62); during a hand-over the converter that samples along is compared (R56). -/
def State.entryResult (s : State) (n e : Nat) (raw incoming : List Int) (resOk : Bool) : State :=
  let left := spGet s.acq.seqLeft n []
  let k := s.rd (Reg.ACQ_SEQENT_ADC n e)
  if s.seqTaken k ≠ some n ∨ left.find? (fun x => s.rd (Reg.ACQ_SEQENT_ADC n x) = k) ≠ some e then s
  else
    let i := s.rd (Reg.ACQ_SEQENT_INPUT n e)
    let p := s.physical k
    let first := s.entryFirst n e
    let avg := min (s.rd (Reg.ACQ_SEQENT_AVG n e)) 4
    let s := s.elapseTo (first + (2 ^ avg - 1) * 5 + 45)
    let r := adcConvert (2 ^ avg) raw (s.rd (Reg.ACQ_CAL_GAIN p)) (s.rd (Reg.ACQ_CAL_OFFSET p))
    let s := s.setAcq { s.acq with
      seqLeft := spPut s.acq.seqLeft n (left.erase e)
      adcFree := spPut s.acq.adcFree p (first + 2 ^ avg * 5)
      prevIn := spPut s.acq.prevIn p (i + 1)
      lastConv := spPut s.acq.lastConv i (k + 1)
      seqFirst := spPut s.acq.seqFirst n (min first (spGet s.acq.seqFirst n first)) }
    let s := s.noteFirst
    let s :=
      match s.acq.incoming with
      | some ip =>
        if k = s.rd Reg.ACQ_ROTSTAT_POS ∧ incoming ≠ [] ∧ s.acq.overlap < 64 then
          let r2 := adcConvert (2 ^ avg) incoming (s.rd (Reg.ACQ_CAL_GAIN ip)) (s.rd (Reg.ACQ_CAL_OFFSET ip))
          s.setAcq { s.acq with overlap := s.acq.overlap + 1, diffSum := s.acq.diffSum + (r2.1 - r.1).natAbs,
                                prevIn := spPut s.acq.prevIn ip (i + 1) }
        else s
      | none => s
    if resOk = false then s.fenceAcq kResidue i
    else
      let s := s.deliver i r.2 (s.rd (Reg.ACQ_SEQSTAT_SEQ n)) (word16 r.1) (s.devAt first)
      if left.erase e = [] then s.seqEnd n else s

/-! ## Calibration (R55 to R58) -/

/-- Whether calibration factors pass: gain from 0.90 to 1.10 and offset within 0.05 of full scale (R57). -/
def calPasses (w : Nat) : Bool :=
  let g := w / 65536
  let o := signed 16 w
  decide (90 * 16384 ≤ 100 * g) && decide (100 * g ≤ 110 * 16384) && decide (o.natAbs * 100 ≤ 5 * 32768)

/-- Write the factors of converter `p`. -/
def State.putCal (s : State) (p w : Nat) : State := (s.wr (Reg.ACQ_CAL_GAIN p) (w / 65536)).wr (Reg.ACQ_CAL_OFFSET p) w

/-- The full self-calibration is asked for (R58). -/
def State.calStart (s : State) (m : Master) : State :=
  s.gate m true 0x42000000 (fun s =>
    if s.idleOrMaint = false then s.perr peBusyMode m 0x42000000
    else if s.flag Reg.ACQ_STAT_CALBUSY then s
    else ((s.set1 Reg.ACQ_STAT_CALBUSY).setAcq { s.acq with calPend := true }).calMayStart)

/-- A calibration of converter `p` has failed (R57): the factors stay, and the second failure in a row retires the spare and stops the
rotation (log 77). -/
def State.calFailed (s : State) (p : Nat) : State :=
  let n := min (spGet s.acq.calFails p 0 + 1) 2
  let s := s.setAcq { s.acq with calFails := spPut s.acq.calFails p n }
  if n = 2 ∧ s.rd Reg.ACQ_ROTSTAT_SPARE = p then
    ((s.wr Reg.ACQ_ROTSTAT_RETIRED p).set1 Reg.ACQ_ROTSTAT_HALT).setAcq { s.acq with incoming := none, takeOver := false }
  else s

/-- The full self-calibration ends 3.2 ms after its start (R58): every converter whose calibration passes takes its new factors, and no
converter has a previous entry (R54). -/
def State.calComplete (s : State) (factors : List Word) : State :=
  if s.flag Reg.ACQ_STAT_CALBUSY ∧ s.timerOn tmCal then
    let s := s.expire tmCal 800000
    let s := (factors.take 13).zipIdx.foldl (fun s wp =>
      if calPasses wp.1.toNat then (s.putCal wp.2 wp.1.toNat).setAcq { s.acq with calFails := spDel s.acq.calFails wp.2 }
      else s.calFailed wp.2) s
    (s.set0 Reg.ACQ_STAT_CALBUSY).setAcq { s.acq with prevIn := [] }
  else s

/-- A rotation slot begins, SLOT x 10 ms after the one before (R55): the spare is released for its calibration, after which it takes the next
position, but for the thirteenth slot of a round; a suspect spare is skipped. A slot that falls due while the hand-over of the slot before is
still open waits until that ends (log 77). -/
def State.rotSlotStart (s : State) : State :=
  if s.works .acq ∧ s.flag Reg.ACQ_ROT_EN ∧ s.flag Reg.ACQ_ROTSTAT_HALT = false ∧ s.rd Reg.ACQ_ROTSTAT_RELEASED = 15
      ∧ s.acq.incoming = none then
    let s := (s.expire tmRotSlot (ticksMs (10 * max 1 (s.rd Reg.ACQ_ROT_SLOT)))).startTimer tmRotSlot
    let p := s.rd Reg.ACQ_ROTSTAT_SPARE
    if s.rdBit Reg.ACQ_ROTSTAT_SUSPECT p then
      (if s.acq.rotLast then s.setAcq { s.acq with rotLast := false } else s.rotNext)
    else (s.wr Reg.ACQ_ROTSTAT_RELEASED p).startTimer tmRotCal
  else s

/-- The released converter's calibration ends (R55, R57): new factors, or a failure, the second in a row retiring the converter as the spare
and stopping the rotation. The overlap for the next position follows, but after the thirteenth slot of a round. -/
def State.rotCalComplete (s : State) (w : Nat) : State :=
  let p := s.rd Reg.ACQ_ROTSTAT_RELEASED
  if p = 15 then s
  else
    let s := (s.expire tmRotCal 800000).wr Reg.ACQ_ROTSTAT_RELEASED 15
    let s := s.setAcq { s.acq with
      prevIn := spDel s.acq.prevIn p, incoming := if s.acq.rotLast then none else some p, overlap := 0, diffSum := 0, takeOver := false,
      rotLast := false }
    if calPasses w then (s.putCal p w).setAcq { s.acq with calFails := spDel s.acq.calFails p } else s.calFailed p

/-- After 64 compared results (R56): the hand-over is accepted, to be carried out at the start of the next sequence that uses the
position, or is abandoned with MISMATCH. -/
def State.rotDecide (s : State) : State :=
  match s.acq.incoming with
  | none => s
  | some p =>
    if s.acq.overlap < 64 ∨ s.acq.takeOver then s
    else if s.acq.diffSum ≤ 64 * s.rd Reg.ACQ_ROT_TOL then s.setAcq { s.acq with takeOver := true }
    else
      let s := s.rotNext.set1 Reg.ACQ_ROTSTAT_MISMATCH
      (s.wrBit Reg.ACQ_ROTSTAT_SUSPECT p true).setAcq { s.acq with incoming := none, overlap := 0, diffSum := 0, takeOver := false }

/-! ## Open and shorted inputs (R68, R69) -/

/-- Whether a gap of at least 5 us lies before the next known trigger (a time trigger, or the period start of a local bridge pair, which
waits for the next frame start where none is set) of every sequencer whose list names input `c` (R68). -/
def State.itestGap (s : State) (c : Nat) : Bool :=
  (List.range 4).all (fun n =>
    let names := s.seqEnabled n && (s.seqEntries n).any (fun e => s.rd (Reg.ACQ_SEQENT_INPUT n e) = c)
    let clear (k : Nat) : Bool := !s.flag (Reg.PTP_TRGCFG_EN k) || decide (5000 ≤ diff32 (s.rd (Reg.PTP_TRGNEXT_NEXT k)) s.now)
    let sel := s.rd (Reg.ACQ_SEQCFG_SEL n)
    !names || (match s.rd (Reg.ACQ_SEQCFG_SRC n) with
      | 2 => clear 0
      | 3 => clear sel
      | 4 =>
        match (spGet s.brg.pairs sel LbrPair.reset).next with
        | some q => decide (s.clk.ticks * 16 + 20000 ≤ q)
        | none => !s.pairRuns sel || clear 0
      | _ => true))

/-- The next enabled input at or after `itNext`, in turn. -/
def State.itestPick (s : State) : Option Nat :=
  ((List.range 32).map (fun i => (s.acq.itNext + i) % 32)).find? (fun c => s.rdBit Reg.ACQ_ITEST_EN c)

/-- The burn-out test starts on the next enabled input, once a frame, in a suitable gap (R68). -/
def State.itestStart (s : State) : State :=
  match s.itestPick with
  | none => s
  | some c =>
    if s.works .acq ∧ s.acq.itDone = false ∧ s.acq.itCur = none ∧ s.itestGap c then
      (s.startTimer tmItest).setAcq { s.acq with itCur := some c, itNext := (c + 1) % 32, itDone := true }
    else s

/-- A frame start allows one test more (R68). -/
def State.itestFrame (s : State) : State := s.setAcq { s.acq with itDone := false }

/-- The extra conversion, 2 us later, is judged against the input's latest regular result, 0 where it has had none (R68, R69;
log 91). -/
def State.itestResult (s : State) (raw : Int) : State :=
  match s.acq.itCur with
  | none => s
  | some c =>
    let s := s.expire tmItest 500
    let p := s.physical (spGet s.acq.lastConv c 1 - 1)
    let r := (adcConvert 1 [raw] (s.rd (Reg.ACQ_CAL_GAIN p)) (s.rd (Reg.ACQ_CAL_OFFSET p))).1
    let d := (r - signed 16 (s.rd (Reg.ACQ_CHVAL_DATA c))).natAbs
    let o := if s.rd Reg.ACQ_ITHR_OPEN_THR ≤ d then min (spGet s.acq.openRun c 0 + 1) 4 else 0
    let h := if d ≤ s.rd Reg.ACQ_ITHR_SHORT_THR then min (spGet s.acq.shortRun c 0 + 1) 4 else 0
    let s := s.setAcq { s.acq with itCur := none, openRun := spSet s.acq.openRun c o 0, shortRun := spSet s.acq.shortRun c h 0 }
    let s := if o = 4 then s.wrBit Reg.ACQ_OPEN_OPEN c true else s
    let s := if h = 4 then s.wrBit Reg.ACQ_SHORT_SHORT c true else s
    if s.rdBit Reg.ACQ_OPEN_OPEN c || s.rdBit Reg.ACQ_SHORT_SHORT c then s.set0 (Reg.ACQ_CHVAL_VALID c) else s

/-! ## Queues and Sampled Values channels -/

/-- A read of ACQ_QDATAq removes and returns the oldest entry; an empty queue returns 0xFFFF_FFFF (R65). An entry whose word is uncorrectable
fences ACQ_ (R440), and the spec gives the data returned no value. -/
def State.queueRead (s : State) (m : Master) (q : Nat) : State :=
  s.gate m false (0x42000208 + 0x10 * q) (fun s =>
    match s.queue q with
    | [] => s.answer m 0xFFFFFFFF
    | x :: r =>
      let t := s.readWords 6 (fun w => decide (w = s.queueWord q 0))
      let s := t.1.putQueue q r
      let s := s.setAcq { s.acq with qHead := spSet s.acq.qHead q ((spGet s.acq.qHead q 0 + 1) % 1024) 0 }
      if t.2 = [] then s.answer m x else ((s.acqEcc kEcc).drawn).answer m (s.freeUpTo (2 ^ 32 - 1)))

/-- Two sample periods of stream `st`, in ticks, rounded up (R73, R360). -/
def State.svTwoPeriods (s : State) (st : Nat) : Nat :=
  let f := if s.rd (Reg.SVS_SCFG_NOMF st) = 0 then 50 else 60
  let spc := if s.rd (Reg.SVS_SCFG_SPC st) = 0 then 80 else 256
  (500000000 + f * spc - 1) / (f * spc)

/-- No new sample of a stream within two sample periods: its channels lose VALID and are STALE (R73). -/
def State.svStale (s : State) (st : Nat) : State :=
  if s.flag (Reg.SVS_SCFG_EN st) then
    let s := s.expire (tmSv st) (s.svTwoPeriods st)
    (List.range 32).foldl (fun s i =>
      if s.flag (Reg.SVS_BIND_EN i) ∧ s.rd (Reg.SVS_BIND_STREAM i) = st then
        (s.set0 (Reg.ACQ_CHVAL_VALID (32 + i))).set1 (Reg.ACQ_CHVAL_STALE (32 + i)) else s) s
  else s

/-! ## Meanings -/

/-- SEQ_GO (R60): GO triggers the sequencer when its source is SOFTWARE. -/
def execSeqGo (m : Master) (n : Fin 4) (s : State) : Result :=
  done (s.gate m true (0x42000100 + 0x10 * n) (fun s => if s.rd (Reg.ACQ_SEQCFG_SRC n) = 1 then s.seqTrigger n else s))

/-- SEQ_DELAY_EXPIRY (R60). -/
def execSeqDelayExpiry (n : Fin 4) (s : State) : Result := done (s.seqStart n)

/-- ADC_ENTRY_RESULT (R59). -/
def execAdcEntryResult (n : Fin 4) (e : Fin 32) (raw incoming : List Int) (resOk : Bool) (s : State) : Result :=
  done (s.entryResult n e raw incoming resOk)

/-- QUEUE_READ (R65). -/
def execQueueRead (m : Master) (q : Fin 4) (s : State) : Result := done (s.queueRead m q)

/-- CAL_START (R58). -/
def execCalStart (m : Master) (s : State) : Result := done (s.calStart m)

/-- CAL_COMPLETE (R58). -/
def execCalComplete (factors : List Word) (s : State) : Result := done (s.calComplete factors)

/-- ROT_SLOT_START (R55). -/
def execRotSlotStart (s : State) : Result := done s.rotSlotStart

/-- ROT_CAL_COMPLETE (R57). -/
def execRotCalComplete (factors : Word) (s : State) : Result := done (s.rotCalComplete factors.toNat)

/-- ROT_HANDOVER_DECISION (R56). -/
def execRotHandoverDecision (s : State) : Result := done s.rotDecide

/-- BURNOUT_TEST_START (R68). -/
def execBurnoutTestStart (s : State) : Result := done s.itestStart

/-- BURNOUT_TEST_RESULT (R68). -/
def execBurnoutTestResult (raw : Int) (s : State) : Result := done (s.itestResult raw)

/-- SV_STREAM_STALE (R73). -/
def execSvStreamStale (st : Fin 8) (s : State) : Result := done (s.svStale st)

end Sys2Proof.Machine
end

