-- ==== Sys2Proof/Machine/Track.lean ====
section
/-! DEFINITION. The grid angle tracker and the Pointing outputs (02, R74 to R88, R481). -/

namespace Sys2Proof.Machine

def tmDead : Nat := 330
def tmPll : Nat := 331
def tmSaw : Nat := 332
def tmAcp (n : Nat) : Nat := 333 + n

/-- The step angles of R76 in binary-angle units. -/
def stepAngle (m : Nat) : Nat :=
  match m with
  | 0 => 0 | 1 => 0x2AAAAAAB | 2 => 0x55555555 | 3 => 0x80000000 | 4 => 0xAAAAAAAB | _ => 0xD5555555

/-- The place of a sector code in the positive sequence 5, 4, 6, 2, 3, 1 (R75). -/
def sectorIndex (code : Nat) : Nat :=
  match code with
  | 5 => 0 | 4 => 1 | 6 => 2 | 2 => 3 | 3 => 4 | _ => 5

/-- Whether a sector code is valid (R75). -/
def codeValid (code : Nat) : Bool := code != 0 && code != 7

/-- One binary-angle unit, in turns on the grid. -/
def lsbTurn : Int := 268435456

/-- Turns that `hz` (grid) advances in `n` ticks. -/
def turnsIn (hz : Int) (n : Int) : Int := hz * n * 4 / 1000000000

/-- The tick of a device time in the past or to come, by the present increment. -/
def State.tickOf (s : State) (d : Nat) : Int := s.clk.ticks - diff32 s.now d * (2 ^ 32 : Nat) / (max s.clk.inc 1 : Nat)

/-- The sector angle right after the last counted step (R76). -/
def State.sectorBase (s : State) : Nat := (s.lrd Reg.ANG_IDXOFS_IDXOFS + stepAngle s.ang.netSteps) % 2 ^ 32

/-- How far the sector angle may fall behind and run ahead of the last step: 1 LSB short of the step angles beside it (R76). -/
def State.sectorSpan (s : State) : Int × Int :=
  let m := s.ang.netSteps
  (-((stepAngle m + 2 ^ 32 - stepAngle ((m + 5) % 6)) % 2 ^ 32 - 1 : Nat), ((stepAngle ((m + 1) % 6) + 2 ^ 32 - stepAngle m) % 2 ^ 32 - 1 : Nat))

/-- The advance of the sector angle since the last step at the last measured frequency, in turns. -/
def State.sectorAdvance (s : State) (t : Int) : Int := turnsIn s.ang.secHz (t - s.ang.stepTick)

/-- The sector angle at tick `t`, in turns on the grid: from the last step at the last measured frequency, stopping 1 LSB short of the
next step angle (R76). -/
def State.sectorAngle (s : State) (t : Int) : Int :=
  let d := s.sectorSpan
  ((s.sectorBase : Int) * lsbTurn + clampInt (d.1 * lsbTurn) (d.2 * lsbTurn) (s.sectorAdvance t)) % fxOne

/-- A binary angle that has advanced by `adv` turns since it was exactly `base`: off by at most 1 LSB (log 82), exact where it has not moved. -/
def State.advancedWord (s : State) (base : Nat) (adv : Int) : Nat :=
  pattern 32 ((base : Int) + if adv = 0 then 0 else fxTo 32 adv + s.freeErr 1)

/-- The sector angle at tick `t` as it is reported: exact at a step and where it waits 1 LSB short of the next (R76). -/
def State.sectorWord (s : State) (t : Int) : Nat :=
  let d := s.sectorSpan
  let adv := s.sectorAdvance t
  let moved : Int :=
    if adv ≤ d.1 * lsbTurn then d.1
    else if d.2 * lsbTurn ≤ adv then d.2
    else if adv = 0 then 0
    else clampInt d.1 d.2 (fxTo 32 adv + s.freeErr 1)
  pattern 32 ((s.sectorBase : Int) + moved)

/-- Whether the serial word gives the output: SRC selects it and words are accepted (R85). -/
def State.serialUsed (s : State) : Bool :=
  let src := s.lrd Reg.ANG_CTRL_SRC
  (src = 1 || src = 2) && s.ang.sawGood && !s.ang.sawLost

/-- The method in force: 0 NONE, 1 SECTOR, 2 PLL, 3 SERIAL (R80, R83, R85, R481). -/
def State.angMethod (s : State) : Nat :=
  if s.worksNow .ang = false then 0
  else if s.serialUsed then 3
  else if s.lrd Reg.ANG_CTRL_SRC = 1 then 0
  else if s.ang.pllOn then 2
  else if s.ang.dead then 0 else 1

/-- Whether the tracker's outputs are usable by its method. -/
def State.angValid (s : State) : Bool :=
  match s.angMethod with
  | 0 => false | 1 => s.ang.secValid | _ => true

/-- The output frequency in Hz on the grid: 0 whenever VALID is 0 (R80). -/
def State.angHz (s : State) : Int :=
  if s.angValid = false then 0
  else match s.angMethod with
    | 1 => s.ang.secHz | 2 => s.ang.pllHz | 3 => s.ang.sawHz | _ => 0

/-- The output angle at tick `t` between frames: the last output angle at the last output frequency. -/
def State.outAngle (s : State) (t : Int) : Int := (s.ang.outTheta + turnsIn s.ang.outHz (t - s.ang.outTick)) % fxOne

/-- The R9 difference of the interpolated angle at tick `t` minus the effective target of channel `n`, in turns (R87). -/
def State.acpDiff (s : State) (n t : Nat) : Int :=
  let d := (s.outAngle t - (spGet s.ang.acpTheta n 0 : Nat) * lsbTurn) % fxOne
  if d < fxOne / 2 then d else d - fxOne

/-- The output angle computed at tick `t` by the method in force. -/
def State.angAngle (s : State) (t : Int) : Int :=
  match s.angMethod with
  | 1 => if codeValid (s.rd Reg.ANG_STAT_SECTOR) then s.sectorAngle t else s.outAngle t
  | 2 => (s.ang.pllTheta + turnsIn s.ang.pllHz (t - s.tickOf s.ang.pllTs)) % fxOne
  | 3 =>
    match s.ang.sawLast with
    | some w => (w.1 * lsbTurn + turnsIn s.ang.sawHz (t - w.2)) % fxOne
    | none => s.ang.outTheta
  | _ => s.ang.outTheta

/-- The word of ANG_ANGLE for tick `t`: by the sector method exact at its steps, by the serial method from the last word; `none` where no
method is in force, so that the output holds (R80). -/
def State.angWord (s : State) (t : Int) : Option Nat :=
  match s.angMethod, s.ang.sawLast with
  | 0, _ => none
  | 1, _ => some (if codeValid (s.rd Reg.ANG_STAT_SECTOR) then s.sectorWord t else s.advancedWord 0 (s.outAngle t))
  | 3, some w => some (s.advancedWord w.1 (turnsIn s.ang.sawHz (t - w.2)))
  | _, _ => some (s.advancedWord 0 (s.angAngle t))

/-- The output angle holds the value it has now (R80, R481). -/
def State.angHold (s : State) : State :=
  s.setAng { s.ang with outTheta := s.outAngle s.clk.ticks, outTick := s.clk.ticks, outHz := 0 }

/-- Disarm an armed Pointing channel on a loss of VALID, with NOVALID (R88). -/
def State.acpDisarm (s : State) (n : Nat) : State :=
  if s.flag (Reg.ANG_ACPCFG_ARMED n) then (s.set0 (Reg.ANG_ACPCFG_ARMED n)).set1 (Reg.ANG_ACPCFG_NOVALID n) else s

/-- Show VALID, METHOD and FREQ as they now stand, FREQ off by at most 1 LSB (a free value, log 82); a fall of VALID sets VLOST and disarms the
Pointing channels (R80, R88), and the output holds while no method is in force. -/
def State.angShow (s : State) : State :=
  let v := s.angValid
  let lost := s.flag Reg.ANG_STAT_VALID && !v
  let hz := s.angHz
  let s := (s.wr Reg.ANG_STAT_VALID (if v then 1 else 0)).wr Reg.ANG_STAT_METHOD s.angMethod
  let s := if hz = 0 then s.wr Reg.ANG_FREQ_FREQ 0 else s.report Reg.ANG_FREQ_FREQ (fxTo 16 hz) 1
  let s := if s.angMethod = 0 then s.angHold else s
  if lost then (List.range 4).foldl State.acpDisarm (s.set1 Reg.ANG_ALRM_VLOST) else s

/-- Every ACP pin at its inactive level, pulses ended (R86, R88, R481). -/
def State.acpOff (s : State) : State :=
  (List.range 4).foldl (fun s n => s.stopTimer (tmAcp n)) (s.setAng { s.ang with acpOn := [] })

/-- A sector error (R77). -/
def State.sectorError (s : State) : State :=
  (((s.addSat Reg.ANG_SECERRCNT_COUNT 1).set1 Reg.ANG_ALRM_SECERR).setAng { s.ang with steps := [], run := 0 })

/-- A counted step in direction `d` (1 forward, -1 backward) to `code` (R76, R78 to R81). The first positive crossing after an arming uses it up
in either index mode. A reversal negates the reported frequency, so that a second one before a full cycle restores its sign (log 82). -/
def State.countStep (s : State) (code : Nat) (d : Int) : State :=
  let g := s.ang
  let t := s.clk.ticks
  let rev := decide (g.dir ≠ 0) && decide (g.dir ≠ d)
  let zero := decide (d = 1) && decide (code = 5)
  let armed := s.lrd Reg.ANG_CTRL_IDX = 1
  let index := zero && (!armed || g.idxArmed)
  let m := if index then 0 else if d = 1 then (g.netSteps + 1) % 6 else (g.netSteps + 5) % 6
  let steps := if rev then [t] else (t :: g.steps).take 7
  let run := if rev then 1 else min (g.run + 1) 13
  let fwd := if d = 1 then min (g.fwdRun + 1) 6 else 0
  let hz :=
    if rev then -g.secHz
    else match steps[6]? with
      | some t0 => if t0 < t then d * (250000000 * fxOne / ((t - t0 : Nat) : Int)) else g.secHz
      | none => g.secHz
  let s := s.setAng { g with
    netSteps := m, stepTick := t, steps := steps, run := run, dir := d, fwdRun := fwd, secHz := hz, dead := false
    secValid := g.secValid || decide (13 ≤ run), idxArmed := g.idxArmed && !zero, refCode := code }
  let s := if index && armed then s.set1 Reg.ANG_STAT_IDXDONE else s
  let s := if rev then (s.set1 Reg.ANG_ALRM_SEQREV).set1 Reg.ANG_STAT_SEQREV else s
  let s := if 6 ≤ fwd then s.set0 Reg.ANG_STAT_SEQREV else s
  s.startTimer tmDead

/-- A deglitched change of the sector code (R75 to R81). -/
def State.zcEdge (s : State) (code : Nat) : State :=
  let old := s.rd Reg.ANG_STAT_SECTOR
  if s.regionOn .acq = false ∨ code = old then s
  else if s.worksNow .ang = false then s.wr Reg.ANG_STAT_SECTOR code
  else
    let known := s.ang.refCode
    let s := s.wr Reg.ANG_STAT_SECTOR code
    let s :=
      if codeValid code = false then s.sectorError
      else if codeValid old = false ∨ known = 0 then s.setAng { s.ang with refCode := code }
      else
        match (sectorIndex code + 6 - sectorIndex old) % 6 with
        | 1 => s.countStep code 1
        | 5 => s.countStep code (-1)
        | _ => s.sectorError.setAng { s.sectorError.ang with refCode := code }
    s.angShow

/-- The dead state (R80). -/
def State.sectorDead (s : State) : State :=
  if s.worksNow .ang ∧ s.timerOn tmDead ∧ s.ang.pllOn = false then
    let s := s.expire tmDead (ticksMs (max 1 (s.lrd Reg.ANG_ZCCFG_TMO)))
    ((s.setAng { s.ang with dead := true, secValid := false, run := 0, steps := [], idxArmed := true }).set1 Reg.ANG_ALRM_DEAD).angShow
  else s

/-- Take the index (R78). IDXDONE reads 0 again until the crossing (log 82). -/
def State.idxArm (s : State) (m : Master) : State :=
  s.gate m true 0x42010000 (fun s => (s.setAng { s.ang with idxArmed := true }).set0 Reg.ANG_STAT_IDXDONE)

/-- A channel's value in the copy of the compute start: its validity and its Q1.15 number. -/
def State.snapVal (s : State) (c : Nat) : Bool × Int :=
  let w := spGet s.acq.snap c 0
  (bitAt w 31, signed 16 w)

/-- The space vector of three Q1.15 values, on the grid: alpha = (2a - b - c) / 3, beta = (b - c) / sqrt 3 (R82, R95). -/
def clarke (a b c : Int) : Int × Int :=
  (fxQ15 (2 * a - b - c) / 3, fxMul (fxQ15 (b - c)) (fxSqrt (fxOne / 3)))

/-- The nominal frequency in Hz on the grid, held from 45 Hz to 65 Hz. -/
def State.angNomf (s : State) : Int := (clampNat (45 * 65536) (65 * 65536) (s.lrd Reg.ANG_NOMF_NOMF) : Nat) * fxOne / 65536

/-- The PLL method takes over (R83). -/
def State.pllTakeOver (s : State) : State :=
  let ts := spGet s.acq.snapTime (s.lrd Reg.ANG_VSEL_CHA) 0
  s.setAng { s.ang with
    pllOn := true, pllInteg := s.ang.secHz - s.angNomf, pllTheta := s.sectorAngle (s.tickOf ts), pllTs := ts, pllHz := s.ang.secHz }

/-- Whether the conditions beside the amplitude for the PLL method hold (R83). -/
def State.pllMay (s : State) : Bool :=
  s.ang.secValid && !s.flag Reg.ANG_STAT_SEQREV && s.lrd Reg.ANG_CTRL_PLLDIS = 0

/-- The PLL's step at the sampling instant of phase A (R82), for the space vector `v` of magnitude `mag`. -/
def State.pllStep (s : State) (v : Int × Int) (mag : Int) : State :=
  let g := s.ang
  let ts := spGet s.acq.snapTime (s.lrd Reg.ANG_VSEL_CHA) 0
  let theta := (g.pllTheta + g.pllHz * diff32 ts g.pllTs / 1000000000) % fxOne
  let cs := fxCosSin theta
  let e := fxDiv (fxMul v.1 cs.1 + fxMul v.2 cs.2) mag
  let n := s.angNomf
  let i0 := g.pllInteg + (s.lrd Reg.ANG_PLL_KI : Nat) * e * ((s.rd (Reg.PTP_TRGCFG_PERIOD 0) : Nat) * 4) / 1000000000
  let i1 := clampInt (-n / 2) (n / 2) i0
  let f0 := n + i1 + (s.lrd Reg.ANG_PLL_KP : Nat) * e / 64
  let f1 := clampInt (n / 2) (3 * n / 2) f0
  let s := s.setAng { g with pllTheta := theta, pllTs := ts, pllInteg := i1, pllHz := f1 }
  if i0 ≠ i1 ∨ f0 ≠ f1 then s.set1 Reg.ANG_ALRM_PLLCLAMP else s

/-- ANG_ stops tracking (R481): outputs as the rule lays down, channels disarmed, pins inactive, STATE OFF. -/
def State.angStop (s : State) : State :=
  let s := s.wr (blockState .ang) stOff
  (((s.setAng { s.ang with pllOn := false, acpReq := [] }).stopTimer tmDead |>.stopTimer tmPll).stopTimer tmSaw).angShow.acpOff

/-- ANG_ starts from the dead state (R481), working from the next frame start on (R74). The wait for a serial word begins (R85). -/
def State.angStart (s : State) : State :=
  let s := (s.set1 (blockEn .ang)).wr (blockState .ang) stRunning
  let s := (s.set0 Reg.ANG_STAT_SEQREV).set0 Reg.ANG_STAT_IDXDONE
  let code := s.rd Reg.ANG_STAT_SECTOR
  (s.setAng { s.ang with
    refCode := if codeValid code then code else 0, netSteps := 0, steps := [], run := 0, dir := 0, fwdRun := 0, secHz := 0, secValid := false, dead := true,
    idxArmed := true, pllOn := false, sawLast := none, sawGood := false, sawLost := false, sawCs := none }).angShow.startTimer tmSaw

/-- The end of the frame in progress: ANG_ with EN cleared stops (R481). -/
def State.angFrameEnd (s : State) : State :=
  if s.rd (blockEn .ang) = 0 ∧ s.running .ang then s.angStop else s

/-- A replacement of the output angle or of the targets at the present tick, from `old` to `s`: the channels whose difference it carries from
negative to zero or positive, both samples within 90 degrees, fire at this tick (R87). -/
def State.acpCross (old s : State) : State :=
  let t := s.clk.ticks
  (List.range 4).foldl (fun s n =>
    let d0 := old.acpDiff n (t - 1)
    let d1 := s.acpDiff n t
    let passed := decide (-fxOne / 4 ≤ d0 ∧ d0 < 0) || spFind s.ang.acpDue n = some t
    if passed ∧ 0 ≤ d1 ∧ d1 ≤ fxOne / 4 then s.setAng { s.ang with acpDue := spPut s.ang.acpDue n t }
    else s.setAng { s.ang with acpDue := spDel s.ang.acpDue n }) (s.setAng { s.ang with acpAt := t })

/-- The magnitude in pu of a space vector of magnitude `mag` (R82): 0 where a channel lacks VALID, and a free value where ANG_VBASE is 0, for
which the quotient has no value (log 40). ANG_VBASE is a Q1.15 number with its sign (R4). -/
def State.angAmp (s : State) (ok : Bool) (mag : Int) : Int :=
  let vb := signed 16 (s.lrd Reg.ANG_VBASE_VBASE)
  if ok = false then 0
  else if vb = 0 then fxFrom 14 (signed 16 (s.freeUpTo 65535))
  else fxDiv mag (fxQ15 vb)

/-- The tracker's step of the frame (R82, R83): ANG_ATIME is the compute start, and ANG_ANGLE the angle then. -/
def State.angFrame (s : State) : State :=
  if s.worksNow .ang = false then s
  else
    let a := s.snapVal (s.lrd Reg.ANG_VSEL_CHA)
    let b := s.snapVal (s.lrd Reg.ANG_VSEL_CHB)
    let c := s.snapVal (s.lrd Reg.ANG_VSEL_CHC)
    let ok := a.1 && b.1 && c.1
    let v := clarke a.2 b.2 c.2
    let mag := fxSqrt (fxMul v.1 v.1 + fxMul v.2 v.2)
    let amp := s.angAmp ok mag
    let s := s.drawn
    let s := if s.ang.pllOn ∧ ok = true ∧ mag ≠ 0 then s.pllStep v mag else s
    let s :=
      if s.ang.pllOn ∧ (amp < fxOne / 10 ∨ s.flag Reg.ANG_STAT_SEQREV ∨ s.lrd Reg.ANG_CTRL_PLLDIS = 1) then
        s.setAng { s.ang with pllOn := false } else s
    let s :=
      if amp < fxOne / 5 then s.stopTimer tmPll
      else if s.timerOn tmPll then s else s.startTimer tmPll
    let s :=
      if s.ang.pllOn = false ∧ s.timerOn tmPll ∧ ticksMs 20 ≤ s.timerAge tmPll ∧ s.pllMay then s.pllTakeOver else s
    let s := s.angShow
    let t := s.clk.ticks
    let old := s
    let s := s.setAng { s.ang with outTheta := s.angAngle t, outTick := t, outHz := s.angHz }
    let s := State.acpCross old s
    let s := match old.angWord (old.tickOf s.frm.t0) with | some w => s.wr Reg.ANG_ANGLE_ANGLE w | none => s
    let s := s.drawn.wr Reg.ANG_ATIME_ATIME s.frm.t0
    (s.wr Reg.ANG_AMP_AMP (if amp = 0 then 0 else pattern 16 (clampInt (if 0 < amp then 0 else -32768) (if amp < 0 then 0 else 32767) (fxTo 14 amp + s.freeErr 1)))).drawn

/-- The 20 ms of sufficient amplitude have passed (R83). -/
def State.pllPersist (s : State) : State :=
  if s.worksNow .ang ∧ s.timerOn tmPll ∧ s.ang.pllOn = false then
    let s := match spFind s.clk.timers tmPll with | some t => s.elapseTo (t + ticksMs 20) | none => s
    if s.pllMay then s.pllTakeOver.angShow else s
  else s

/-! ## Serial angle word (R84, R85) -/

/-- CRC-8 with polynomial 0x07, initial value 0, most significant bit first, over `n` bits of `v`. -/
def crc8 (n v : Nat) : Nat :=
  match n with
  | 0 => 0
  | n + 1 =>
    -- the bits are taken from the most significant: the CRC of the upper bits first
    let c := crc8 n (v / 2)
    let top := (c / 128 + v) % 2
    let c' := c * 2 % 256
    if top = 1 then c' ^^^ 7 else c'

/-- Whether the tracker reads serial words: SPI0 belongs to it (R84). -/
def State.sawOwned (s : State) : Bool := s.worksNow .ang && decide (s.pins.spi0 = 1)

/-- Chip select is asserted at the trigger named by ANG_SAWCFG.TRG, and a word begins (R84); one whose reading still runs is begun anew
(log 82). -/
def State.sawSelect (s : State) (k : Nat) : State :=
  if s.sawOwned ∧ s.lrd Reg.ANG_SAWCFG_TRG = k then s.setAng { s.ang with sawCs := some s.clk.ticks } else s

/-- The ticks that the 48 bits of a word take at 250 MHz / (2 (DIV + 1)) (R84). -/
def State.sawTicks (s : State) : Nat := 96 * (s.lrd Reg.ANG_SAWCFG_DIV + 1)

/-- A word `w` that has been read whole, chip select having fallen at tick `t` (R85): the frequency is over the difference of the stamps, which
are device time. -/
def State.sawAccept (s : State) (w t : Nat) : State :=
  if crc8 40 (w / 256) ≠ w % 256 then s.set1 Reg.ANG_ALRM_SAWCRC
  else if bitAt w 15 then s.set1 Reg.ANG_ALRM_SAWERR
  else
    let a := w / 65536
    let g := s.ang
    let dt := (s.devAt t + 2 ^ 32 - s.rd Reg.ANG_SAWTIME_TIME) % 2 ^ 32
    let g :=
      match g.sawLast with
      | some p =>
        if dt ≠ 0 then
          { g with sawLast := some (a, t), sawLost := false, sawGood := true,
                   sawHz := diff32 a p.1 * lsbTurn * 1000000000 / (dt : Nat) }
        else { g with sawLast := some (a, t), sawLost := false }
      | none => { g with sawLast := some (a, t), sawLost := false }
    let s := s.setAng g
    let s := (s.wr Reg.ANG_SAW_ANGLE a).wr Reg.ANG_SAWTIME_TIME (s.devAt t)
    (s.startTimer tmSaw).angShow

/-- A serial word completes, 48 bits after its chip select (R84): `w` is the word. -/
def State.sawWord (s : State) (w : Nat) : State :=
  match s.ang.sawCs with
  | some t => if s.sawOwned then ((s.elapseTo (t + s.sawTicks)).setAng { s.ang with sawCs := none }).sawAccept w t else s
  | none => s

/-- No accepted word for TMO microseconds, where the tracker reads or is to use serial words (R85). -/
def State.sawTimeout (s : State) : State :=
  let src := s.lrd Reg.ANG_CTRL_SRC
  if s.worksNow .ang ∧ (src = 1 ∨ src = 2 ∨ s.pins.spi0 = 1) ∧ s.timerOn tmSaw then
    let s := s.expire tmSaw (ticksUs (clampNat 10 10000 (s.lrd Reg.ANG_SAWCFG_TMO)))
    ((s.setAng { s.ang with sawLost := true }).set1 Reg.ANG_ALRM_SAWTMO).angShow
  else s

/-! ## Pointing outputs (R87, R88) -/

/-- Channel `n` is set to SINGLE and enabled by the configuration in force, that of the last frame start (R74, R88). -/
def State.acpSingle (s : State) (n : Nat) : Bool := s.lrd (Reg.ANG_ACPCFG_MODE n) = 1 && s.lrd (Reg.ANG_ACPCFG_EN n) = 1

/-- A channel in SINGLE mode is armed; without VALID it is disarmed at once with NOVALID (R88). A SHADOW device keeps its channels disarmed
(R260). -/
def State.acpArm (s : State) (n : Nat) : State :=
  if s.acpSingle n ∧ s.mode ≠ mShadow then
    let s := s.set1 (Reg.ANG_ACPCFG_ARMED n)
    if s.flag Reg.ANG_STAT_VALID then s else s.acpDisarm n
  else s

/-- A write of ARM = 1 (R88): it arms a channel that stands in SINGLE mode, and else the one that the configuration of the next frame start puts
there, such as one written together with it (R74, log 82). -/
def State.acpArmWrite (s : State) (n : Nat) : State :=
  if s.acpSingle n then s.acpArm n else s.setAng { s.ang with acpReq := spPut s.ang.acpReq n 1 }

/-- The Pointing channels at a frame start: written outputs are driven with the configuration now latched (R74, R469), and an ARM that waited for
it acts. -/
def State.acpLatch (s : State) : State :=
  let req := s.ang.acpReq
  req.foldl (fun s e => s.acpArm e.1)
    (s.setAng { s.ang with acpReq := [], acpDriven := s.ang.acpDriven.map (fun e => (e.1, 2)) })

/-- The effective target of channel `n` at the output frequency (R87); a half is rounded to even (log 82). -/
def State.acpTarget (s : State) (n : Nat) : Nat :=
  let lead := min (s.lrd (Reg.ANG_ACPLEAD_LEAD n)) 500000
  pattern 32 ((s.lrd (Reg.ANG_ACPTGT_TGT n) : Nat) - rhe (s.ang.outHz * (lead : Nat) * 4294967296) (fxOne * 1000000))

/-- The effective targets for the frame that starts (R87). -/
def State.acpTargets (s : State) : State :=
  let s := s.acpLatch
  State.acpCross s ((List.range 4).foldl (fun s n =>
    s.setAng { s.ang with acpTheta := spSet s.ang.acpTheta n (s.acpTarget n) 0 }) s)

/-- Whether channel `n` may fire: enabled, in CYCLE mode or armed in SINGLE mode, VALID and a positive frequency (R87, R88), in neither
SHADOW nor LOCKOUT (R260). -/
def State.acpReady (s : State) (n : Nat) : Bool :=
  let mode := s.lrd (Reg.ANG_ACPCFG_MODE n)
  s.worksNow .ang && s.mode != mLockout && s.mode != mShadow && s.lrd (Reg.ANG_ACPCFG_EN n) = 1 && s.flag Reg.ANG_STAT_VALID
    && decide (0 < s.ang.outHz) && ((mode = 1 && s.flag (Reg.ANG_ACPCFG_ARMED n)) || mode = 2)

/-- Whether the present tick is itself the crossing of channel `n` (R87), and its pulse has not started yet: by the replacement of the angle or
target at this tick, or because the angle before this tick was still behind the target. -/
def State.acpNow (s : State) (n : Nat) : Bool :=
  let t := s.clk.ticks
  spFind s.ang.acpLast n != some t
    && (spFind s.ang.acpDue n = some t
      || (decide (s.ang.acpAt < t) && decide (0 ≤ s.acpDiff n t) && decide (s.acpDiff n t < turnsIn s.ang.outHz 1)))

/-- The ticks until the interpolated angle passes the effective target of channel `n` (R87). -/
def State.acpTicks (s : State) (n : Nat) : Nat :=
  let d := s.acpDiff n s.clk.ticks
  let gap := if d < 0 then -d else fxOne - d
  if s.acpNow n then 0 else if 0 < s.ang.outHz then ((gap * 250000000 + s.ang.outHz - 1) / s.ang.outHz).toNat else 0

/-- The pulse of channel `n` starts, with the WIDTH in force, which it completes (R87, R88). -/
def State.acpFire (s : State) (n : Nat) : State :=
  if s.acpReady n then
    let s := s.elapse (s.acpTicks n)
    let s := ((s.set1 (Reg.ANG_ACPCFG_FIRED n)).wr (Reg.ANG_ACPTIME_TIME n) s.now).startTimer (tmAcp n)
    let s := if s.lrd (Reg.ANG_ACPCFG_MODE n) = 1 then s.set0 (Reg.ANG_ACPCFG_ARMED n) else s
    s.setAng { s.ang with acpOn := spPut s.ang.acpOn n (clampNat 1 1000 (s.lrd (Reg.ANG_ACPCFG_WIDTH n))),
                          acpLast := spPut s.ang.acpLast n s.clk.ticks }
  else s

/-- The pulse of channel `n` ends after the WIDTH, in microseconds, with which it started (R87, R88). -/
def State.acpEnd (s : State) (n : Nat) : State :=
  match spFind s.ang.acpOn n with
  | some w =>
    let s := s.expire (tmAcp n) (ticksUs w)
    s.setAng { s.ang with acpOn := spDel s.ang.acpOn n }
  | none => s

/-- The level of pin ACPn, `none` where it is undriven (R467, R469): the active level of POL, as latched, during a pulse. -/
def State.acpPin (s : State) (n : Nat) : Option Bool :=
  if s.regionOn .acq = false || s.mode = mBoot || spFind s.ang.acpDriven n != some 2 then none
  else some ((spFind s.ang.acpOn n).isSome != (s.lrd (Reg.ANG_ACPCFG_POL n) = 1))

/-- ANG_ACPnCFG has been written: its pin is driven from the frame start that latches the configuration (R74, R469). -/
def State.acpWritten (s : State) (n : Nat) : State :=
  if (spFind s.ang.acpDriven n).isSome then s else s.setAng { s.ang with acpDriven := spPut s.ang.acpDriven n 1 }

/-- A fence of ANG_ on a mismatch in channel `ch` (R38, R86). -/
def State.fenceAng (s : State) (ch : Nat) : State :=
  let s := ((s.resRecord .ang ch).errorB .ang kResidue ch 0).wr (blockState .ang) stFenced
  let s := (s.setAng { s.ang with pllOn := false, acpReq := [] }).angShow
  ((List.range 4).foldl (fun s n => s.set0 (Reg.ANG_ACPCFG_ARMED n)) s).acpOff

/-! ## Meanings -/

/-- ANG_FRAME_UPDATE (R82, R83): a residue mismatch in a channel copied for the frame fences the tracker in place of its step (R38, R86). -/
def execAngFrameUpdate (s : State) : Result :=
  done (match s.ang.resBad with
    | some ch => if s.worksNow .ang then s.fenceAng ch.val else s
    | none => s.angFrame)

/-- PLL_PERSISTENCE_EXPIRY (R83). -/
def execPllPersistenceExpiry (s : State) : Result := done s.pllPersist

/-- ZC_EDGE (R75 to R81). -/
def execZcEdge (code : Fin 8) (s : State) : Result := done (s.zcEdge code)

/-- SECTOR_DEAD_TIMEOUT (R80). -/
def execSectorDeadTimeout (s : State) : Result := done s.sectorDead

/-- IDXARM (R78). -/
def execIdxarm (m : Master) (s : State) : Result := done (s.idxArm m)

/-- ANG_ENABLE_CHANGE (R481, R46): EN = 0 lets the frame in progress complete; EN = 1 before OFF is reported is refused. -/
def execAngEnableChange (m : Master) (en : Bool) (s : State) : Result :=
  done (s.gate m true 0x42010000 (fun s =>
    if en then
      (if s.rd (blockEn .ang) = 0 ∧ s.running .ang then s.perr peState m 0x42010000
       else if s.rd (blockEn .ang) = 1 then s else s.angStart)
    else
      s.set0 (blockEn .ang)))

/-- SAW_WORD_RECEIVED (R84, R85). -/
def execSawWordReceived (w : BitVec 48) (s : State) : Result := done (s.sawWord w.toNat)

/-- SAW_TIMEOUT (R85). -/
def execSawTimeout (s : State) : Result := done s.sawTimeout

/-- ACP_PULSE_END (R87). -/
def execAcpPulseEnd (n : Fin 4) (s : State) : Result := done (s.acpEnd n)

/-- ACP_ARM (R88). -/
def execAcpArm (m : Master) (n : Fin 4) (s : State) : Result :=
  done (s.gate m true (0x42010400 + 0x10 * n) (fun s => (s.acpWritten n).acpArmWrite n))

end Sys2Proof.Machine
end

