-- ==== Sys2Proof/Machine/Mode.lean ====
section
/-! DEFINITION. Changes of the operating mode and trips (15, R425, R430), with what every change of mode brings. -/

namespace Sys2Proof.Machine

/-- The range of the committed increment in mode `m`, in units of 2^-32 ns (R345): 3 ns to 5 ns in BOOT and IDLE, else 4 ns +- 150 ppm. -/
def incRange (m : Nat) : Nat × Nat :=
  if m = mBoot ∨ m = mIdle then (3 * 2 ^ 32, 5 * 2 ^ 32) else (17177292204, 17182446164)

/-- Commit an increment in mode `m`: outside the mode's range the nearest limit is used and INCCLAMP set (R345). -/
def State.commitInc (s : State) (m inc : Nat) : State :=
  let r := incRange m
  let v := clampNat r.1 r.2 inc
  let s := s.setClk { s.clk with inc := v }
  if v = inc then s else s.set1 Reg.PTP_ALRM_INCCLAMP

/-- The end of a device halt (R370): the cores run again but for those that External Debug holds and the pairs are no longer frozen. -/
def State.endHalt (s : State) : State :=
  if s.flag Reg.SUP_DBG_HALTED then
    let s := (s.set0 Reg.SUP_DBG_HALTREQ).set0 Reg.SUP_DBG_HALTED
    let s := (List.range 4).foldl (fun s c => if s.rd (coreState c) = 2 then s.wr (coreState c) (s.runState c) else s) s
    s.resumePairs
  else s

/-- The frame period in nanoseconds: the period of class 1 trigger 0 (R34). -/
def State.frameNs (s : State) : Nat := s.rd (Reg.PTP_TRGCFG_PERIOD 0) * 4

/-- Whether the sample-to-apply latency is two frames (R216): every port in service carries the device's one setting, and a port whose region
is lost or off reads 0 (R24, R50). -/
def State.latTwo (s : State) : Bool := (List.range 32).any (fun p => s.rd (Reg.LNK_CFG_LAT p) = 1)

def tmDeadBus : Nat := 350
def tmSlot : Nat := 351
def tmJoin : Nat := 352
def tmRt : Nat := 353
def tmIsAngle : Nat := 354
def tmIsDead : Nat := 355
def tmGrid : Nat := 356
def tmClose : Nat := 357
def tmNoArm : Nat := 358

/-- Whether the forming core computes in mode `m`: the forming modes (R89), and SHADOW of a WARM pair (R260). -/
def State.frmComputes (s : State) (m : Nat) : Bool := isForming m || (m = mShadow && s.rd Reg.MIR_CFG_PAIR = 1)

/-- The mode whose equations the forming core follows: the operating mode, and in SHADOW that of the last record applied (R262, R265). -/
def State.frmAs (s : State) : Nat := if s.mode = mShadow then s.mir.recMode.getD mShadow else s.mode

/-- Whether a change of mode from `old` to `m` is the claim of a WARM shadow into the mode of its records: the mirrored sub-state, timers,
ATTEMPT and dv go on (R261, R265). -/
def State.goesOn (s : State) (old m : Nat) : Bool := old = mShadow && s.rd Reg.MIR_CFG_PAIR = 1 && s.mir.recMode = some m

/-- A change of the sequence sub-state, with the device time of its frame's compute start (R143). -/
def State.setSub (s : State) (n : Nat) : State :=
  if s.rd Reg.FRM_SEQSTAT_SUB = n then s else (s.wr Reg.FRM_SEQSTAT_SUB n).wr Reg.FRM_SEQTIME_TIME s.frm.t0

/-- The claim logic starts in WAIT_DEAD with the dead-time count at 0 (R130). -/
def State.claimStart (s : State) : State := ((s.setSub 1).stopTimer tmDeadBus).stopTimer tmSlot

/-- What a change from mode `old` to mode `m` does to the forming core's sequences: INIT (R90), the sub-state (R130, R143), the magnitude
correction of RESYNC (R137), and the counts of the mode that was left. The counts of R128 run on while the core computes. -/
def State.frmMode (s : State) (old m : Nat) : State :=
  let s := if s.frmComputes m then (if s.frmComputes old then s else (s.set1 Reg.FRM_STAT_INIT).setArm { s.arm with first := isForming m }) else s.set0 Reg.FRM_STAT_INIT
  if s.goesOn old m then s
  else
  let s := [tmJoin, tmRt, tmGrid, tmClose].foldl State.stopTimer s
  let s := if s.frmComputes m then s else (s.stopTimer tmIsAngle).stopTimer tmIsDead
  if m = mReady ∧ s.flag Reg.FRM_SEQCTRL_BSARM then (s.wr Reg.FRM_SEQSTAT_ATTEMPT 0).claimStart
  else if m = mRideThrough then s.setSub 7
  else if m = mResync then (s.setFrm { s.frm with dv := 0, fired := false }).setSub 8
  else s.setSub 0

/-- The device changes its operating mode (R425): time, previous mode, CHG and the count; the increment is clamped to the new mode's
range (R345), a device halt ends (R370), ALIGNED belongs to SHADOW alone (R258), HIBERNATE is entered from IDLE alone (R428), and the local bridges stop
in a mode that does not let them run (R271). -/
def State.setMode (s : State) (m : Nat) : State :=
  if s.mode = m then s
  else
    let s := (s.set0 Reg.MIR_STAT_ALIGNED).setCtl { s.ctl with hibPend := false }
    let s := ((s.wr Reg.SUP_MODE_PREV s.mode).wr Reg.SUP_MODE_MODE m).set1 Reg.SUP_MODE_CHG
    let s := (s.wr Reg.SUP_MODETIME_TIME s.now).addSat Reg.SUP_MODESTAT_TRANSCNT 1
    let s := ((s.commitInc m s.clk.inc).endHalt).castEvent 2
    (if bridgeMode m then s else s.pairsOff).frmMode (s.rd Reg.SUP_MODE_PREV) m

/-- Whether any SUP_TRIP flag is set. -/
def State.tripped (s : State) : Bool :=
  [Reg.SUP_TRIP_OV, Reg.SUP_TRIP_ROG, Reg.SUP_TRIP_FLT, Reg.SUP_TRIP_REDTRIP, Reg.SUP_TRIP_MODFENCE, Reg.SUP_TRIP_OVRTRIP,
    Reg.SUP_TRIP_ARMFENCE, Reg.SUP_TRIP_IHOLD, Reg.SUP_TRIP_FRMFENCE, Reg.SUP_TRIP_INHIBIT, Reg.SUP_TRIP_COMMAND].any s.flag

/-- A trip from the source of flag `f` (R430, R432): recorded, the first one with its bit number and time; in PRECHARGE and the forming
modes it enters READY at the next frame start; in SHADOW a later claim enters READY. -/
def State.trip (s : State) (f : Fld) : State :=
  let s := if s.tripped then s else (s.wr Reg.SUP_TRIP_FIRST f.lo).wr Reg.SUP_TRIPTIME_TIME s.now
  let s := s.set1 f
  if s.mode = mPrecharge ∨ isForming s.mode then s.setCtl { s.ctl with tripPend := true }
  else if s.mode = mShadow then s.setCtl { s.ctl with shadowTrip := true }
  else s

/-- Whether this is a first forming frame that a trip, requested before its launch, withdraws: its nodes stay blocked (R431). -/
def State.formingDropped (s : State) : Bool := s.ctl.tripPend && s.ctl.leftReady

/-- TRIP_REQUEST (R430): firmware or the host asks for a trip. -/
def execTripRequest (m : Master) (s : State) : Result := done (s.gate m true 0x40000304 (fun s => s.trip Reg.SUP_TRIP_COMMAND))

end Sys2Proof.Machine
end

