-- ==== Sys2Proof/Machine/Forming.lean ====
section
/-! DEFINITION. The forming core and the profile generator: one frame of both (03, R89 to R115), with the current limiter, ride-through,
grid side and sequences as far as they act in the frame (04, R116 to R141). Real-valued quantities are on the grid of Numbers. -/

namespace Sys2Proof.Machine

/-! ## Vectors on the grid -/

def cMul (a b : Int × Int) : Int × Int := (fxMul a.1 b.1 - fxMul a.2 b.2, fxMul a.1 b.2 + fxMul a.2 b.1)
def cConj (a : Int × Int) : Int × Int := (a.1, -a.2)
def cAdd (a b : Int × Int) : Int × Int := (a.1 + b.1, a.2 + b.2)
def cSub (a b : Int × Int) : Int × Int := (a.1 - b.1, a.2 - b.2)
def cScale (k : Int) (a : Int × Int) : Int × Int := (fxMul k a.1, fxMul k a.2)
def cAbs (a : Int × Int) : Int := fxSqrt (fxMul a.1 a.1 + fxMul a.2 a.2)
def cDiv (a b : Int × Int) : Int × Int :=
  let d := fxMul b.1 b.1 + fxMul b.2 b.2
  let n := cMul a (cConj b)
  (fxDiv n.1 d, fxDiv n.2 d)

/-- `min 1 (a / b)`; 1 where `b` is 0. -/
def ratioTo1 (a b : Int) : Int := if b ≤ a then fxOne else fxDiv a b

/-! ## The profile generator (R112 to R115) -/

/-- Channel `n` of the profile generator. -/
def State.prfCh (s : State) (n : Nat) : PrfCh := spGet s.prf n (PrfCh.reset n)

/-- The frame period in seconds, on the grid. -/
def State.frameTs (s : State) : Int := fxRat (s.frameNs : Nat) 1000000000

/-- One frame of a profile channel with target `tgt` and limits on the grid (R113). -/
def prfStep (c : PrfCh) (tgt rmax amax jmax ts : Int) (load : Bool) : PrfCh :=
  let e := tgt - c.y
  let top := 2 * fxOne - fxOne / 2 ^ 30
  let arrived : PrfCh := { y := clampInt (-2 * fxOne) top tgt, r := 0, a := 0 }
  if load ∨ rmax = 0 then arrived
  else if amax = 0 then
    let r := clampInt (-rmax) rmax (fxDiv e ts)
    { y := clampInt (-2 * fxOne) top (if fxDiv e ts = r then tgt else c.y + fxMul r ts), r := r, a := 0 }
  else
    let ae : Int := e.natAbs
    let rd0 :=
      if jmax = 0 then fxSqrt (2 * fxMul amax ae)
      else
        let q := fxDiv (fxMul amax amax) (2 * jmax)
        fxSqrt (fxMul q q + 2 * fxMul amax ae) - q
    let rd := (if e < 0 then -1 else if e = 0 then 0 else 1) * min rd0 rmax
    let ad := clampInt (-amax) amax (fxDiv (rd - c.r) ts)
    let a := if jmax = 0 then ad else c.a + clampInt (-(fxMul jmax ts)) (fxMul jmax ts) (ad - c.a)
    let r := clampInt (-rmax) rmax (c.r + fxMul a ts)
    let y := c.y + fxMul r ts
    if (tgt - y).sign ≠ e.sign then arrived else { y := clampInt (-2 * fxOne) top y, r := r, a := a }

/-- One frame of channel `n`, with its reports (R113, R114). -/
def State.prfAdvance (s : State) (n : Nat) : State :=
  let tgt := fxFrom 30 (signed 32 (s.lrd (Reg.PRF_TGT_TGT n)))
  let lim (f : Fld) : Int := fxFrom 24 (s.lrd f : Nat)
  let c := prfStep (s.prfCh n) tgt (lim (Reg.PRF_RMAX_RMAX n)) (lim (Reg.PRF_AMAX_AMAX n)) (lim (Reg.PRF_JMAX_JMAX n)) s.frameTs
    (s.flag (Reg.PRF_CFG_LOAD n))
  let s := (s.setPrf (spPut s.prf n c)).set0 (Reg.PRF_CFG_LOAD n)
  let s := s.reportNear (Reg.PRF_OUT_OUT n) 30 2 c.y
  let s := s.reportNear (Reg.PRF_RATE_RATE n) 24 2 c.r
  s.reportNear (Reg.PRF_ACC_ACC n) 24 2 c.a

/-- Whether channel `n` stands at its target (R115). -/
def State.prfAt (s : State) (n : Nat) : Bool :=
  decide ((s.prfCh n).y = fxFrom 30 (signed 32 (s.rd (Reg.PRF_TGT_TGT n)))) && decide ((s.prfCh n).r = 0)

/-- Every channel stands still: outputs held, rates and accelerations 0 (R93, R107). -/
def State.prfHold (s : State) : State :=
  (List.range 8).foldl (fun s n =>
    ((s.setPrf (spPut s.prf n { s.prfCh n with r := 0, a := 0 })).wr (Reg.PRF_RATE_RATE n) 0).wr (Reg.PRF_ACC_ACC n) 0) s

/-- Step 1 of the frame (R97): the profile generator advances all eight channels. -/
def State.prfFrame (s : State) : State := if s.worksNow .prf then (List.range 8).foldl State.prfAdvance s else s

/-! ## Measurement (R95, R96, R104, R105, R127) -/

/-- What a frame measures: voltage and current vectors in per-unit, the phase currents, the grid vector, and which are valid; and of
the window of R116 its length, V1 and the negative-sequence vector v2 of this frame. -/
structure FrmIn where
  v : Int × Int
  i : Int × Int
  abc : Int × Int × Int
  g : Int × Int
  vOk : Bool
  iOk : Bool
  gOk : Bool
  n : Nat
  v1 : Int
  v2 : Int × Int
  deriving DecidableEq, Repr

/-- A channel in per-unit with an unsigned Q4.12 scale. -/
def State.perUnit (s : State) (c scl : Nat) : Int := (s.snapVal c).2 * (scl : Nat) * 8589934592

/-- The space vector of three per-unit values (R96). -/
def spaceVector (x : Int × Int × Int) : Int × Int :=
  ((2 * x.1 - x.2.1 - x.2.2) / 3, fxMul (x.2.1 - x.2.2) (fxSqrt (fxOne / 3)))

/-- Step 2 (R95, R96), with the substitutes of R104 and R105. -/
def State.frmMeasure (s : State) : FrmIn :=
  let three (a b c : Fld) (scl : Fld) : Int × Int × Int :=
    (s.perUnit (s.lrd a) (s.lrd scl), s.perUnit (s.lrd b) (s.lrd scl), s.perUnit (s.lrd c) (s.lrd scl))
  let ok (a b c : Fld) : Bool := (s.snapVal (s.lrd a)).1 && (s.snapVal (s.lrd b)).1 && (s.snapVal (s.lrd c)).1
  let vOk := ok Reg.FRM_VSEL_CHA Reg.FRM_VSEL_CHB Reg.FRM_VSEL_CHC
  let iOk := ok Reg.FRM_ISEL_CHA Reg.FRM_ISEL_CHB Reg.FRM_ISEL_CHC
  let abc := if iOk then three Reg.FRM_ISEL_CHA Reg.FRM_ISEL_CHB Reg.FRM_ISEL_CHC Reg.FRM_SCL_ISCL else s.frm.cur
  { v := if vOk then spaceVector (three Reg.FRM_VSEL_CHA Reg.FRM_VSEL_CHB Reg.FRM_VSEL_CHC Reg.FRM_SCL_VSCL) else s.frm.vref
    i := spaceVector abc, abc := abc
    g := spaceVector (three Reg.FRM_GSEL_CHA Reg.FRM_GSEL_CHB Reg.FRM_GSEL_CHC Reg.FRM_GCAL_GSCL)
    vOk := vOk, iOk := iOk, gOk := ok Reg.FRM_GSEL_CHA Reg.FRM_GSEL_CHB Reg.FRM_GSEL_CHC, n := 1, v1 := 0, v2 := (0, 0) }

/-- Record what was measured: the conditions IINV and VSUBST, and the last valid currents (R104, R105). -/
def State.frmNote (s : State) (m : FrmIn) : State :=
  let s := s.setFrm { s.frm with cur := m.abc, noCur := if m.iOk then 0 else s.frm.noCur + 1, vSub := !m.vOk }
  let s := if m.iOk then s else s.set1 Reg.FRM_ALRM_IINV
  if m.vOk then s else s.set1 Reg.FRM_ALRM_VSUBST

/-! ## Parameters -/

/-- A per-unit parameter in units of `1 / d`, on the grid. -/
def State.par (s : State) (f : Fld) (d : Int) : Int := fxRat (s.lrd f : Nat) d

/-- The upper field of a pair, raised to the lower where it lies below (R108). -/
def State.parHi (s : State) (lo hi : Fld) (d : Int) : Int := max (s.par lo d) (s.par hi d)

/-- The base frequency in Hz. -/
def State.fbase (s : State) : Int := fxFrom 16 (s.rd Reg.FRM_FBASE_FBASE : Nat)

def State.ilim1 (s : State) : Int := s.par Reg.FRM_ILIM_ILIM1 1000
def State.ilim2 (s : State) : Int := s.parHi Reg.FRM_ILIM_ILIM1 Reg.FRM_ILIM_ILIM2 1000
def State.kzmax (s : State) : Int := s.par Reg.FRM_ZLIM_KZMAX 10
def State.dfreq (s : State) : Int := s.par Reg.FRM_RSYF_DFREQ 1000

/-- VEXIT and HEXIT as used (R125). -/
def State.vexit (s : State) : Int :=
  let e := s.par Reg.FRM_RTV_VENTER 1000
  if e < s.par Reg.FRM_RTV_VEXIT 1000 then s.par Reg.FRM_RTV_VEXIT 1000 else e + fxRat 20 1000
def State.hexit (s : State) : Int :=
  let e := s.par Reg.FRM_RTH_HENTER 1000
  if s.par Reg.FRM_RTH_HEXIT 1000 < e then s.par Reg.FRM_RTH_HEXIT 1000 else e - fxRat 20 1000

/-- Whether the tracker is usable as a reference (R106). -/
def State.trackerUsable (s : State) : Bool := s.flag Reg.ANG_STAT_VALID && decide (0 < s.ang.outHz)

/-! ## Initialisation (R90) -/

/-- The initial states, after step 1 of the first frame. The way back of R140 goes on. -/
def State.frmInit (s : State) : State :=
  if s.flag Reg.FRM_STAT_INIT = false then s
  else
    let s := s.setFrm { s.frm with
      pf := 0, qf := 0, x := 0, hist := [], dphi := [], low := 0, high := 0, noCur := 0 }
    if s.trackerUsable then
      s.setFrm { s.frm with
        theta := s.ang.outTheta % fxOne, omega := fxQ2 (fxDiv s.ang.outHz s.fbase)
        vm := fxFrom 14 (s.rd Reg.ANG_AMP_AMP : Nat) }
    else s.setFrm { s.frm with theta := 0, omega := (s.prfCh 2).y, vm := 0 }

/-! ## Sequence components (R116) -/

/-- The window of half a cycle, in frames. -/
def State.seqN (s : State) : Nat :=
  let w := max s.frm.omega (fxRat 8 10)
  let d := fxMul (fxMul (2 * w) s.fbase) s.frameTs
  if d ≤ 0 then 1250 else (clampInt 1 1250 (rhe fxOne d)).toNat

/-- The mean of a list of vectors. -/
def cMean (l : List (Int × Int)) : Int × Int :=
  let t := l.foldl cAdd (0, 0)
  let n : Int := (max l.length 1 : Nat)
  (t.1 / n, t.2 / n)

/-- The rotation of R116: exp(-j (theta - 90 degrees)). -/
def State.seqRot (s : State) : Int × Int :=
  let cs := fxCosSin s.frm.theta
  (cs.2, cs.1)

/-- The vectors of this frame join the window. -/
def State.seqPush (s : State) (v : Int × Int) : State :=
  let r := s.seqRot
  s.setFrm { s.frm with hist := ((cMul v r, cMul v (cConj r)) :: s.frm.hist).take 1250 }

/-- The window's length, V1 and v2, from the frequency and the machine angle at the start of the frame (R116). -/
def State.seqOf (s : State) (m : FrmIn) : FrmIn :=
  let w := s.frm.hist.take s.seqN
  { m with n := s.seqN, v1 := cAbs (cMean (w.map Prod.fst)), v2 := cMul (cMean (w.map Prod.snd)) s.seqRot }

/-! ## The frame's steps -/

/-- Step 3 (R98); in RIDE_THROUGH Qf is held (R123). -/
def State.frmFilter (s : State) (m : FrmIn) : State :=
  let ts : Int := (s.frameNs : Nat)
  let lp (old : Int) (new : Int) (tau : Nat) : Int :=
    let t : Int := (tau : Nat) * 100000 + ts
    fxQ2 (if t = 0 then new else old + (new - old) * ts / t)
  let p := fxMul m.v.1 m.i.1 + fxMul m.v.2 m.i.2
  let q := fxMul m.v.2 m.i.1 - fxMul m.v.1 m.i.2
  let f := s.frm
  s.setFrm { f with
    pf := lp f.pf p (s.lrd Reg.FRM_FILT_TPF)
    qf := if s.frmAs = mRideThrough then f.qf else lp f.qf q (s.lrd Reg.FRM_FILT_TQF)
    vm := lp f.vm (cAbs m.v) (s.lrd Reg.FRM_FILT_TQF) }

/-- The largest measured current (R117). -/
def FrmIn.ipk (m : FrmIn) : Int :=
  max (cAbs m.i) (max (m.abc.1.natAbs : Int) (max (m.abc.2.1.natAbs : Int) (m.abc.2.2.natAbs : Int)))

/-- Step 4 (R117, R118, R121): stage 2 is judged before k is updated; its first frame uses Pf as Psw. -/
def State.frmLimit (s : State) (m : FrmIn) : State :=
  let f := s.frm
  let pf := f.pf
  if f.stage2 then s.setFrm { f with k := s.kzmax }
  else if s.ilim2 ≤ m.ipk ∨ (f.k = s.kzmax ∧ s.ilim1 < m.ipk) then
    s.setFrm { f with stage2 := true, k := s.kzmax, s2ok := 0, peaks := [], psw := pf }
  else if s.ilim1 < m.ipk then s.setFrm { f with k := min s.kzmax (fxDiv (fxMul f.k m.ipk) s.ilim1), psw := pf }
  else if 100 * m.ipk < 95 * s.ilim1 then
    s.setFrm { f with k := max fxOne (f.k - f.k * (s.frameNs : Nat) / 20000000), psw := pf }
  else s.setFrm { f with psw := pf }

/-- Whether stage 1 acts. -/
def State.stage1 (s : State) : Bool := decide (fxOne < s.frm.k) && !s.frm.stage2

/-- The angle of a vector in turns (R127): of the null vector, which has none, a free value. -/
def State.phi (s : State) (j : Nat) (x : Int × Int) : Int :=
  if x = (0, 0) then (Config.freeNat (s.free + j) : Nat) % fxOne else fxAtan2 x.1 (-x.2)

/-- The grid side of a frame (R127): magnitude, Delta as a signed part of a turn, grid frequency and slip in Hz. -/
structure FrmGrid where
  vg : Int
  delta : Int
  fg : Int
  slip : Int
  deriving DecidableEq, Repr

/-- The grid angle of this frame joins the window. In the first frame after the initialisation of R90 the difference is that from the last frame
computed before it (log 83). -/
def State.gridPush (s : State) (m : FrmIn) : State :=
  let p := s.phi 0 m.g
  s.setFrm { s.frm with phiG := p, dphi := (fxTurn (p - s.frm.phiG) :: s.frm.dphi).take 1250 }

/-- The quantities of R127; the mean is over the differences available (log 83). -/
def State.gridOf (s : State) (m : FrmIn) : FrmGrid :=
  let l := s.frm.dphi.take s.seqN
  let n : Int := (max l.length 1 : Nat)
  let mean := l.foldl (fun a b => a + b) 0 / n
  let fg := if s.frameNs = 0 then 0 else mean * 1000000000 / (s.frameNs : Nat)
  { vg := cAbs m.g
    delta := fxTurn (s.frm.phiG + fxFrom 16 (s.lrd Reg.FRM_GCAL_GOFS) - s.phi 1 m.v)
    fg := fg, slip := fg - fxMul s.frm.omega s.fbase }

/-- Move `x` towards `t` by at most `d`. -/
def towards (x t d : Int) : Int := if x ≤ t then min t (x + d) else max t (x - d)

/-- 1 pu / RAMP per second, over one frame (R132, R134, R140). -/
def State.rampStep (s : State) : Int := s.frameTs * 10 / (max (s.lrd Reg.FRM_BSRAMP_RAMP) 1 : Nat)

/-- The way back of the frequency set-point and of the magnitude correction after RESYNC (R140): to channel 2 at its rate limit, and to 0. -/
def State.frmReturn (s : State) : State :=
  let y := (s.prfCh 2).y
  let rmax := fxFrom 24 (s.lrd (Reg.PRF_RMAX_RMAX 2) : Nat)
  let w :=
    match s.frm.wOver with
    | none => none
    | some w => if rmax = 0 ∨ towards w y (fxMul rmax s.frameTs) = y then none else some (towards w y (fxMul rmax s.frameTs))
  s.setFrm { s.frm with wOver := w, dv := towards s.frm.dv 0 s.rampStep }

/-- The frequency set-point (R112, R138, R140): channel 2, or in RESYNC the grid's frequency and a slip command. -/
def State.frmOmegaStar (s : State) (m : FrmIn) (g : FrmGrid) : State :=
  let y := (s.prfCh 2).y
  if s.frmAs = mResync then
    (if m.gOk then
      let c := clampInt (-(s.dfreq / 2)) (s.dfreq / 2) (g.delta / 2)
      let dv := clampInt (-(fxOne / 10)) (fxOne / 10) (s.frm.dv + 2 * fxMul s.frameTs (g.vg - s.frm.vm))
      s.setFrm { s.frm with wOver := some (fxDiv (g.fg + c) s.fbase), dv := dv }
     else s.setFrm { s.frm with wOver := some (s.frm.wOver.getD y) })
  else s.frmReturn

/-- The frequency set-point in force. -/
def State.omegaStar (s : State) : Int := s.frm.wOver.getD (s.prfCh 2).y

/-- The droop term of R101. -/
def State.qDroop (s : State) : Int :=
  fxMul (s.par Reg.FRM_DROOP_MQ 10000) ((s.prfCh 1).y - s.frm.qf)

/-- The voltage set-point (R112, R132, R134): channel 3, or in BLACK_START the ramp, the bus or the way back. The ramp of a claim is that of the
present DEADV and RAMP (R110); one taken over in JOIN rises from its value. -/
def State.frmVStar (s : State) : State :=
  let f := s.frm
  let v3 := (s.prfCh 3).y
  match s.rd Reg.FRM_SEQSTAT_SUB with
  | 4 =>
    let v := if f.claim then 2 * s.par Reg.FRM_DEAD_DEADV 1000 + f.rampN * s.rampStep else f.vStar + s.rampStep
    s.setFrm { f with vStar := min v3 v, rampN := f.rampN + 1 }
  | 5 => s.setFrm { f with vStar := f.vm - s.qDroop, x := 0 }
  | 6 => s.setFrm { f with vStar := towards f.vStar v3 s.rampStep }
  | _ => s.setFrm { f with vStar := v3 }

/-- Steps 5 and 6 (R99, R106). -/
def State.frmSwing (s : State) : State :=
  let f := s.frm
  let ws := s.omegaStar
  let w := f.omega
  let track := s.lrd Reg.FRM_CTRL_DREF = 0
  let wd := if track ∧ s.trackerUsable then fxDiv s.ang.outHz s.fbase else ws
  let pm := fxQ2 ((s.prfCh 0).y + fxDiv (ws - w) (s.par Reg.FRM_DROOP_MP 10000))
  let acc := pm - f.psw - fxMul (s.par Reg.FRM_DAMP_D 10) (w - wd)
  let w1 := w + acc * (s.frameNs : Nat) / (20000000 * (max (s.lrd Reg.FRM_H_H) 1 : Nat))
  let w2 := clampInt (s.par Reg.FRM_FLIM_FMIN 10000) (s.parHi Reg.FRM_FLIM_FMIN Reg.FRM_FLIM_FMAX 10000) w1
  let bad := track && !s.trackerUsable
  let s := s.setFrm { f with pm := pm, omega := w2 }
  let s := if w1 = w2 then s else s.set1 Reg.FRM_ALRM_FCLAMP
  if bad then s.set1 Reg.FRM_ALRM_TRKINV else s

/-- The output angle in turns (R100): the machine angle, advanced with LCOMP to the middle of the frame in which the nodes apply it. -/
def State.thetaOut (s : State) : Int :=
  let th := s.frm.theta
  let frames2 : Int := if s.latTwo then 5 else 3
  if s.lrd Reg.FRM_CTRL_LCOMP = 1 then (th + fxMul (fxMul s.frm.omega s.fbase) s.frameTs * frames2 / 2) % fxOne else th

/-- Step 7 (R100): the machine angle. -/
def State.frmTurn (s : State) : State :=
  s.setFrm { s.frm with theta := (s.frm.theta + fxMul (fxMul s.frm.omega s.fbase) s.frameTs) % fxOne }

/-- Whether the integrator x runs in this frame (R101, R104, R123, R134). -/
def State.frmXRuns (s : State) (ride : Bool) : Bool :=
  s.lrd Reg.FRM_CTRL_VMODE = 1 && !s.frm.vSub && !ride && s.rd Reg.FRM_SEQSTAT_SUB != 5

/-- Step 8 (R101, R104, R123, R134, R138): x is held while the voltage is substituted, in RIDE_THROUGH, and at 0 in JOIN; `ride` says
whether the device was in RIDE_THROUGH before this frame. -/
def State.frmMag (s : State) (ride : Bool) : State :=
  let f := s.frm
  let es := f.vStar + s.qDroop + f.dv
  let vm := if f.vSub then es else f.vm
  let xl := s.par Reg.FRM_XLIM_XLIM 1000
  let closed := s.lrd Reg.FRM_CTRL_VMODE = 1
  let x0 := f.x
  let run := s.frmXRuns ride
  let x1 := if run then x0 + fxMul (fxMul (s.par Reg.FRM_VCTL_KIV 10) s.frameTs) (es - vm) else x0
  let x2 := if run then clampInt (-xl) xl x1 else x0
  let e1 := if closed then es + fxMul (s.par Reg.FRM_VCTL_KPV 1000) (es - vm) + x2 else es
  let e2 := clampInt (s.par Reg.FRM_ELIM_EMIN 1000) (s.parHi Reg.FRM_ELIM_EMIN Reg.FRM_ELIM_EMAX 1000) e1
  let s := s.setFrm { f with x := x2, e := e2 }
  let s := if x1 = x2 then s else s.set1 Reg.FRM_ALRM_XCLAMP
  if e1 = e2 then s else s.set1 Reg.FRM_ALRM_ECLAMP

/-- Step 9 (R102, R119, R120): the reference vector; in stage 2 with the saturated virtual current. -/
def State.frmVector (s : State) (m : FrmIn) : State :=
  let f := s.frm
  let cs := fxCosSin s.thetaOut
  let e := f.e
  let v2 := m.v2
  let ev0 : Int × Int := (fxMul e cs.2, -(fxMul e cs.1))
  let nseq := s.lrd Reg.FRM_RTCFG_NSEQ
  let ev := if nseq = 1 then cAdd ev0 v2 else ev0
  let rv := fxQ15 (s.lrd Reg.FRM_ZV_RV : Nat)
  let xv := fxQ15 (s.lrd Reg.FRM_ZV_XV : Nat)
  if f.stage2 then
    let kz := cScale f.k (rv, max xv (fxOne / 20))
    let iv := cDiv (cSub ev m.v) kz
    let iv2 := cDiv (-v2.1, -v2.2) kz
    let iv1 := cSub iv iv2
    let peaks := ((cAbs iv, cAbs iv1) :: f.peaks).take m.n
    let pk (sel : Int × Int → Int) : Int := (peaks.map sel).foldl max 0
    let inj := nseq = 2
    let i_n := cScale (ratioTo1 (s.ilim2 / 2) (cAbs iv2)) iv2
    let sc := if inj then ratioTo1 (s.ilim2 - cAbs i_n) (pk Prod.snd) else ratioTo1 s.ilim2 (pk Prod.fst)
    let main := cScale sc (if inj then iv1 else iv)
    let is := if inj then cAdd main i_n else main
    let ok := cAbs iv ≤ s.ilim1 ∧ m.ipk < s.ilim2
    s.setFrm { f with
      vref := cSub ev (cMul kz is), psw := fxMul ev.1 main.1 + fxMul ev.2 main.2, peaks := peaks, s2ok := if ok then f.s2ok + 1 else 0 }
  else s.setFrm { f with vref := cSub ev (cScale f.k (cMul (rv, xv) m.i)) }

/-- A word of the output vector with `k` fraction bits, saturated: within 2 units of the exact value (R103). -/
def State.wordOf (s : State) (j k : Nat) (x : Int) : Nat := pattern 16 (satInt 16 (s.nearAt j k 2 x))

/-- A word of the output vector that shows the held state `x`: rounded half to even and saturated (R103). -/
def wordHeld (x : Int) : Nat := pattern 16 (satInt 16 (fxTo 14 x))

/-- Word 8 + `n` of the output vector: the output of profile channel `n`, from 4 up, as held (R111, R112). -/
def State.prfWord (s : State) (n : Nat) : Nat := wordHeld (fxFrom 30 (signed 32 (s.rd (Reg.PRF_OUT_OUT n))))

/-- Step 10 (R111): the output vector, with the exact output angle `th`; the words of states are those of the states as they are held. -/
def State.frmWords (s : State) (ride : Bool) (th : Int) : State :=
  let f := s.frm
  let v := f.vref
  let cs := fxCosSin th
  let h := fxMul v.2 (fxSqrt (3 * fxOne / 4))
  let w (j : Nat) (x : Int) : Nat := s.wordOf j 14 x
  let zinv := if f.k = fxOne then 0x7FFF else s.wordOf 11 15 (fxDiv fxOne f.k)
  let fl (b : Bool) (i : Nat) : Nat := if b then 2 ^ i else 0
  let flags := 1 + fl s.stage1 1 + fl f.stage2 2 + fl ride 3 + fl f.vSub 4 + fl (decide (0 < f.noCur)) 5
  let s := s.setFrm { f with out :=
    [w 0 v.1, w 1 v.2, w 2 v.1, w 3 (h - v.1 / 2), w 4 (-h - v.1 / 2), s.wordOf 5 15 cs.2, s.wordOf 6 15 cs.1, wordHeld f.e,
     wordHeld f.omega, wordHeld f.pf, wordHeld f.qf, zinv, s.prfWord 4, s.prfWord 5, s.prfWord 6, s.prfWord 7, flags] }
  (s.wr Reg.FRM_ZINV_ZINV zinv).drawnBy 16

/-- The count of a state that the device holds in Q2.30, within 2 units of its exact value (R103). -/
def State.q230 (s : State) (j : Nat) (x : Int) : Int := satInt 32 (s.nearAt j 30 2 x)

/-- The states as the device holds them from this frame to the next (R100, R103): the Q2.30 states within 2 units of the exact results, the
frequency in Q2.46 such that its upper 32 bits are within 2 of theirs, and the angle within one of its 16 fraction bits. Qf and x that this
frame held stay as they are. -/
def State.frmHold (s : State) (ride : Bool) : State :=
  let f := s.frm
  let q (j : Nat) (x : Int) : Int := fxFrom 30 (s.q230 j x)
  let w := fxNear 46 65536 f.omega
  let o := satInt 48 (w.1 + (Config.freeNat (s.free + 6) % (w.2 + 65536) : Nat))
  (s.setFrm { f with
    pf := q 0 f.pf, qf := if ride then f.qf else q 1 f.qf, vm := q 2 f.vm, pm := q 3 f.pm
    e := q 4 f.e, x := if s.frmXRuns ride then q 5 f.x else f.x, omega := fxFrom 46 o, theta := fxFrom 48 (s.nearAt 7 48 1 f.theta) % fxOne }).drawnBy 8

/-- Step 10: the observation registers, those of states as they are held; `th` is the exact output angle. -/
def State.frmObserve (s : State) (m : FrmIn) (g : FrmGrid) (th : Int) : State :=
  let f := s.frm
  let q (x : Int) : Nat := pattern 32 (fxTo 30 x)
  let s := (s.wr Reg.FRM_THETA_THETA (pattern 32 (s.nearAt 0 32 2 th))).drawn
  let s := s.wr Reg.FRM_OMEGA_OMEGA (pattern 32 (fxTo 46 f.omega / 65536))
  let s := (s.wr Reg.FRM_PM_PM (q f.pm)).wr Reg.FRM_PE_PE (q f.pf)
  let s := (s.wr Reg.FRM_QE_QE (q f.qf)).wr Reg.FRM_EMAG_EMAG (q f.e)
  let s := (s.wr Reg.FRM_VM_VM (q f.vm)).wr Reg.FRM_ATIME_ATIME f.t0
  let s := (s.wr Reg.FRM_SEQSTAT_STAGE2 (if f.stage2 then 1 else 0)).wr Reg.FRM_SEQSTAT_STAGE1 (if s.stage1 then 1 else 0)
  let s := s.wr Reg.FRM_SEQSTAT_GRIDOK (if m.gOk then 1 else 0)
  let s := s.reportNear Reg.FRM_SEQV_V1 14 2 m.v1
  let s := s.reportNear Reg.FRM_SEQV_V2 14 2 (cAbs m.v2)
  let s := s.reportNear Reg.FRM_VG_VG 14 2 g.vg
  let s := (s.wr Reg.FRM_DELTA_DELTA (pattern 32 (s.nearAt 0 32 2 g.delta))).drawn
  s.reportNear Reg.FRM_SLIP_SLIP 16 2 g.slip

/-! ## Modes judged in the frame -/

/-- The conditions of R122 met in this frame, as RTCAUSE bits: low voltage, high voltage, stage 2. -/
def State.rtCauses (s : State) (m : FrmIn) : Nat :=
  let lv := decide (4 ≤ s.frm.low) || decide (m.v1 < s.par Reg.FRM_RTV_VENTER 1000)
  let hv := decide (4 ≤ s.frm.high) || decide (s.par Reg.FRM_RTH_HENTER 1000 < m.v1)
  (if lv then 1 else 0) + (if hv then 2 else 0) + (if s.frm.stage2 then 4 else 0)

/-- Count the consecutive frames out of band (R122). -/
def State.rtCount (s : State) (m : FrmIn) : State :=
  let vm := cAbs m.v
  s.setFrm { s.frm with
    low := if vm < s.par Reg.FRM_RTV_VENTER 1000 then min (s.frm.low + 1) 4 else 0
    high := if s.par Reg.FRM_RTH_HENTER 1000 < vm then min (s.frm.high + 1) 4 else 0 }

/-- Disarm the closing Pointing channel where its pulse has not started (R139, R141). -/
def State.closeDisarm (s : State) : State :=
  if s.rd Reg.FRM_SEQSTAT_SUB = 9 ∧ s.frm.fired = false then s.set0 (Reg.ANG_ACPCFG_ARMED (s.lrd Reg.FRM_SEQCTRL_RSYACP)) else s

/-- RIDE_THROUGH entry (R122, R141), and the causes of a stay. -/
def State.rtJudge (s : State) (m : FrmIn) : State :=
  let c := s.rtCauses m
  let k := s.mode
  if c ≠ 0 ∧ (k = mFormGrid ∨ k = mFormIsland ∨ k = mResync) then
    let s := s.closeDisarm.setFrm { s.frm with rtFrom := if k = mResync then mFormIsland else k }
    (s.wr Reg.FRM_SEQSTAT_RTCAUSE c).setMode mRideThrough
  else if k = mRideThrough then s.wr Reg.FRM_SEQSTAT_RTCAUSE (s.rd Reg.FRM_SEQSTAT_RTCAUSE ||| c)
  else s

/-- Run timer `k` while `b` holds. -/
def State.timeWhile (s : State) (k : Nat) (b : Bool) : State :=
  if b then (if s.timerOn k then s else s.startTimer k) else s.stopTimer k

/-- The exit count of RIDE_THROUGH (R124), the counts of R128 in every frame that computes, and the count of an unusable grid side in RESYNC (R138). -/
def State.frmTimers (s : State) (m : FrmIn) (g : FrmGrid) : State :=
  let v1 := m.v1
  let quiet := decide (s.vexit ≤ v1) && decide (v1 ≤ s.hexit) && s.rtCauses m = 0
  let s := s.timeWhile tmRt (s.frmAs = mRideThrough && quiet)
  let far := m.gOk && decide (2 * (s.lrd Reg.FRM_RSY_DANG : Int) * fxOne < 36000 * (g.delta.natAbs : Int))
  let dead := decide (g.vg < s.par Reg.FRM_DEAD_DEADV 1000) && decide (s.par Reg.FRM_RTV_VENTER 1000 ≤ s.frm.vm)
  let s := (s.timeWhile tmIsAngle far).timeWhile tmIsDead dead
  s.timeWhile tmGrid (s.frmAs = mResync && !m.gOk)

/-- A collision of two claims (R135). -/
def State.collide (s : State) : State :=
  let a := s.rd Reg.FRM_SEQSTAT_ATTEMPT
  let s := (s.set1 Reg.FRM_SEQSTAT_COLLISION).setMode mReady
  if a = 7 then (((s.set1 Reg.FRM_SEQSTAT_CLAIMFAIL).set0 Reg.FRM_SEQCTRL_BSARM).wr Reg.FRM_SEQSTAT_ATTEMPT 7).setSub 0
  else (s.wr Reg.FRM_SEQSTAT_ATTEMPT (a + 1)).claimStart

/-- BLACK_START in the frame (R132, R134, R135). -/
def State.bsJudge (s : State) (m : FrmIn) : State :=
  let f := s.frm
  let v3 := (s.prfCh 3).y
  let vm := f.vm
  let live (s : State) : State := (s.setMode mFormIsland).set0 Reg.FRM_SEQCTRL_BSARM
  match s.rd Reg.FRM_SEQSTAT_SUB with
  | 4 =>
    if f.claim ∧ (f.rampN - 1) * (s.frameNs : Nat) < 200000000 ∧ s.par Reg.FRM_DEAD_DEADV 200 ≤ m.ipk then s.collide
    else if f.vStar = v3 then live s else s
  | 5 =>
    let s := s.setFrm { f with joinMax := max f.joinMax vm }
    if vm < s.frm.joinMax - fxOne / 10 then (s.setFrm { s.frm with claim := false }).setSub 4
    else s.timeWhile tmJoin (decide (v3 - fxMul (s.par Reg.FRM_RSY_DMAG 10000) v3 ≤ vm))
  | 6 => if f.vStar = v3 then live s else s
  | _ => s

/-- Whether the conditions of R139 for closing hold. -/
def State.closeOk (s : State) (m : FrmIn) (g : FrmGrid) : Bool :=
  let lead := min (s.lrd (Reg.ANG_ACPLEAD_LEAD (s.lrd Reg.FRM_SEQCTRL_RSYACP))) 500000
  let adv := rhe (g.slip * (lead : Nat) * 4294967296) (fxOne * 1000000)
  let vm := s.frm.vm
  decide (((fxTurn (g.delta + fxFrom 32 adv)).natAbs : Int) * 36000 ≤ (s.lrd Reg.FRM_RSY_DANG : Int) * fxOne)
    && decide (((g.vg - vm).natAbs : Int) ≤ fxMul (s.par Reg.FRM_RSY_DMAG 10000) g.vg) && decide ((g.slip.natAbs : Int) ≤ s.dfreq)
    && !s.stage1 && !s.frm.stage2 && m.gOk && decide (s.vexit ≤ g.vg)

/-- RESYNC in the frame (R139, R140). -/
def State.rsJudge (s : State) (m : FrmIn) (g : FrmGrid) : State :=
  let n := s.lrd Reg.FRM_SEQCTRL_RSYACP
  match s.rd Reg.FRM_SEQSTAT_SUB with
  | 8 =>
    if s.closeOk m g = false ∨ (s.timerOn tmNoArm ∧ s.timerAge tmNoArm < ticksMs 1000) then s
    else if s.acpSingle n then
      ((s.setFrm { s.frm with fired := false }).setSub 9).acpArm n
    else s.set1 Reg.FRM_SEQSTAT_CLOSEFAIL
  | 9 => if s.frm.fired = false ∧ s.closeOk m g = false then s.closeDisarm.setSub 8 else s
  | _ => s

/-! ## The frame -/

/-- The fence of FRM_ (R107): FVALID cleared, and a trip. -/
def State.fenceFrm (s : State) (kind detail : Nat) : State :=
  let s := (s.errorB .frm kind detail 0).wr (blockState .frm) stFenced
  let s := s.set0 Reg.FRM_STAT_FVALID
  (s.setFrm { s.frm with out := s.frm.out.set 16 0 }).trip Reg.SUP_TRIP_FRMFENCE

/-- The fence of PRF_ (R107): outputs held. -/
def State.fencePrf (s : State) (kind detail : Nat) : State :=
  ((s.errorB .prf kind detail 0).wr (blockState .prf) stFenced).prfHold

/-- The output vector of a frame in which the forming core does not compute: FVALID cleared, states and observation registers held (R89,
R93, R107); the profile words follow their channels (R111). -/
def State.frmIdle (s : State) : State :=
  let o := ((((s.frm.out.set 12 (s.prfWord 4)).set 13 (s.prfWord 5)).set 14 (s.prfWord 6)).set 15 (s.prfWord 7)).set 16 0
  (s.setFrm { s.frm with out := o }).set0 Reg.FRM_STAT_FVALID

/-- Steps 2 to 10 of a frame in which the forming core computes. -/
def State.frmCompute (s : State) : State :=
  let s := s.frmInit
  let m := s.frmMeasure
  let s := (s.frmNote m).seqPush m.v
  let m := s.seqOf m
  let s := s.gridPush m
  let g := s.gridOf m
  let s := ((s.drawnBy 2).frmFilter m).frmLimit m
  let s := (s.rtCount m)
  let ride := s.frmAs = mRideThrough
  let s := s.rtJudge m
  let s := ((s.frmOmegaStar m g).frmVStar).frmSwing.frmTurn
  let s := (s.frmMag ride).frmVector m
  let th := s.thetaOut
  let s := ((s.frmHold ride).frmWords (s.frmAs = mRideThrough) th).frmObserve m g th
  let s := ((s.set1 Reg.FRM_STAT_FVALID).set0 Reg.FRM_STAT_INIT)
  let s := if s.mode = mBlackStart then s.bsJudge m else if s.mode = mResync then s.rsJudge m g else s
  s.frmTimers m g

/-- The block reads a value whose residue does not match, at channel `bad` (R37, R38, R107). -/
def State.prfCheck (s : State) (bad : Option Nat) : State :=
  match bad with
  | some c => if s.worksNow .prf then (s.resRecord .prf c).fencePrf kResidue c else s
  | none => s

def State.frmCheck (s : State) (bad : Option Nat) : State :=
  match bad with
  | some c => if s.worksNow .frm then (s.resRecord .frm c).fenceFrm kResidue c else s
  | none => s

/-- A frame of the forming core (R89, R97, R107): residue checks first. -/
def State.formingFrame (s : State) (frmBad prfBad : Option Nat) : State :=
  let s := (s.prfCheck prfBad).frmCheck frmBad
  if s.regionOn .frm = false then s
  else if s.worksNow .frm = false then s.frmIdle
  else if s.frmComputes s.mode = false then s.frmReturn.frmIdle
  else s.frmCompute

/-! ## Meanings -/

/-- FORMING_FRAME (R97). -/
def execFormingFrame (frmBad prfBad : Option (BitVec 8)) (s : State) : Result :=
  done (s.formingFrame (frmBad.map BitVec.toNat) (prfBad.map BitVec.toNat))

/-- STAGE2_END (R118): the eighth consecutive qualifying frame ends stage 2. -/
def execStage2End (s : State) : Result :=
  done (if s.frm.stage2 ∧ 8 ≤ s.frm.s2ok then s.setFrm { s.frm with stage2 := false, s2ok := 0, peaks := [] } else s)

/-- IHOLD_TRIP (R105): after IHOLD consecutive frames of invalid current. -/
def execIholdTrip (s : State) : Result :=
  done (if s.worksNow .frm ∧ isForming s.mode = true ∧ max 1 (s.lrd Reg.FRM_IHOLD_IHOLD) ≤ s.frm.noCur then
    (s.set1 Reg.FRM_ALRM_IHOLD).trip Reg.SUP_TRIP_IHOLD else s)

/-- PRF_LOAD (R114): the channel's output goes to its target at the next frame in which the generator runs; a LOAD written while it is disabled
or fenced waits for it (log 84). -/
def execPrfLoad (m : Master) (n : Fin 8) (s : State) : Result :=
  done (s.gate m true (0x43010110 + 0x20 * n) (fun s => s.set1 (Reg.PRF_CFG_LOAD n)))

end Sys2Proof.Machine
end

