-- ==== Sys2Proof/Machine/Flags.lean ====
section
/-! DEFINITION. The flags that an Armature operation sets: saturation of an accumulator (R146), the domain limits of the trigonometric
unit (R155), and the fault of a tile (R158). -/

namespace Sys2Proof.Machine

/-- A Q10.30 accumulator value, saturated (R5, R146). -/
def sat40 (x : Int) : Int := satInt 40 x

/-- The saturation flags of tile `t`: its bit of ARM_ASATj, and ASAT (R146). -/
def State.flagSat (s : State) (t : Nat) : State := (s.wrBit (Reg.ARM_ASAT_ASAT (t / 32)) (t % 32) true).set1 Reg.ARM_ALRM_ASAT

/-- Write accumulator `i` of tile `t` with the 40-bit pattern `p`, and its residue (R144). -/
def State.putAcc (s : State) (t i p : Nat) : State :=
  s.setArm { s.arm with acc := spSet s.arm.acc (4 * t + i) (p + residue p * 2 ^ 40) 0 }

/-- The domain limit flag of the trigonometric unit (R155). -/
def State.flagDomain (s : State) : State := s.set1 Reg.ARM_ALRM_DOMAIN

/-- The KIND codes of R175. -/
def fkResidue : Nat := 1
def fkCheck : Nat := 2
def fkEccData : Nat := 3
def fkEccProg : Nat := 4
def fkIllop : Nat := 5

/-- The alarm of a tile fault of a kind. -/
def faultAlarm (kind : Nat) : Fld :=
  if kind = fkIllop then Reg.ARM_ALRM_ILLOP else if kind = fkEccData ∨ kind = fkEccProg then Reg.ARM_ALRM_ECCERR else Reg.ARM_ALRM_RESERR

/-- The error kind of a tile fault. -/
def faultKind (kind : Nat) : Nat :=
  if kind = fkResidue then kResidue else if kind = fkCheck then kCheck else if kind = fkIllop then kIllop else kEcc

/-- A schedule ends: no tile runs, no word is on its way, and RUN reads 0. -/
def State.armHalt (s : State) : State :=
  (s.setArm { s.arm with tiles := [], flight := [], run1Now := false }).set0 Reg.ARM_STAT_RUN

/-- The record of a fault of tile `t` at program address `pc`: the first of a frame is kept (R158). -/
def State.armRecord (s : State) (t pc kind : Nat) : State :=
  let s := s.set1 (faultAlarm kind)
  if s.arm.faulted then s
  else
    let s := ((s.wr Reg.ARM_FAULT_ADDR pc).wr Reg.ARM_FAULT_KIND kind).wr Reg.ARM_FAULT_TILE t
    (s.wr Reg.ARM_FAULTTIME_TIME s.frm.t0).setArm { s.arm with faulted := true }

/-- What a fault of a tile does (R158), found in a schedule or outside one (log 87): every tile stops, ARM_ is fenced, AVALID is cleared, and the
converter trips. The reference bank of the frame is not delivered. -/
def State.armStop (s : State) : State :=
  ((s.armHalt.wr (blockState .arm) stFenced).set0 Reg.ARM_STAT_AVALID).trip Reg.SUP_TRIP_ARMFENCE

/-- A fault of tile `t` at program address `pc` (R158), with the address of the word for an uncorrectable one (R449): recorded, reported, and
acted on. -/
def State.armFault (s : State) (t pc kind addr : Nat) : State :=
  (((s.armRecord t pc kind).resRecord .arm t).errorB .arm (faultKind kind) t addr).armStop

end Sys2Proof.Machine
end

