-- ==== Sys2Proof/Machine/Operands.lean ====
section
/-! DEFINITION. Armature instructions and their operands: the fields (R148), the operand and destination forms (R149, R150), legality
(R154), what an instruction waits for (R152), reading and writing through the error-correcting code (R145, R157). -/

namespace Sys2Proof.Machine

/-! ## Fields and legality -/

/-- The fields of an instruction (R148). -/
structure ArmInstr where
  opc : Nat
  acc : Nat
  a : Nat
  b : Nat
  d : Nat
  mod : Nat
  deriving DecidableEq, Repr

/-- The fields of a 48-bit word (R148). -/
def armFields (w : Nat) : ArmInstr :=
  { opc := w / 2 ^ 42 % 64, acc := w / 2 ^ 40 % 4, a := w / 2 ^ 29 % 2048, b := w / 2 ^ 18 % 2048, d := w / 2 ^ 7 % 2048, mod := w % 128 }

/-- Whether an operation reads SRCA, SRCB and its accumulator, and writes a word result to DST (R151). -/
def usesA (opc : Nat) : Bool := [3, 4, 5, 6, 7, 8, 14, 15, 16, 18, 19, 32, 33, 34, 35, 36, 37].contains opc
def usesB (opc : Nat) : Bool := [4, 5, 6, 16, 19, 34, 36, 37].contains opc
def usesAcc (opc : Nat) : Bool := [5, 6, 7, 8, 9, 10, 11, 12, 13, 14, 15, 16, 17, 19, 21].contains opc
def usesD (opc : Nat) : Bool := [17, 18, 19, 32, 33, 34, 35, 36, 37].contains opc

/-- The cycles of an operation (R151). -/
def armCycles (opc : Nat) : Nat :=
  match opc with
  | 4 => 2 | 5 => 2 | 6 => 2 | 17 => 2 | 20 => 3 | 21 => 3 | 32 => 20 | 33 => 20 | 34 => 22 | 35 => 18 | 36 => 24 | 37 => 20 | _ => 1

/-- Whether tile `t` has a trigonometric unit (R144). -/
def trigTile (t : Nat) : Bool := decide (14 ≤ t % 16)

/-- Whether an operand field is legal (R149, R154): not class 111, and no reserved constant. -/
def srcLegal (f : Nat) : Bool := f / 256 != 7 && !(f / 256 = 6 && decide (5 ≤ f % 16))

/-- Whether a destination field is legal (R150, R154). -/
def dstLegal (f : Nat) : Bool := f / 256 != 7

/-- Whether a field names a data word up to 1,021 (R154, LDX and STX). -/
def tripleLegal (f : Nat) : Bool := decide (f ≤ 1021)

/-- Whether an instruction is legal on tile `t` (R154). -/
def armLegal (t : Nat) (i : ArmInstr) : Bool :=
  (decide (i.opc ≤ 21) || (decide (32 ≤ i.opc) && decide (i.opc ≤ 37) && trigTile t))
    && (!usesA i.opc || srcLegal i.a) && (!usesB i.opc || srcLegal i.b) && (!usesD i.opc || dstLegal i.d)
    && (i.opc != 20 || tripleLegal i.a) && (i.opc != 21 || tripleLegal i.d) && (i.opc != 17 || decide (i.mod % 16 ≤ 9))

/-! ## Memories (R145, R157) -/

/-- What a read finds: a value, or a fault of the kind of R175 with the address of the word where that is uncorrectable. -/
inductive ArmRead where
  | val (v : Nat)
  | bad (kind addr : Nat)
  deriving DecidableEq, Repr

/-- The address of data word `a` and of program slot `k` of tile `t` (R29). -/
def tileDataAddr (t a : Nat) : Nat := 0x50001000 + t * 0x2000 + 4 * a
def tileProgAddr (t k : Nat) : Nat := 0x50000000 + t * 0x2000 + 8 * k

/-- A word with its residue above it (R6). -/
def coded (w : Nat) : Nat := w % 65536 + residue (w % 65536) * 65536

/-- The check of a stored item of `n` bits with its residue above them, as it is read (R157): a residue that does not fit is a mismatch. -/
def residueRead (n x : Nat) : ArmRead := if x / 2 ^ n = residue (x % 2 ^ n) then .val x else .bad fkResidue 0

/-- A correction in a tile memory: counted as class A, in ARM_ECCCNT and for its array (R145, R441). -/
def State.armCorrect (s : State) (array w : Nat) : State :=
  ((s.putUpset array w 0).countCorr array).addSat Reg.ARM_ECCCNT_COUNT 1

/-- Read data word `a` of tile `t`: corrected where one bit is upset; a word whose residue does not fit is a mismatch (R6, R157). -/
def State.armData (s : State) (t a : Nat) : State × ArmRead :=
  let w := 1024 * t + a
  let d := spGet s.arm.dat w 0
  let x := s.upsetOf 5 w
  if x = 0 then (s, .val d)
  else
    match eccRead 20 (eccStore 20 (d + residue d * 65536) ^^^ x) with
    | .bad => (s.addSat (Reg.BST_ECC_UNCORR 5) 1, .bad fkEccData (tileDataAddr t a))
    | .good v => if v / 65536 = residue (v % 65536) then (s, .val (v % 65536)) else (s, .bad fkResidue 0)
    | .corrected v =>
      if v / 65536 = residue (v % 65536) then
        ((s.armCorrect 5 w).setArm { s.arm with dat := spSet s.arm.dat w (v % 65536) 0 }, .val (v % 65536))
      else (s, .bad fkResidue 0)

/-- Write data word `a` of tile `t`, with its residue and check bits. -/
def State.putData (s : State) (t a v : Nat) : State :=
  (s.setArm { s.arm with dat := spSet s.arm.dat (1024 * t + a) (v % 65536) 0 }).putUpset 5 (1024 * t + a) 0

/-- Fetch the instruction at address `pc` of tile `t` (R145). -/
def State.armFetch (s : State) (t pc : Nat) : State × ArmRead :=
  let w := 256 * t + pc
  let d := spGet s.arm.prog w 0
  let x := s.upsetOf 4 w
  if x = 0 then (s, .val d)
  else
    match eccRead 48 (eccStore 48 d ^^^ x) with
    | .bad => (s.addSat (Reg.BST_ECC_UNCORR 4) 1, .bad fkEccProg (tileProgAddr t pc))
    | .good v => (s, .val v)
    | .corrected v => ((s.armCorrect 4 w).setArm { s.arm with prog := spSet s.arm.prog w v 0 }, .val v)

/-- Accumulator `i` of tile `t` as it stands, with its residue, and its value. -/
def State.accWord (s : State) (t i : Nat) : Nat := spGet s.arm.acc (4 * t + i) 0
def State.armAcc (s : State) (t i : Nat) : Int := signed 40 (s.accWord t i)

/-! ## Ports (R152, R153) -/

/-- The words in input queue `q` (`8 * tile + port`), each with its arrival cycle. -/
def State.armQueue (s : State) (q : Nat) : List (Nat × Nat) := spGet s.arm.queues q []

/-- The words that an operand field needs in a queue of tile `t`: the queue, and whether the word is removed. -/
def portOf (t f : Nat) : Option (Nat × Bool) := if f / 256 = 4 then some (8 * t + f % 8, f / 8 % 2 = 0) else none

/-- The first cycle in which every word that the operands read is present in its queue (R152); none while one is not there. -/
def State.armPresent (s : State) (t : Nat) (i : ArmInstr) : Option Nat :=
  let word (p : Nat × Bool) (k : Nat) : Option Nat := ((s.armQueue p.1)[k]?).map Prod.fst
  let pa := if usesA i.opc then portOf t i.a else none
  let pb := if usesB i.opc then portOf t i.b else none
  let a := match pa with | some p => word p 0 | none => some 0
  let b :=
    match pb with
    | some p => word p (match pa with | some q => if q.1 = p.1 ∧ q.2 then 1 else 0 | none => 0)
    | none => some 0
  match a, b with
  | some x, some y => some (max x y)
  | _, _ => none

/-- The input queues routed from output port `p` of tile `t`. -/
def State.armRoutes (s : State) (t p : Nat) : List Nat := spGet s.arm.routes (4 * t + p) []

/-- The words that hold or have reserved a place of queue `q`, those on their way among them (R152). -/
def State.armFull (s : State) (q : Nat) : Nat := (s.armQueue q).length + (s.arm.flight.filter (fun w => w.dst = q)).length

/-- The first cycle in which every queue routed from the destination's output port has a free place (R152); none while one has not. -/
def State.armRoom (s : State) (t : Nat) (i : ArmInstr) : Option Nat :=
  if usesD i.opc && i.d / 256 = 4 then
    let l := s.armRoutes t (i.d % 4)
    if l.all (fun q => decide (s.armFull q < 4)) then some ((l.map (fun q => spGet s.arm.roomAt q 0)).foldl max 0) else none
  else some 0

/-! ## Operands (R149) and destinations (R150) -/

/-- The constants of R149. -/
def armConst (n : Nat) : Nat :=
  match n with
  | 0 => 0 | 1 => 0x7FFF | 2 => 0x8000 | 3 => 0x4000 | _ => 0xC000

/-- The head word of input queue `q` leaves it in cycle `c`. -/
def State.armTake (s : State) (q c : Nat) : State :=
  let s := if s.armFull q = 4 then s.setArm { s.arm with roomAt := spPut s.arm.roomAt q c } else s
  s.setArm { s.arm with queues := spSet s.arm.queues q (s.armQueue q).tail [] }

/-- Read an operand in cycle `c`, with its residue: the head word of an input port is removed unless PEEK is set (R149, R152). The residue of a
word from a memory, a port or the bank is checked; `hit` are the bits that are flipped as it is read (R157). -/
def State.armOperand (s : State) (t f c hit : Nat) : State × ArmRead :=
  if f / 256 < 4 then
    match s.armData t f with
    | (s, .val d) => (s, residueRead 16 (coded d ^^^ hit))
    | (s, .bad k a) => (s, .bad k a)
  else if f / 256 = 4 then
    let q := 8 * t + f % 8
    match s.armQueue q with
    | [] => (s, .val 0)
    | w :: _ => (if f / 8 % 2 = 0 then s.armTake q c else s, residueRead 16 (w.2 ^^^ hit))
  else if f / 256 = 5 then (s, residueRead 16 (spGet s.arm.bank (f % 256) 0 ^^^ hit))
  else (s, .val (coded (armConst (f % 16))))

/-- Write a word result at the destination; `last` is the operation's last cycle (R150, R153). -/
def State.armDest (s : State) (t f last v : Nat) : State :=
  if f / 256 < 4 then s.putData t f v
  else if f / 256 = 4 then
    let ws := (s.armRoutes t (f % 4)).map (fun q => ({ cycle := last + (if q / 128 = t / 16 then 2 else 6), src := t, dst := q, val := coded v } : ArmWord))
    s.setArm { s.arm with flight := s.arm.flight ++ ws }
  else if f / 256 = 5 then s.setArm { s.arm with pend := spSet s.arm.pend (f % 32) (coded v) 0 }
  else s

/-- The Q1.15 value of a word, and its extension to Q10.30 (R146). -/
def q15 (w : Nat) : Int := signed 16 w
def ext (w : Nat) : Int := q15 w * 32768

end Sys2Proof.Machine
end

