-- ==== Sys2Proof/Machine/Table.lean ====
section
/-! DEFINITION. Finding a register in the register table, its fields, their stated ranges (clamped writes, R108, and the value check
of R412), and the resets of whole domains (R16). -/

namespace Sys2Proof.Machine

/-- Whether an offset is one of the places the index strides and counts give. -/
def inDims (d : List (Nat × Nat)) (o : Nat) : Bool :=
  match d with
  | [] => o = 0
  | (st, n) :: r => decide (o / st < n) && inDims r (o % st)

/-- The row of the register at address `a`. -/
def cardAt (a : Nat) : Option Card :=
  if a % 4 = 0 then (regTable (a / 0x10000)).find? (fun c => decide (c.base ≤ a) && inDims c.dims (a - c.base)) else none

/-- The fields of the register at address `a`. -/
def fieldsAt (a : Nat) : List CardFld := match cardAt a with | some c => c.flds | none => []

/-- The field `f` of the register at address `a`. -/
def CardFld.at_ (f : CardFld) (a : Nat) : Fld := ⟨a, f.lo, f.wid, f.rst⟩

/-- The stored value of the register at address `a`, its write-only fields as 0 (R12). -/
def State.regWord (s : State) (a : Nat) : Nat :=
  (fieldsAt a).foldl (fun w f => if f.acc = .wo then w else w + s.rd (f.at_ a) * 2 ^ f.lo) 0

/-! ## Stated ranges -/

/-- A stated range of a field: register, indices, lowest bit, least and greatest value. -/
structure RangeRow where
  base : Nat
  dims : List (Nat × Nat)
  lo : Nat
  min : Nat
  max : Nat
  deriving DecidableEq, Repr

/-- The ranges of the FRM_ parameters (03, 04) and of the PRF_ limits (R108). -/
def formRanges : List RangeRow := [
  ⟨0x43000040, [], 0, 10, 3000⟩, ⟨0x43000044, [], 0, 0, 4000⟩, ⟨0x43000048, [], 0, 50, 1000⟩, ⟨0x43000048, [], 16, 50, 1000⟩,
  ⟨0x4300004C, [], 0, 0, 1000⟩, ⟨0x4300004C, [], 16, 0, 1000⟩, ⟨0x43000050, [], 0, 8000, 10000⟩, ⟨0x43000050, [], 16, 10000, 12000⟩,
  ⟨0x43000054, [], 0, 0, 1000⟩, ⟨0x43000054, [], 16, 1000, 1500⟩, ⟨0x43000058, [], 0, 0, 10000⟩, ⟨0x43000058, [], 16, 0, 10000⟩,
  ⟨0x4300005C, [], 0, 0, 500⟩, ⟨0x43000060, [], 0, 0, 9830⟩, ⟨0x43000060, [], 16, 0, 0x4000⟩, ⟨0x43000064, [], 0, 1, 255⟩,
  ⟨0x43000080, [], 0, 1050, 1300⟩, ⟨0x43000080, [], 16, 1200, 2000⟩] ++ [
  ⟨0x43000084, [], 0, 10, 160⟩, ⟨0x43000088, [], 16, 0, 10000⟩, ⟨0x4300008C, [], 0, 100, 950⟩, ⟨0x4300008C, [], 16, 500, 1000⟩,
  ⟨0x43000090, [], 0, 1100, 1300⟩, ⟨0x43000090, [], 16, 1050, 1300⟩, ⟨0x43000094, [], 0, 10, 300⟩, ⟨0x43000098, [], 0, 10, 200⟩,
  ⟨0x43000098, [], 16, 200, 5000⟩, ⟨0x4300009C, [], 0, 0, 500⟩, ⟨0x4300009C, [], 16, 1, 64⟩, ⟨0x430000A4, [], 0, 10, 3000⟩,
  ⟨0x430000A4, [], 16, 10, 2000⟩, ⟨0x430000A8, [], 0, 1, 1000⟩, ⟨0x43010104, [(0x20, 8)], 0, 0, 0x7FFFFFFF⟩,
  ⟨0x43010108, [(0x20, 8)], 0, 0, 0x7FFFFFFF⟩, ⟨0x4301010C, [(0x20, 8)], 0, 0, 0x7FFFFFFF⟩]

/-- The other ranges outside which a written value is held to the nearest limit (02, 06, 09, 11, 16, 17). -/
def heldRanges : List RangeRow := [
  ⟨0x42010114, [], 0, 45 * 65536, 65 * 65536⟩, ⟨0x42010300, [], 16, 10, 10000⟩, ⟨0x42010400, [(0x10, 4)], 16, 1, 1000⟩,
  ⟨0x42010408, [(0x10, 4)], 0, 0, 500000⟩, ⟨0x42020014, [], 0, 0, 1000000⟩, ⟨0x4400010C, [(0x20, 12)], 0, 2, 4096⟩,
  ⟨0x47000104, [(0x20, 12)], 0, 400, 1000000⟩, ⟨0x47000108, [(0x20, 12)], 16, 0, 1600⟩, ⟨0x47000108, [(0x20, 12)], 0, 0, 1600⟩,
  ⟨0x4701000C, [], 0, 0, 800⟩, ⟨0x47010104, [(0x10, 12)], 0, 50, 2000⟩, ⟨0x47010104, [(0x10, 12)], 16, 50, 2000⟩,
  ⟨0x47010108, [(0x10, 12)], 0, 50, 500⟩, ⟨0x47010108, [(0x10, 12)], 16, 20, 500⟩, ⟨0x40080010, [], 20, 650, 850⟩,
  ⟨0x40080010, [], 8, 650, 850⟩, ⟨0x400A000C, [], 16, 40, 150⟩]

/-- Ranges that only the loader judges (R412): bias period, base frequency, shift of a bound channel, ring size and ends. -/
def loadRanges : List RangeRow := [
  ⟨0x47010014, [], 0, 1, 255⟩, ⟨0x4300001C, [], 0, 45 * 65536, 65 * 65536⟩, ⟨0x43000010, [], 0, 1, 0xFFFFFFFF⟩,
  ⟨0x43000014, [], 0, 1, 0xFFFFFFFF⟩, ⟨0x41020400, [(0x8, 32)], 0, 0, 47⟩, ⟨0x40050100, [(0x20, 64)], 28, 0, 14⟩,
  ⟨0x40050100, [(0x20, 64)], 26, 0, 2⟩, ⟨0x40050100, [(0x20, 64)], 19, 0, 1⟩]

/-- The range in a list for the field at bit `lo` of the register at `a`. -/
def rangeIn (l : List RangeRow) (a lo : Nat) : Option (Nat × Nat) :=
  (l.find? (fun r => r.lo = lo && decide (r.base ≤ a) && inDims r.dims (a - r.base))).map (fun r => (r.min, r.max))

/-- The nearest limit of a value outside a range. The two impedances of FRM_ZV are signed: a negative value is below 0. -/
def nearest (a v : Nat) (r : Nat × Nat) : Nat := if a = 0x43000060 ∧ 0x8000 ≤ v then r.1 else clampNat r.1 r.2 v

/-- Whether the register at `a` holds the address of a word, whose bits [1:0] read 0: SUP_BOOTADDRc and MQT_LADDR. -/
def wordAddress (a : Nat) : Bool := a = 0x40060020 || decide (0x40000210 ≤ a ∧ a < 0x40000220)

/-- A value as a write stores it in the field at bit `lo` of the register at `a`, and whether an FRM_ or PRF_ parameter was held to its
range (R108). -/
def heldValue (a lo v : Nat) : Nat × Bool :=
  match rangeIn formRanges a lo with
  | some r => (nearest a v r, nearest a v r != v)
  | none =>
    match rangeIn heldRanges a lo with
    | some r => (nearest a v r, false)
    | none => (if wordAddress a then v / 4 * 4 else v, false)

/-- Whether a value lies within the field's stated range (R412). -/
def valueOk (a lo v : Nat) : Bool :=
  match rangeIn (formRanges ++ heldRanges ++ loadRanges) a lo with
  | some r => decide (nearest a v r = v)
  | none => true

/-! ## Reset domains (R16) -/

/-- The reset domain of the register at address `a`, with the region of a link port by its window. -/
def domRegion (a : Nat) : Option Region :=
  match cardAt a with
  | none => none
  | some c =>
    match c.dom with
    | .por | .chip => none
    | .sup => some .sup | .net => some .net | .acq => some .acq | .frm => some .frm | .mod => some .mod | .grd => some .grd
    | .lnk => if a / 0x1000000 = 0x45 then some .lka else some .lkb

/-- The registers of a region take their reset values (R16). -/
def State.regsOfRegion (s : State) (r : Region) : State := s.setRegs (s.regs.filter (fun e => domRegion (e.1 / 32) != some r))

/-- Every register but those of the POR domain takes its reset value (R16). -/
def State.regsOfChip (s : State) : State :=
  s.setRegs (s.regs.filter (fun e => match cardAt (e.1 / 32) with | some c => c.dom = .por | none => false))

/-- Write every field of the register at `a` from the image `w`, whatever its access code: a write of the loader (R404, R412). -/
def State.loadWord (s : State) (a w : Nat) : State :=
  (fieldsAt a).foldl (fun s f => s.wr (f.at_ a) (w / 2 ^ f.lo)) s

end Sys2Proof.Machine
end

