-- ==== Sys2Proof/Machine/Image.lean ====
section
/-! DEFINITION. Reading a maquette image and the checks of the loader (14, R394 to R401, R408 to R416, R424), with the graph checks of
R174, the safety checks of R318, the pair checks of R266, and the capacity formulas of R242. -/

namespace Sys2Proof.Machine

/-- The little-endian value of `n` bytes of an image from offset `i` (R1). -/
def imU (l : List Nat) (i n : Nat) : Nat := leNat ((l.drop i).take n)

/-- `n` bytes from offset `i`. -/
def imSlice (l : List Nat) (i n : Nat) : List Nat := (l.drop i).take n

/-- `l` cut into pieces of `k` bytes. -/
def imChunks (k fuel : Nat) (l : List Nat) : List (List Nat) :=
  match fuel with
  | 0 => []
  | fuel + 1 => if l = [] then [] else l.take k :: imChunks k fuel (l.drop k)

/-- The 32-bit words of a body. -/
def imWords (l : List Nat) : List Nat := (imChunks 4 (l.length / 4) l).map leNat

/-- A failed check: code (R424), section type, and the image offset of the failing item. -/
structure ImgFail where
  code : Nat
  typ : Nat
  ofs : Nat
  deriving DecidableEq, Repr

/-- The first failure of a list of checks, in order. -/
def firstFail : List (Bool × ImgFail) → Option ImgFail
  | [] => none
  | (ok, f) :: r => if ok then firstFail r else some f

/-- Whether a list rises strictly. -/
def rising : List Nat → Bool
  | a :: b :: r => decide (a < b) && rising (b :: r)
  | _ => true

/-! ## Header and table (R394 to R396) -/

/-- A section of an image: type, offset and length of its body, and the stored CRC (R396). -/
structure ImgSect where
  typ : Nat
  ofs : Nat
  len : Nat
  crc : Nat
  deriving DecidableEq, Repr

/-- The sections the table of an image lists. -/
def imSects (l : List Nat) : List ImgSect :=
  (List.range (imU l 0x0C 2)).map (fun k =>
    let e := 0x80 + 16 * k
    { typ := imU l e 1, ofs := imU l (e + 4) 4, len := imU l (e + 8) 4, crc := imU l (e + 12) 4 })

/-- The section of a type. -/
def imFind (l : List Nat) (t : Nat) : Option ImgSect := (imSects l).find? (fun x => x.typ = t)

/-- The body of a section; empty where it is absent. -/
def imBody (l : List Nat) (t : Nat) : List Nat := match imFind l t with | some x => imSlice l x.ofs x.len | none => []

/-- Where a section's body starts; 0 where it is absent. -/
def imOfs (l : List Nat) (t : Nat) : Nat := match imFind l t with | some x => x.ofs | none => 0

/-- Whether the bytes from `a` to `b` of an image are zero (R394). -/
def imZero (l : List Nat) (a b : Nat) : Bool := (imSlice l a (b - a)).all (fun x => x = 0)

/-- The section types of a full image (R396). -/
def fullTypes : List Nat := [1, 2, 3, 4, 5, 6, 7, 8, 9, 10, 11, 12]

/-- The checks of the table entries from number `k` on, each failing at its own offset (R394, R396, R398): types rise from above `t`; bodies follow in
their order from `p`, aligned, without overlap, with zero bytes between; the last ends where IMGLEN says (log 69). -/
def entryChecks (l : List Nat) (k p t : Nat) : List ImgSect → List (Bool × ImgFail)
  | [] => [(p = imU l 0x08 4, ⟨5, 0, 8⟩)]
  | x :: r =>
    let e := 0x80 + 16 * k
    (imU l (e + 1) 3 = 0 && decide (t < x.typ) && (fullTypes.contains x.typ || x.typ = 15) && decide (p ≤ x.ofs) && x.ofs % 4 = 0 && x.len % 4 = 0
      && imZero l p x.ofs && (x.typ != 15 || x.len = 132), ⟨5, 0, e⟩) :: entryChecks l (k + 1) (x.ofs + x.len) x.typ r

/-- A firmware region lies wholly in the flash window or in SUP SRAM (R401). -/
def fwPlaced (a n : Nat) : Bool :=
  (decide (0x60000000 ≤ a) && decide (a + n ≤ 0x70000000)) || (decide (0x10000000 ≤ a) && decide (a + n ≤ 0x10400000))

/-- The header checks (R395, R401): magic, CRC, then the fields of the format by rising offset (log 69), each failing at its own offset (R424). -/
def headerFail (l : List Nat) (limit : Nat) (closed : Bool) : Option ImgFail :=
  let n := imU l 0x08 4
  let fw := imU l 0x20 4
  let fwa := imU l 0x1C 4
  let entry := imU l 0x18 4
  firstFail [(imU l 0 4 = 0x4D515445, ⟨2, 0, 0⟩), (crc32c (l.take 124) = imU l 0x7C 4, ⟨3, 0, 0x7C⟩),
    (imU l 4 2 = 1, ⟨4, 0, 4⟩), (imU l 6 2 = 0x80, ⟨4, 0, 6⟩),
    (decide (0x80 ≤ n) && decide (n ≤ limit) && decide (n ≤ l.length), ⟨4, 0, 8⟩),
    (decide (1 ≤ imU l 0x0C 2) && decide (imU l 0x0C 2 ≤ 13), ⟨4, 0, 0x0C⟩), (decide (imU l 0x0E 1 < 2), ⟨4, 0, 0x0E⟩),
    (imU l 0x0F 1 = 0, ⟨4, 0, 0x0F⟩), (imU l 0x14 4 = 0x81921296, ⟨4, 0, 0x14⟩),
    (fw = 0 || (decide (fwa ≤ entry) && decide (entry < fwa + fw)), ⟨4, 0, 0x18⟩), (fw = 0 || fwPlaced fwa fw, ⟨4, 0, 0x1C⟩),
    (fw ≠ 0 || !closed, ⟨4, 0, 0x20⟩), (imU l 0x24 4 = 0, ⟨4, 0, 0x24⟩), (imU l 0x78 4 = 0, ⟨4, 0, 0x78⟩)]

/-- The table checks (R394, R396): the entries in order, the sections a full image must hold, and for a live image R420. -/
def tableFail (l : List Nat) (live : Bool) : Option ImgFail :=
  let x := imSects l
  let ts := x.map ImgSect.typ
  firstFail (entryChecks l 0 (0x80 + 16 * x.length) 0 x ++ [(live || fullTypes.all ts.contains, ⟨5, 0, 0x80⟩),
    (if live then imU l 0x0E 1 = 1 && ts.all (fun t => t = 6 || t = 7 || t = 15) && (ts.contains 6 || ts.contains 7) else imU l 0x0E 1 = 0,
      ⟨0x2C, 0, 0x0E⟩)])

/-- The CRCs of the bodies, in table order. -/
def bodyFail (l : List Nat) : Option ImgFail :=
  firstFail ((imSects l).map (fun x => (crc32c (imSlice l x.ofs x.len) = x.crc, ⟨6, x.typ, x.ofs⟩)))

/-! ## Authentication (R397 to R400) -/

/-- The index of the table entry of the signature. -/
def sigEntry (l : List Nat) : Nat := 0x80 + 16 * (((imSects l).map ImgSect.typ).idxOf 15)

/-- The bytes a signature covers: up to its body, with the CRC field of its table entry read as 0 (R398). -/
def signedBytes (l : List Nat) : List Nat :=
  let e := sigEntry l + 12
  (l.take e ++ [0, 0, 0, 0] ++ l.drop (e + 4)).take (imOfs l 15)

/-- The hash a key slot holds, as the big-endian number of R397; word `i` of the staged hash is its bytes 4i to 4i + 3. -/
def Fuses.slotHash (f : Fuses) (k : Nat) : Nat := beNat ((List.range 8).flatMap (fun i => leBytes 4 (spGet f.keyHash (8 * k + i) 0)))

/-- A slot can be used: programmed and not revoked. -/
def Fuses.usable (f : Fuses) (k : Nat) : Bool := bitAt f.keyProg k && !bitAt f.keyRev k

/-- The signature and key checks (R398, R399). -/
def signatureFail (f : Fuses) (l : List Nat) : Option ImgFail :=
  match imFind l 15 with
  | none => if f.secMode = 1 then some ⟨8, 15, 0⟩ else none
  | some x =>
    let b := imSlice l x.ofs x.len
    let k := b.getD 0 0
    firstFail [(decide (k < 4) && f.usable k && f.slotHash k = sha256 (imSlice b 4 64), ⟨9, 15, x.ofs⟩),
      (ecdsaOk (sha256 (signedBytes l)) (beNat (imSlice b 68 32)) (beNat (imSlice b 100 32)) (beNat (imSlice b 4 32)) (beNat (imSlice b 36 32)),
        ⟨10, 15, x.ofs⟩)]

/-- The bodies STRUCT covers, in type order (R395). -/
def structTypes : List Nat := [1, 2, 3, 4, 5, 8, 9, 10, 11, 12]
def structDigest (l : List Nat) : Nat := sha256 (structTypes.flatMap (imBody l))
def headStruct (l : List Nat) : Nat := beNat (imSlice l 0x48 32)

/-! ## Register images (R412) -/

/-- The entries of a register image: address and value. -/
def regImage (b : List Nat) : List (Nat × Nat) := (imChunks 8 (b.length / 8) b).map (fun e => (leNat (e.take 4), leNat (e.drop 4)))

/-- The bits of the register at `a` that its fields take. -/
def fieldMask (a : Nat) : Nat := (fieldsAt a).foldl (fun m f => m + (2 ^ f.wid - 1) * 2 ^ f.lo) 0

/-- Whether a value has bits outside a register's fields. -/
def reservedClear (a v : Nat) : Bool := v &&& fieldMask a = v

/-- The registers a section may hold (R412). -/
def sectPermits (t a : Nat) : Bool :=
  (cardAt a).isSome &&
  match t with
  | 6 => [0x43000000, 0x43000010, 0x43000014, 0x4300001C, 0x430000A0].contains a
      || (decide (0x43000020 ≤ a) && decide (a ≤ 0x43000028)) || (decide (0x43000040 ≤ a) && decide (a ≤ 0x43000064))
      || (decide (0x43000080 ≤ a) && decide (a ≤ 0x430000B4))
      || (decide (0x43010100 ≤ a) && decide (a < 0x43010200) && decide (a % 0x20 ≤ 0xC))
  | 7 => a = 0x4701000C || a = 0x47010014 || (decide (0x47010100 ≤ a) && decide (a < 0x470101C0) && decide (a % 0x10 ≤ 8))
      || (decide (0x47010300 ≤ a) && decide (a < 0x47010320) && a % 8 = 0)
      || (decide (0x47010400 ≤ a) && decide (a < 0x47010420) && decide (a % 0x10 ≤ 8))
  | 9 => (decide (0x41000100 ≤ a) && decide (a < 0x41000300) && [0, 4, 8, 0x10].contains (a % 0x40))
      || (decide (0x41001000 ≤ a) && decide (a < 0x41001800))
      || (decide (0x41020100 ≤ a) && decide (a < 0x41020200) && decide (a % 0x20 ≤ 0x10))
      || (decide (0x41020400 ≤ a) && decide (a < 0x41020500))
  | 10 => (decide (0x40050100 ≤ a) && decide (a < 0x40050900) && decide (a % 0x20 ≤ 4))
      || (decide (0x40040100 ≤ a) && decide (a < 0x40040500) && decide (a % 0x20 ≤ 0xC))
  | _ => false

/-- Whether every field of a value lies within its stated range. -/
def valuesOk (e : Nat × Nat) : Bool := (fieldsAt e.1).all (fun f => valueOk e.1 f.lo (e.2 / 2 ^ f.lo % 2 ^ f.wid))

/-- The base rules of section 0x06 (R412): the four bases present, EN = 0. -/
def formRules (es : List (Nat × Nat)) : Bool :=
  [0x43000010, 0x43000014, 0x4300001C, 0x430000A0].all (fun a => es.any (fun e => e.1 = a))
    && es.all (fun e => !(e.1 = 0x43000000 && e.2 % 2 = 1))

/-- The checks of a register image of section `t` whose body starts at `ofs` (R412). -/
def imageFail (t ofs : Nat) (b : List Nat) : Option ImgFail :=
  let es := regImage b
  firstFail [(b.length % 8 = 0 && rising (es.map Prod.fst) && es.all (fun e => sectPermits t e.1 && reservedClear e.1 e.2), ⟨0x0D, t, ofs⟩),
    (es.all valuesOk && (t ≠ 6 || formRules es), ⟨0x0E, t, ofs⟩)]

/-! ## Pins, clocks, regions, mailboxes, policy (R408 to R410, R414, R415) -/

def pinsOk (b : List Nat) : Bool :=
  b.length = 24 && imU b 0 4 = 1 && decide (b.getD 4 0 ≤ 1) && decide (b.getD 5 0 < 4) && imU b 6 2 = 0 && (b.drop 8).all (fun x => decide (x < 8))

def clocksOk (b : List Nat) : Bool :=
  b.length = 16 && imU b 0 4 = 1 && decide (20 ≤ imU b 4 2) && decide (imU b 4 2 ≤ 400) && imU b 6 2 = 0
    && decide (4 * 2 ^ 32 + imU b 12 4 ≤ 5 * 2 ^ 32)

/-- The slots of port `p` in a topology body. -/
def topoSlots (b : List Nat) (p : Nat) : Nat := imU b (8 + 16 * p) 4 % 1024

/-- The regions that the sections write (R410): NET, FRM, MOD, GRD and SUP, and LKA and LKB where one of their ports has slots. -/
def writtenRegions (topo : List Nat) : Nat :=
  1 + 2 + 8 + 16 + 128 + (if (List.range 16).any (fun p => topoSlots topo p != 0) then 32 else 0)
    + (if (List.range 16).any (fun p => topoSlots topo (p + 16) != 0) then 64 else 0)

def regionsOk (b topo : List Nat) : Bool :=
  b.length = 8 && imU b 0 4 = 1 && imU b 5 3 = 0 && b.getD 4 0 &&& writtenRegions topo = writtenRegions topo

def mailboxOk (b : List Nat) : Bool :=
  b.length = 128 && (imWords b).all (fun w =>
    reservedClear 0x40011000 w && (!bitAt w 31 ||
      (decide (w / 2 ^ 24 % 16 ≤ 4) && decide (w / 2 ^ 20 % 16 ≤ 4) && w / 2 ^ 24 % 16 != w / 2 ^ 20 % 16 && decide (1 ≤ w % 2 ^ 17)
        && decide (w % 2 ^ 17 ≤ 100000))))

def policyOk (b : List Nat) : Bool :=
  b.length = 48 && imU b 0 4 = 1 && (List.range 9).all (fun m => decide (imU b (4 + 4 * m) 4 < 2 ^ 30)) && imU b 0x24 4 = 0
    && imU b 0x2A 2 != 0 && decide (b.getD 0x2C 0 < 4) && decide (b.getD 0x2D 0 < 32) && decide (b.getD 0x2E 0 < 32) && decide (b.getD 0x2F 0 < 2)

/-! ## Rings (R371) -/

/-- The value a register image gives address `a`, or `d`. -/
def imageGet (es : List (Nat × Nat)) (a d : Nat) : Nat := match es.find? (fun e => e.1 = a) with | some e => e.2 | none => d

/-- The rings that a section 0x0A lists, with their base and size. -/
def listedRings (es : List (Nat × Nat)) : List (Nat × Nat) :=
  ((List.range 64).filter (fun n => es.any (fun e => e.1 = 0x40050100 + 0x20 * n || e.1 = 0x40050104 + 0x20 * n))).map (fun n =>
    (imageGet es (0x40050104 + 0x20 * n) 0x10000000, 64 * 2 ^ (imageGet es (0x40050100 + 0x20 * n) 0 / 2 ^ 28)))

/-- No two rings of a list overlap. -/
def ringsApart : List (Nat × Nat) → Bool
  | [] => true
  | (a, n) :: r => r.all (fun e => decide (a + n ≤ e.1) || decide (e.1 + e.2 ≤ a)) && ringsApart r

/-- The ring checks (R371), with the port rings of the enabled ports of section 0x09 (R424). -/
def ringsOk (es net : List (Nat × Nat)) : Bool :=
  let rs := listedRings es
  rs.all (fun e => e.1 % e.2 = 0 && decide (0x10000000 ≤ e.1) && decide (e.1 + e.2 ≤ 0x10400000)) && ringsApart rs
    && (List.range 8).all (fun p =>
      let c := imageGet net (0x41000100 + 0x40 * p) 0
      let rx := imageGet es (0x40050100 + 0x20 * (c % 64)) 0
      let tx := imageGet es (0x40050100 + 0x20 * (c / 2 ^ 8 % 64)) 0
      !bitAt c 31 || (rx / 2 ^ 26 % 4 = 1 && rx / 2 ^ 21 % 32 = p && tx / 2 ^ 19 % 4 = 1 && tx / 2 ^ 16 % 8 = p))

/-! ## Topology (R202, R203, R242, R411) -/

/-- The port records, the arm records and the submodule records of a topology body. -/
def topoPort (b : List Nat) (p : Nat) : List Nat := imWords (imSlice b (8 + 16 * p) 16)
def topoArm (b : List Nat) (a : Nat) : List Nat := imWords (imSlice b (520 + 32 * a) 32)
def topoSms (b : List Nat) : List (List Nat) := imChunks 12 (imU b 4 2) (b.drop 904)

/-- The fields of a port record (LNKn_CFG, LNKn_CFG2). -/
structure TopoPort where
  n : Nat
  fib : Nat
  peer : Nat
  endB : Bool
  topo : Nat
  hold : Nat
  split : Nat
  chainB : Nat
  csig : Nat
  deriving DecidableEq, Repr

def topoPortOf (b : List Nat) (p : Nat) : TopoPort :=
  let w := topoPort b p
  let c := w.getD 0 0
  let d := w.getD 1 0
  { n := c % 1024, fib := c / 2 ^ 10 % 512, peer := c / 2 ^ 20 % 32, endB := bitAt c 25, topo := c / 2 ^ 26 % 4, hold := c / 2 ^ 28,
    split := d % 512, chainB := d / 2 ^ 9 % 32, csig := d / 2 ^ 16 }

/-- The global index of slot `j` of port `p` (R203). -/
def topoIndex (b : List Nat) (p j : Nat) : Nat :=
  let t := topoPortOf b p
  let chain := if t.topo = 1 ∧ t.endB then t.peer else p
  if j < t.split then chain * 256 + j else t.chainB * 256 + (t.n - 1 - j)

/-- The indices that the ports have slots for. -/
def topoIndices (b : List Nat) : List Nat := (List.range 32).flatMap (fun p => (List.range (topoSlots b p)).map (topoIndex b p))

/-- Whether the record of a port agrees with R202 and R203, and with its peer's. -/
def portOk (b : List Nat) (p : Nat) : Bool :=
  let t := topoPortOf b p
  let q := topoPortOf b t.peer
  t.n = 0 ||
    (match t.topo with
     | 0 => decide (t.n ≤ 256) && t.split = t.n && !t.endB
     | 1 => decide (2 ≤ t.n) && decide (t.n ≤ 512) && decide (t.split ≤ 256) && decide (t.split ≤ t.n) && decide (t.n - t.split ≤ 256)
         && t.peer != p && q.topo = 1 && q.peer = p && q.endB != t.endB && q.n = t.n && q.split = t.split && q.csig = t.csig
         && q.chainB = t.chainB && q.hold = t.hold && q.fib = t.fib && t.chainB = (if t.endB then p else t.peer)
     | 2 => decide (2 ≤ t.n) && decide (t.n ≤ 256) && t.split = t.n
     | _ => false)

/-- Ser, Tmin and Tch of a port in ns (R242). -/
def serNs (n : Nat) : Nat := 128 + 48 * n
def tminNs (t : TopoPort) : Nat :=
  let x := if t.topo = 0 then serNs t.n + 40 * t.n + 100 * t.fib + 2000 else serNs t.n + 32 * t.n + 50 * t.fib + 2000
  max 10000 ((x + 499) / 500 * 500)
def tchNs (t : TopoPort) : Nat := serNs t.n + 32 * t.n + 50 * t.fib + 1000

/-- The latency mode by R216: 0 ONE, 1 TWO, for a frame period in ns. -/
def latMode (b : List Nat) (t : Nat) : Nat :=
  if (List.range 32).all (fun p => topoSlots b p = 0 || decide (tchNs (topoPortOf b p) + 4500 ≤ t)) then 0 else 1

/-- The image of the arm registers of arm `a`: address and value. -/
def armRegs (b : List Nat) (a : Nat) : List (Nat × Nat) :=
  let w := topoArm b a
  [(0x44000100 + 0x20 * a, w.getD 0 0), (0x44000104 + 0x20 * a, w.getD 1 0), (0x44000108 + 0x20 * a, w.getD 2 0),
   (0x4400010C + 0x20 * a, w.getD 3 0), (0x44010100 + 0x10 * a, w.getD 4 0), (0x44010104 + 0x10 * a, w.getD 5 0),
   (0x44010108 + 0x10 * a, w.getD 6 0), (0x4401010C + 0x10 * a, w.getD 7 0)]

/-- The topology checks, in the order of the codes (R411, R424). `t` is the frame period in ns. -/
def topoFail (ofs : Nat) (b : List Nat) (t : Nat) : Option ImgFail :=
  let sms := topoSms b
  let idx := sms.map (fun x => imU x 0 2)
  let ports := (List.range 32).all (fun p =>
    let w := topoPort b p
    reservedClear 0x45000010 (w.getD 0 0) && !bitAt (w.getD 0 0) 19 && reservedClear 0x45000014 (w.getD 1 0)
      && reservedClear 0x45000020 (w.getD 2 0) && w.getD 3 0 = 0)
  let arms := (List.range 12).all (fun a => (armRegs b a).all (fun e => reservedClear e.1 e.2))
  let armOf (x : List Nat) := x.getD 2 0
  let battery (x : List Nat) : Bool := decide (2 ≤ x.getD 3 0)
  firstFail [
    (b.length = 904 + 12 * imU b 4 2 && imU b 0 4 = 1 && decide (imU b 4 2 ≤ 8192) && imU b 6 2 = 0 && ports && arms
      && idx.all (fun i => decide (i < 8192)) && rising idx && sms.all (fun x => decide (x.getD 3 0 < 4)), ⟨0x12, 4, ofs⟩),
    ((List.range 12).all (fun a =>
      let k := sms.filter (fun x => armOf x = a)
      k.all battery || k.all (fun x => !battery x)), ⟨0x13, 4, ofs⟩),
    (sms.all (fun x => decide (armOf x < 12)) && (List.range 12).all (fun a => decide ((sms.filter (fun x => armOf x = a)).length ≤ 2048))
      && idx.all (topoIndices b).contains && (topoIndices b).all idx.contains, ⟨0x14, 4, ofs⟩),
    ((List.range 32).all (portOk b), ⟨0x15, 4, ofs⟩),
    ((List.range 32).all (fun p => topoSlots b p = 0 || decide (tminNs (topoPortOf b p) ≤ t)), ⟨0x16, 4, ofs⟩)]

/-! ## The Armature graph (R173, R174) -/

/-- A tile record (R173): tile, worst-case time, instructions, data words. -/
structure GraphTile where
  tile : Nat
  wcet : Nat
  instrs : List Nat
  dat : List Nat
  deriving DecidableEq, Repr

/-- Read `n` tile records; `none` where a length, a reserved byte or the padding is wrong, or bytes are left. -/
def graphTiles (n : Nat) (l : List Nat) : Option (List GraphTile) :=
  match n with
  | 0 => if l = [] then some [] else none
  | n + 1 =>
    let ni := imU l 2 2
    let nd := imU l 4 2
    let len := 8 + 6 * ni + 2 * nd
    let all := (len + 3) / 4 * 4
    if 8 ≤ l.length ∧ l.getD 1 0 = 0 ∧ 1 ≤ ni ∧ ni ≤ 256 ∧ nd ≤ 1024 ∧ all ≤ l.length ∧ imZero l len all = true then
      (graphTiles n (l.drop all)).map (fun r =>
        { tile := l.getD 0 0, wcet := imU l 6 2, instrs := (imChunks 6 ni (imSlice l 8 (6 * ni))).map leNat,
          dat := (imChunks 2 nd (imSlice l (8 + 6 * ni) (2 * nd))).map leNat } :: r)
    else none

/-- The routes: source tile and port, destination tile and port. -/
def graphRoutes (b : List Nat) : List (List Nat) := imChunks 4 (imU b 6 2) (imSlice b 16 (4 * imU b 6 2))

/-- The tile records of a graph body. -/
def graphRead (b : List Nat) : Option (List GraphTile) := graphTiles (imU b 4 2) (b.drop (16 + 4 * imU b 6 2))

/-- The instructions of a program, and those that a schedule executes: up to its first END. -/
def GraphTile.program (t : GraphTile) : List ArmInstr := t.instrs.map armFields
def GraphTile.run (t : GraphTile) : List ArmInstr :=
  let is := t.program
  is.take (is.findIdx (fun i => i.opc = 1) + 1)

/-- Whether the fields that an operation does not use are 0 (R148, R151). -/
def unusedZero (i : ArmInstr) : Bool :=
  let usesAcc := decide (2 ≤ i.opc) && decide (i.opc ≤ 21) && i.opc != 18
  (usesAcc || i.acc = 0) && (usesA i.opc || i.opc = 20 || i.a = 0) && (usesB i.opc || i.b = 0) && (usesD i.opc || i.opc = 21 || i.d = 0)
    && decide (i.mod < (if i.opc = 9 ∨ i.opc = 10 then 4 else if i.opc = 11 then 32 else if i.opc = 17 then 16 else 1))

/-- The words that an instruction removes from input port `p`. -/
def takesFrom (p : Nat) (i : ArmInstr) : Nat :=
  let one (f : Nat) : Nat := if f / 256 = 4 ∧ f % 8 = p ∧ f / 8 % 2 = 0 then 1 else 0
  (if usesA i.opc then one i.a else 0) + (if usesB i.opc then one i.b else 0)

/-- Whether an instruction reads input port `p`. -/
def readsPort (p : Nat) (i : ArmInstr) : Bool :=
  (usesA i.opc && i.a / 256 = 4 && i.a % 8 = p) || (usesB i.opc && i.b / 256 = 4 && i.b % 8 = p)

/-- Whether an instruction writes output port `p`. -/
def writesPort (p : Nat) (i : ArmInstr) : Bool := usesD i.opc && i.d / 256 = 4 && i.d % 4 = p

/-- Whether an instruction writes reference bank word `w`. -/
def writesBank (w : Nat) (i : ArmInstr) : Bool := usesD i.opc && i.d / 256 = 5 && i.d % 32 = w

/-- Whether an instruction writes a parameter word. -/
def writesParam (i : ArmInstr) : Bool :=
  (usesD i.opc && decide (i.d / 256 < 4) && decide (960 ≤ i.d)) || (i.opc = 21 && decide (958 ≤ i.d) && decide (i.d < 1024))

/-- The sum over a list. -/
def sumOf {α : Type} (f : α → Nat) (l : List α) : Nat := l.foldl (fun n x => n + f x) 0

/-- The graph checks, in the order of R174. -/
def graphFail (ofs : Nat) (b : List Nat) : Option ImgFail :=
  match graphRead b with
  | none => some ⟨0x18, 5, ofs⟩
  | some ts =>
    let rs := graphRoutes b
    let runOf (n : Nat) : List ArmInstr := match ts.find? (fun t => t.tile = n) with | some t => t.run | none => []
    let src (r : List Nat) := 4 * r.getD 0 0 + r.getD 1 0
    let dst (r : List Nat) := 8 * r.getD 2 0 + r.getD 3 0
    let leaving := (rs.filter (fun r => r.getD 0 0 / 16 != r.getD 2 0 / 16)).map src
    let banks := (List.range 32).map (fun w => (ts.filter (fun t => t.run.any (writesBank w))).length)
    firstFail [
      (decide (16 + 4 * imU b 6 2 ≤ b.length) && imU b 0 4 = 1 && decide (imU b 4 2 ≤ 128) && decide (imU b 6 2 ≤ 512) && b.getD 12 0 != 0
        && decide (b.getD 13 0 < 2) && imU b 14 2 = 0, ⟨0x18, 5, ofs⟩),
      (ts.all (fun t => decide (t.tile < 128)) && decide ((ts.map GraphTile.tile).Nodup), ⟨0x19, 5, ofs⟩),
      (ts.all (fun t => t.instrs.all (fun w => armLegal t.tile (armFields w) && unusedZero (armFields w))
        && t.instrs.any (fun w => (armFields w).opc = 1)), ⟨0x1A, 5, ofs⟩),
      (rs.all (fun r => decide (r.getD 0 0 < 128) && decide (r.getD 1 0 < 4) && decide (r.getD 2 0 < 128) && decide (r.getD 3 0 < 8))
        && decide ((rs.map dst).Nodup) && (rs.map src).all (fun x => decide ((rs.filter (fun r => src r = x)).length ≤ 8))
        && (List.range 8).all (fun p => decide ((((List.range 64).filter (fun k => leaving.contains (64 * p + k))).length) ≤ 8))
        && ts.all (fun t => (List.range 8).all (fun p => !t.program.any (readsPort p) || (rs.map dst).contains (8 * t.tile + p))),
        ⟨0x1B, 5, ofs⟩),
      (rs.all (fun r => ((runOf (r.getD 0 0)).filter (writesPort (r.getD 1 0))).length
        = sumOf (takesFrom (r.getD 3 0)) (runOf (r.getD 2 0))), ⟨0x1C, 5, ofs⟩),
      (banks.all (fun n => decide (n ≤ 1)) && (List.range 32).all (fun w => bitAt (imU b 8 4) w = (banks.getD w 0 = 1)), ⟨0x1D, 5, ofs⟩),
      (ts.all (fun t => !t.program.any writesParam), ⟨0x1E, 5, ofs⟩),
      (ts.all (fun t => decide (t.wcet ≤ 800) && decide (sumOf (fun i => armCycles i.opc) t.program ≤ t.wcet)), ⟨0x1F, 5, ofs⟩)]

/-! ## Safety (R316 to R318) -/

/-- The register images of a safety body: address and value. -/
def safeRegs (b : List Nat) : List (Nat × Nat) :=
  [(0x4702000C, imU b 4 4), (0x47020010, imU b 8 4), (0x47020300, imU b 12 4), (0x47020304, imU b 16 4)]
    ++ (List.range 9).map (fun n => (0x47020100 + 8 * n, imU b (20 + 4 * n) 4))
    ++ (List.range 4).map (fun m => (0x47020200 + 8 * m, imU b (56 + 4 * m) 4))

/-- Whether a 4-bit map names only output pairs in use. -/
def mapsOuts (b : List Nat) (f : Nat) : Bool := (List.range 4).all (fun m => !bitAt f m || bitAt (imU b (56 + 4 * m) 4) 31)

/-- The safety checks (R318). -/
def safeFail (ofs : Nat) (b : List Nat) : Option ImgFail :=
  let cfg (n : Nat) := imU b (20 + 4 * n) 4
  let within (w lo wid a z : Nat) : Bool := decide (a ≤ w / 2 ^ lo % 2 ^ wid) && decide (w / 2 ^ lo % 2 ^ wid ≤ z)
  firstFail [
    (b.length = 0x50 && imU b 0 4 = 1 && imU b 0x48 4 = 0 && (safeRegs b).all (fun e => reservedClear e.1 e.2), ⟨0x20, 8, ofs⟩),
    (crc32With 0xEDB88320 (b.take 0x4C) = imU b 0x4C 4, ⟨0x21, 8, ofs⟩),
    (within (imU b 4 4) 16 16 10 1000 && within (imU b 4 4) 0 9 50 400 && within (imU b 12 4) 8 8 1 20 && within (imU b 12 4) 0 8 1 100
      && (List.range 9).all (fun n => within (cfg n) 25 5 1 19 && within (cfg n) 16 9 1 500), ⟨0x22, 8, ofs⟩),
    ((List.range 9).all (fun n => mapsOuts b (cfg n / 2 ^ 8 % 16) && !(decide (n < 8) && cfg n / 2 ^ 30 = 3 && cfg n / 2 ^ 8 % 16 != 0))
      && mapsOuts b (imU b 8 4 / 2 ^ 12 % 16) && (imU b 12 4 / 2 ^ 16 != 0 || (cfg 8 / 2 ^ 30 = 0 && cfg 8 / 2 ^ 8 % 16 = 0)), ⟨0x23, 8, ofs⟩)]

/-! ## Network and pair (R243, R261, R266, R413) -/

/-- The mirror list of a network body: the words of each entry, 1 for a data word and 2 for an accumulator. -/
def mirList (b : List Nat) : List (List Nat) := imChunks 4 (imU b 14 2) (imSlice b 24 (4 * imU b 14 2))
def netTail (b : List Nat) : List Nat := b.drop (24 + 4 * imU b 14 2)

/-- W of R261. -/
def mirW (nsm : Nat) (b : List Nat) : Nat :=
  48 + 20 + (nsm + 15) / 16 + min 256 ((nsm + 1) / 2) + sumOf (fun e => if e.getD 1 0 = 1 then 2 else 1) (mirList b)

/-- The head and mirror list of a network section (R413). -/
def netHeadOk (b : List Nat) : Bool :=
  decide (24 ≤ b.length) && imU b 0 4 = 1 && decide (b.getD 4 0 ≤ 2) && decide (b.getD 5 0 ≤ 1) && decide (b.getD 6 0 ≤ 3) && b.getD 7 0 = 0
    && decide (100 ≤ imU b 8 2) && decide (imU b 8 2 ≤ 2000) && decide (1 ≤ imU b 10 2) && decide (imU b 10 2 ≤ 50)
    && decide (1 ≤ imU b 12 2) && decide (imU b 12 2 ≤ 100) && decide (imU b 14 2 ≤ 2048) && imU b 20 4 = 0
    && decide (24 + 4 * imU b 14 2 ≤ b.length)
    && (mirList b).all (fun e => decide (e.getD 0 0 < 128) && decide (e.getD 1 0 ≤ 1) && decide (imU e 2 2 < (if e.getD 1 0 = 1 then 4 else 1024)))

/-- The pair checks (R266) for a frame period of `t` ns. -/
def pairFail (ofs : Nat) (b topo graph : List Nat) (t : Nat) : Option ImgFail :=
  let pair := b.getD 4 0
  let lease := imU b 8 2
  let skew := imU b 10 2
  let tack := if pair = 1 then 10 else 50
  let nsm := imU topo 4 2
  let used := (List.range 32).filter (fun p => topoSlots topo p != 0)
  let tiles := match graphRead graph with | some ts => ts.map GraphTile.tile | none => []
  firstFail [
    (used.all (fun p => ((topoPortOf topo p).topo = 2) = (pair ≠ 0)), ⟨0x24, 9, ofs⟩),
    (pair ≠ 1 || used.all (fun p => decide (lease * 1000 + 2 * t ≤ ((topoPortOf topo p).hold + 1) * t)), ⟨0x25, 9, ofs⟩),
    (pair ≠ 2 || decide (nsm ≤ 2048), ⟨0x26, 9, ofs⟩),
    (pair ≠ 1 || (decide (mirW nsm b ≤ 2048) && decide (5500 ≤ t) && decide (256 + 36 * mirW nsm b ≤ 8 * (t - 5500))
      && (mirList b).all (fun e => tiles.contains (e.getD 0 0))), ⟨0x27, 9, ofs⟩),
    (pair = 0 || (decide (8 * skew < lease)
      && decide ((latMode topo t + 1) * t * 4 + 8000 * skew + 4000 * tack ≤ 3000 * lease)), ⟨0x28, 9, ofs⟩)]

/-- The first failure of two checks. -/
def orFail (a b : Option ImgFail) : Option ImgFail := match a with | some f => some f | none => b

/-- The contents of every section of a full image, in type order (R404). -/
def sectionsFail (l : List Nat) : Option ImgFail :=
  let b (t : Nat) := imBody l t
  let o (t : Nat) := imOfs l t
  let per := imU (b 2) 4 2 * 500
  let one (ok : Bool) (code t : Nat) : Option ImgFail := if ok then none else some ⟨code, t, o t⟩
  let net := regImage (netTail (b 9))
  [one (pinsOk (b 1)) 0x0F 1, one (clocksOk (b 2)) 0x10 2, one (regionsOk (b 3) (b 4)) 0x11 3, topoFail (o 4) (b 4) per, graphFail (o 5) (b 5),
   imageFail 6 (o 6) (b 6), imageFail 7 (o 7) (b 7), safeFail (o 8) (b 8),
   one (netHeadOk (b 9)) 0x17 9, pairFail (o 9) (b 9) (b 4) (b 5) per, imageFail 9 (o 9) (netTail (b 9)),
   imageFail 10 (o 10) (b 10), one (ringsOk (regImage (b 10)) net) 0x29 10, one (mailboxOk (b 11)) 0x2A 11, one (policyOk (b 12)) 0x2B 12].foldl
    orFail none

end Sys2Proof.Machine
end

