-- ==== Sys2Proof/Machine/Armature.lean ====
section
/-! DEFINITION. The Armature (05): its instructions (R146 to R158), its schedule (R160 to R169), and access to the tile memories (R171,
R172). -/

namespace Sys2Proof.Machine

/-! ## Issuing an instruction (R152) -/

/-- What an operation works on: its fields, its operand words and accumulators as read, each with its residue above its value, and for LDX
the pattern in its three data words with the sum of their residues. -/
structure ArmIn where
  i : ArmInstr
  a : Nat
  b : Nat
  acc : Nat
  acc2 : Nat
  wide : Nat
  wideRes : Nat
  deriving DecidableEq, Repr

/-- What an operation forms: nothing; an accumulator's exact result with its predicted value residue (R156); a 40-bit pattern with the residue
its words give; a moved word with the residue it carries; the value that STR rounds and saturates, in units of 2^-15 (R147); a result of the
trigonometric unit with `k` fraction bits, exact on the grid, saturated, or one as a binary angle, or one at a domain limit or exactly
+1.0 (R151, R155); a 48-bit pattern for three data words with the residue they must have. -/
inductive ArmOut where
  | none
  | sum (x : Int) (v : Nat)
  | load (p r : Nat)
  | move (w : Nat)
  | store (x : Int)
  | trig (k : Nat) (x : Int)
  | turn (x : Int)
  | exact (w : Nat) (domain : Bool)
  | three (p r : Nat)
  deriving DecidableEq, Repr

/-- An operation. -/
abbrev ArmOp := ArmIn → ArmOut

/-- The value residue of an item of `n` bits with its residue above them (R156): (R(u) - s) mod 15. -/
def valueRes (n x : Nat) : Nat := (x / 2 ^ n + 14 * (x / 2 ^ (n - 1) % 2)) % 15

/-- The accumulator result `x` of tile `t`, with the predicted value residue `v` (R146, R156, R157): the residue of the actual pattern must be the
predicted one; that of a saturated result is regenerated by two generators that must agree. -/
def State.armSum (s : State) (t pc i : Nat) (x : Int) (v : Nat) (hit : ArmHit) : State :=
  let p := pattern 40 (sat40 x) ^^^ hit.out.toNat % 2 ^ 40
  if sat40 x = x then (if (v + p / 2 ^ 39) % 15 = residue p then s.putAcc t i p else s.armFault t pc fkResidue 0)
  else if hit.gen = 0 then (s.flagSat t).putAcc t i p
  else s.armFault t pc fkCheck 0

/-- A word whose residue is regenerated by two generators that must agree (R157): `w` at the destination. -/
def State.armRegen (s : State) (t pc f last w : Nat) (hit : ArmHit) : State :=
  if hit.gen = 0 then s.armDest t f last w else s.armFault t pc fkCheck 0

/-- A result `w` of the trigonometric unit: its two copies must agree (R157). -/
def State.armCopies (s : State) (t pc f last w : Nat) (hit : ArmHit) : State :=
  if hit.out.toNat % 65536 = hit.copy.toNat then s.armRegen t pc f last (w ^^^ hit.copy.toNat) hit else s.armFault t pc fkCheck 0

/-- What an operation forms is checked and written (R146, R147, R150, R151, R156, R157); a result of the trigonometric unit lies within 2
units of the exact value (a free choice). -/
def State.armWrite (s : State) (t pc last : Nat) (i : ArmInstr) (hit : ArmHit) (o : ArmOut) : State :=
  let flip := hit.out.toNat % 65536
  match o with
  | .none => s
  | .sum x v => s.armSum t pc i.acc x v hit
  | .load p r =>
    let p := p ^^^ hit.out.toNat % 2 ^ 40
    if r % 15 = residue p then s.putAcc t i.acc p else s.armFault t pc fkResidue 0
  | .move w =>
    let x := w % 65536 ^^^ flip
    if w / 65536 = residue x then s.armDest t i.d last x else s.armFault t pc fkResidue 0
  | .store x =>
    let w := pattern 16 (satInt 16 (rhe x 32768)) ^^^ flip
    if satInt 16 (rhe x 32768) = rhe x 32768 ∧ 16384 < (signed 16 w * 32768 - x).natAbs then s.armFault t pc fkCheck 0
    else s.armRegen t pc i.d last w hit
  | .trig k x => (s.armCopies t pc i.d last (pattern 16 (satInt 16 (s.nearAt 0 k 2 x))) hit).drawn
  | .turn x => (s.armCopies t pc i.d last (pattern 16 (s.nearAt 0 16 2 x)) hit).drawn
  | .exact w domain => (if domain then s.flagDomain else s).armCopies t pc i.d last w hit
  | .three p r =>
    let p := p ^^^ hit.out.toNat
    let w (k : Nat) : Nat := p / 2 ^ (16 * k) % 65536
    if (residue (w 0) + residue (w 1) + residue (w 2)) % 15 = r then
      ((s.putData t i.d (w 0)).putData t (i.d + 1) (w 1)).putData t (i.d + 2) (w 2)
    else s.armFault t pc fkResidue 0

/-- Three data words from `a` as one pattern, its upper byte from the third, with the sum of their residues; or the first fault found. -/
def State.armThree (s : State) (t a : Nat) : State × Except (Nat × Nat) (Nat × Nat) :=
  match s.armData t a with
  | (s, .bad k d) => (s, .error (k, d))
  | (s, .val x) =>
    match s.armData t (a + 1) with
    | (s, .bad k d) => (s, .error (k, d))
    | (s, .val y) =>
      match s.armData t (a + 2) with
      | (s, .bad k d) => (s, .error (k, d))
      | (s, .val z) => (s, .ok (x + y * 2 ^ 16 + z % 256 * 2 ^ 32, residue x + residue y + residue z))

/-- The accumulators that operation `opc` reads, with their residues checked (R157): its own and, for ADDA and SUBA, the one in MOD. -/
def State.armAccs (s : State) (t : Nat) (i : ArmInstr) (hit : ArmHit) : Option (Nat × Nat) :=
  let x := s.accWord t i.acc ^^^ hit.acc.toNat
  let y := s.accWord t (i.mod % 4) ^^^ hit.acc2.toNat
  let bad (b : Bool) (w : Nat) : Bool := b && decide (w / 2 ^ 40 ≠ residue (w % 2 ^ 40))
  if bad (usesAcc i.opc) x || bad (i.opc = 9 || i.opc = 10) y then none else some (x, y)

/-- Read the operands that the operation uses, SRCA then SRCB, and the accumulators, in cycle `c`, and do it; a read that finds a fault, or a check
of the result, faults the tile (R152, R156 to R158). -/
def State.armDo (s : State) (t pc c : Nat) (i : ArmInstr) (hit : ArmHit) (op : ArmOp) : State :=
  let ra := if usesA i.opc then s.armOperand t i.a c hit.a.toNat else (s, .val 0)
  match ra with
  | (s, .bad k d) => s.armFault t pc k d
  | (s, .val a) =>
    let rb := if usesB i.opc then s.armOperand t i.b c hit.b.toNat else (s, .val 0)
    match rb with
    | (s, .bad k d) => s.armFault t pc k d
    | (s, .val b) =>
      match s.armAccs t i hit with
      | none => s.armFault t pc fkResidue 0
      | some x =>
        let rw := if i.opc = 20 then s.armThree t i.a else (s, .ok (0, 0))
        match rw with
        | (s, .error e) => s.armFault t pc e.1 e.2
        | (s, .ok w) =>
          s.armWrite t pc (c + armCycles i.opc - 1) i hit (op { i := i, a := a, b := b, acc := x.1, acc2 := x.2, wide := w.1, wideRes := w.2 })

/-- The tile goes on behind its instruction, unless a fault has ended the schedule. -/
def State.armNext (s : State) (t : Nat) (x : ArmTile) (cycles : Nat) (ended : Bool) : State :=
  if s.flag Reg.ARM_STAT_RUN then
    s.setArm { s.arm with tiles := spPut s.arm.tiles t { pc := x.pc + 1, at_ := cycles, ended := ended } }
  else s

/-- The next word on its way to input queue `q` enters it: the earliest, of one cycle that of the lowest source tile (R153). -/
def State.armMove (s : State) (q : Nat) : State :=
  match s.arm.flight.filter (fun w => w.dst = q) with
  | [] => s
  | w0 :: r =>
    let w := r.foldl (fun b w => if w.cycle < b.cycle ∨ (w.cycle = b.cycle ∧ w.src < b.src) then w else b) w0
    s.setArm { s.arm with flight := s.arm.flight.erase w, queues := spSet s.arm.queues q (s.armQueue q ++ [(w.cycle, w.val)]) [] }

/-- The words that have arrived by cycle `c` are in their queues (R153). -/
def State.armArrived (s : State) (c : Nat) : State :=
  (s.arm.flight.filter (fun w => decide (w.cycle ≤ c))).foldl (fun s w => s.armMove w.dst) s

/-- Whether an instruction issues in cycle `c` (R152): the first in which its tile is free, its words are present and its places are. The place of a
word that leaves a queue is free in that cycle or in the next (log 28). -/
def State.armIssues (s : State) (t c : Nat) (x : ArmTile) (i : ArmInstr) : Bool :=
  match s.armPresent t i, s.armRoom t i with
  | some p, some r => c = max x.at_ (max p r) || (decide (max x.at_ p ≤ r) && r != 0 && c = r + 1)
  | _, _ => false

/-- Whether tile `t` of the running schedule stands before an instruction, as `x`. -/
def State.armStands (s : State) (x : ArmTile) : Bool := s.flag Reg.ARM_STAT_RUN && !x.ended && decide (x.pc < 256)

/-- Tile `t` issues the instruction at its program address in cycle `c`, when that is operation `opc`, legal, and issues in that cycle (R152);
otherwise nothing happens. An instruction that cannot be read faults the tile (R145). -/
def State.armIssue (s : State) (t c opc : Nat) (hit : ArmHit) (op : ArmOp) : State :=
  match spFind s.arm.tiles t with
  | none => s
  | some x =>
    if s.armStands x = false ∨ c < x.at_ then s
    else
      match s.armFetch t x.pc with
      | (s, .bad k d) => s.armFault t x.pc k d
      | (s, .val w) =>
        let i := armFields w
        let u := s.armArrived c
        if i.opc = opc ∧ armLegal t i ∧ u.armIssues t c x i then
          (u.armDo t x.pc c i hit op).armNext t x (c + armCycles opc) false
        else s

/-! ## The operations (R151), with their predicted residues (R156) -/

/-- The value residues of an operand word and of an accumulator. -/
def vWord (w : Nat) : Nat := valueRes 16 w
def vAcc (w : Nat) : Nat := valueRes 40 w

/-- The value of an accumulator as read. -/
def accVal (w : Nat) : Int := signed 40 w

/-- NOP: nothing. -/
def armNop (_ : ArmIn) : ArmOut := .none

/-- CLR: acc := 0. -/
def armClr (_ : ArmIn) : ArmOut := .sum 0 0

/-- LDA: acc := ext(A). -/
def armLda (x : ArmIn) : ArmOut := .sum (ext x.a) (8 * vWord x.a)

/-- MUL: acc := A * B, exact. -/
def armMul (x : ArmIn) : ArmOut := .sum (q15 x.a * q15 x.b) (vWord x.a * vWord x.b)

/-- MAC: acc := acc + A * B. -/
def armMac (x : ArmIn) : ArmOut := .sum (accVal x.acc + q15 x.a * q15 x.b) (vAcc x.acc + vWord x.a * vWord x.b)

/-- MSU: acc := acc - A * B. -/
def armMsu (x : ArmIn) : ArmOut := .sum (accVal x.acc - q15 x.a * q15 x.b) (vAcc x.acc + 14 * (vWord x.a * vWord x.b))

/-- ADD: acc := acc + ext(A). -/
def armAdd (x : ArmIn) : ArmOut := .sum (accVal x.acc + ext x.a) (vAcc x.acc + 8 * vWord x.a)

/-- SUB: acc := acc - ext(A). -/
def armSub (x : ArmIn) : ArmOut := .sum (accVal x.acc - ext x.a) (vAcc x.acc + 14 * (8 * vWord x.a))

/-- ADDA: acc := acc + ACC[MOD[1:0]]. -/
def armAdda (x : ArmIn) : ArmOut := .sum (accVal x.acc + accVal x.acc2) (vAcc x.acc + vAcc x.acc2)

/-- SUBA: acc := acc - ACC[MOD[1:0]]. -/
def armSuba (x : ArmIn) : ArmOut := .sum (accVal x.acc - accVal x.acc2) (vAcc x.acc + 14 * vAcc x.acc2)

/-- SHA: acc := acc * 2^n, n signed in MOD[4:0], -16 acting as -15; a right shift rounds towards minus infinity, and its residue is that of the
value less the bits shifted out. -/
def armSha (x : ArmIn) : ArmOut :=
  let n := max (-15) (signed 5 x.i.mod)
  if 0 ≤ n then .sum (accVal x.acc * 2 ^ n.toNat) (2 ^ n.toNat * vAcc x.acc)
  else .sum (accVal x.acc / 2 ^ (-n).toNat) (8 ^ (-n).toNat * (vAcc x.acc + 14 * (x.acc % 2 ^ (-n).toNat)))

/-- NEG: acc := -acc. -/
def armNeg (x : ArmIn) : ArmOut := .sum (-accVal x.acc) (14 * vAcc x.acc)

/-- ABS: acc := |acc|. -/
def armAbs (x : ArmIn) : ArmOut := if accVal x.acc < 0 then .sum (-accVal x.acc) (14 * vAcc x.acc) else .sum (accVal x.acc) (vAcc x.acc)

/-- The larger and the smaller of two values, each with its value residue. -/
def resMax (x y : Int × Nat) : Int × Nat := if x.1 < y.1 then y else x
def resMin (x y : Int × Nat) : Int × Nat := if y.1 < x.1 then y else x

/-- MAX: acc := max(acc, ext(A)). -/
def armMax (x : ArmIn) : ArmOut := let r := resMax (accVal x.acc, vAcc x.acc) (ext x.a, 8 * vWord x.a); .sum r.1 r.2

/-- MIN: acc := min(acc, ext(A)). -/
def armMin (x : ArmIn) : ArmOut := let r := resMin (accVal x.acc, vAcc x.acc) (ext x.a, 8 * vWord x.a); .sum r.1 r.2

/-- LIM: acc := min(max(acc, ext(A)), ext(B)). -/
def armLim (x : ArmIn) : ArmOut :=
  let r := resMin (resMax (accVal x.acc, vAcc x.acc) (ext x.a, 8 * vWord x.a)) (ext x.b, 8 * vWord x.b)
  .sum r.1 r.2

/-- STR: D := the accumulator, shifted, rounded half to even and saturated (R147). -/
def armStr (x : ArmIn) : ArmOut := .store (accVal x.acc * 2 ^ (x.i.mod % 16))

/-- MOV: D := A. -/
def armMov (x : ArmIn) : ArmOut := .move x.a

/-- SEL: D := A when acc >= 0, otherwise B. -/
def armSel (x : ArmIn) : ArmOut := .move (if 0 ≤ accVal x.acc then x.a else x.b)

/-- The grid value of a Q1.15 operand, and the turns of a binary angle. -/
def fxWord (w : Nat) : Int := fxQ15 (q15 w)
def fxAngle (w : Nat) : Int := (w % 65536 : Nat) * (fxOne / 65536)

/-- SIN: D := sin of the binary angle A. -/
def armSin (x : ArmIn) : ArmOut := if x.a % 65536 = 16384 then .exact 0x7FFF false else .trig 15 (fxCosSin (fxAngle x.a)).2

/-- COS: D := cos of the binary angle A. -/
def armCos (x : ArmIn) : ArmOut := if x.a % 65536 = 0 then .exact 0x7FFF false else .trig 15 (fxCosSin (fxAngle x.a)).1

/-- ATN: D := atan2(A, B) as a binary angle; of two zeros 0, with DOMAIN (R155). -/
def armAtn (x : ArmIn) : ArmOut := if q15 x.a = 0 ∧ q15 x.b = 0 then .exact 0 true else .turn (fxAtan2 (q15 x.a) (q15 x.b))

/-- SQR: D := the square root of A; of a negative number 0, with DOMAIN (R155). -/
def armSqr (x : ArmIn) : ArmOut := if q15 x.a < 0 then .exact 0 true else .trig 15 (fxSqrt (fxWord x.a))

/-- DIV: D := A / B, saturated; by 0 the limit of its sign, with DOMAIN (R155). -/
def armDiv (x : ArmIn) : ArmOut :=
  let a := q15 x.a
  let b := q15 x.b
  if b = 0 then .exact (if 0 < a then 0x7FFF else if a < 0 then 0x8000 else 0) true
  else if a = b then .exact 0x7FFF false
  else .trig 15 (if b < 0 then -a * fxOne / -b else a * fxOne / b)

/-- MAG: D := sqrt(A^2 + B^2), saturated. -/
def armMag (x : ArmIn) : ArmOut :=
  let q := q15 x.a * q15 x.a + q15 x.b * q15 x.b
  if q = 1073741824 then .exact 0x7FFF false else .trig 15 (fxSqrt (q * (fxOne / 1073741824)))

/-- LDX: acc := the 40-bit pattern in data words A, A + 1, A + 2; the words' residues must sum to the accumulator's (R156). -/
def armLdx (x : ArmIn) : ArmOut := .load x.wide x.wideRes

/-- STX: data words D, D + 1, D + 2 := the accumulator's pattern, its upper byte sign-extended. -/
def armStx (x : ArmIn) : ArmOut := .three (pattern 48 (accVal x.acc)) (x.acc / 2 ^ 40)

/-! ## End of a program (R162, R167) -/

/-- Whether every tile of the schedule has executed END. -/
def State.armAllEnded (s : State) : Bool := s.arm.tiles.all (fun e => e.2.ended)

/-- PORTRESID when every tile has ended and an input queue still holds a word (R167). -/
def State.armResidue (s : State) : State :=
  if s.flag Reg.ARM_STAT_RUN && s.armAllEnded && s.arm.queues.any (fun e => !e.2.isEmpty) then s.set1 Reg.ARM_ALRM_PORTRESID else s

/-- Tile `t` ends its program in cycle `c`. -/
def State.armEnd (s : State) (t c : Nat) : State :=
  match spFind s.arm.tiles t with
  | none => s
  | some x =>
    if s.armStands x = false ∨ c ≠ x.at_ then s
    else
      match s.armFetch t x.pc with
      | (s, .bad k d) => s.armFault t x.pc k d
      | (s, .val w) =>
        if (armFields w).opc = 1 then
          ((s.armNext t x (c + 1) true).setArm { (s.armNext t x (c + 1) true).arm with lastEnd := max s.arm.lastEnd (c + 1) }).armResidue
        else s

/-- The instruction at tile `t`'s program address is illegal: a fault of the tile (R154). -/
def State.armIllegal (s : State) (t c : Nat) : State :=
  match spFind s.arm.tiles t with
  | none => s
  | some x =>
    if s.armStands x = false ∨ c ≠ x.at_ then s
    else
      match s.armFetch t x.pc with
      | (s, .bad k d) => s.armFault t x.pc k d
      | (s, .val w) => if armLegal t (armFields w) then s else s.armFault t x.pc fkIllop 0

/-- The next word arrives in input queue `q` (R153, R167). -/
def State.armArrive (s : State) (q : Nat) : State := (s.armMove q).armResidue

/-! ## The schedule (R160 to R169) -/

/-- Whether tile `t` holds a program: from the graph section (ARM_TILEUSE), or written (R172). -/
def State.armHolds (s : State) (t : Nat) : Bool :=
  s.rdBit (Reg.ARM_TILEUSE_USE (t / 32)) (t % 32) || s.arm.prog.any (fun e => e.1 / 256 = t)

/-- Copy every written shadow into its live word; PCPEND falls, unless PCOMMIT has been written again since the frame start (R171). -/
def State.armCommit (s : State) : State :=
  let s := s.arm.shadow.foldl (fun s e => s.putData (e.1 / 1024) (e.1 % 1024) e.2) s
  (s.setArm { s.arm with shadow := [], commitDue := false, commitNext := false }).wr Reg.ARM_STAT_PCPEND (if s.arm.commitNext then 1 else 0)

/-- The frame input bank, with residues (R163): channel values, forming words, aggregate words of the arms, VALID and SAT masks, mode, and the
first-schedule word. -/
def State.armBank (s : State) (first : Bool) : Sparse Nat :=
  let mask (b j : Nat) : Nat := ((List.range 16).map (fun i => if bitAt (spGet s.acq.snap (16 * j + i) 0) b then 2 ^ i else 0)).foldl (· + ·) 0
  let word (w : Nat) : Nat :=
    if w < 64 then spGet s.acq.snap w 0 % 2 ^ 20
    else if w < 81 then coded (s.frm.out.getD (w - 64) 0)
    else if w < 96 then 0
    else if w < 144 then coded (spGet s.mod.agg (w - 96) 0)
    else if w < 192 then 0
    else if w < 196 then coded (mask 31 (w - 192))
    else if w < 200 then coded (mask 30 (w - 196))
    else if w = 200 then coded s.mode
    else if w = 201 then (if first then coded 0x7FFF else 0)
    else 0
  (List.range 256).foldl (fun m w => spSet m w (word w) 0) []

/-- Fabric start, 0.40 us after the compute start (R160 to R164, R169): in a frame in which the forming core has set FVALID, or that runs
a RUN1 schedule; one schedule a frame. A commit that waited for a schedule that then does not run is made all the same (R171). The pending bank
starts as ARM_RBANK stands (log 28). -/
def State.fabricStart (s : State) : State :=
  let forming := s.frmComputes s.mode && s.flag Reg.FRM_STAT_FVALID
  if s.flag Reg.ARM_STAT_RUN ∨ s.arm.ran then s
  else if s.worksNow .arm = false ∨ (forming = false ∧ s.arm.run1Now = false) then
    (if s.arm.commitDue then (s.elapseToDevice ((s.frm.t0 + 400) % 2 ^ 32)).armCommit else s)
  else
    let s := s.elapseToDevice ((s.frm.t0 + 400) % 2 ^ 32)
    let s := if s.arm.commitDue then s.armCommit else s
    let first := s.arm.first && forming
    let s := if first ∧ s.lrd Reg.ARM_CTRL_ACLR = 1 then s.setArm { s.arm with acc := [] } else s
    let tiles := ((List.range 128).filter s.armHolds).map (fun t => (t, ({ pc := 0, at_ := 0, ended := false } : ArmTile)))
    let pend := (List.range 32).foldl (fun m w => spSet m w (s.rd (Reg.ARM_RBANK_DATA w) + s.rd (Reg.ARM_RBANK_RES w) * 65536) 0) []
    let s := s.setArm { s.arm with
      bank := s.armBank first, tiles := tiles, queues := [], roomAt := [], flight := [], pend := pend, lastEnd := 0, ran := true
      first := s.arm.first && !forming }
    s.set1 Reg.ARM_STAT_RUN

/-- The delivery of the pending bank (R164, R169). -/
def State.armDeliver (s : State) : State :=
  let s := (List.range 32).foldl (fun s w =>
    let d := spGet s.arm.pend w 0
    (s.wr (Reg.ARM_RBANK_DATA w) d).wr (Reg.ARM_RBANK_RES w) (d / 65536)) s
  let slack := 800 - s.arm.lastEnd
  let s := (s.wr Reg.ARM_ATIME_ATIME s.frm.t0).wr Reg.ARM_SLACK_LASTEND s.arm.lastEnd
  s.wr Reg.ARM_SLACK_MINSLACK (min (s.rd Reg.ARM_SLACK_MINSLACK) slack)

/-- An overrun (R165, R166, R169). -/
def State.armOverrun (s : State) : State :=
  let late (j : Nat) : Nat := ((s.arm.tiles.filter (fun e => !e.2.ended && e.1 / 32 = j)).map (fun e => 2 ^ (e.1 % 32))).foldl (· + ·) 0
  let s := (List.range 4).foldl (fun s j => s.wr (Reg.ARM_OVRTILE_OVR j) (late j)) s
  let s := ((s.set1 Reg.ARM_ALRM_OVERRUN).wr Reg.ARM_SLACK_MINSLACK 0).addSat Reg.ARM_OVR_OVRTOT 1
  if s.arm.run1Now then s
  else
    let s := s.addSat Reg.ARM_OVR_OVRCNT 1
    if max 1 (s.lrd Reg.ARM_OVR_OVRLIM) ≤ s.rd Reg.ARM_OVR_OVRCNT then
      ((s.set1 Reg.ARM_ALRM_OVRTRIP).set0 Reg.ARM_STAT_AVALID).trip Reg.SUP_TRIP_OVRTRIP
    else s

/-- ARM_ with EN cleared reports OFF when its schedule has ended (R168). -/
def State.armUnitEnd (s : State) : State :=
  if s.rd (blockEn .arm) = 0 ∧ s.running .arm then s.wr (blockState .arm) stOff else s

/-- The deadline, 800 cycles after fabric start (R164 to R167, R169); words whose arrival cycle lies before it are in their queues (log 28). -/
def State.armDeadline (s : State) : State :=
  if s.flag Reg.ARM_STAT_RUN = false then s
  else
    let s := s.elapseToDevice ((s.frm.t0 + 1400) % 2 ^ 32)
    let s := (s.armArrived 799).armResidue
    let s :=
      if s.armAllEnded then
        let s := s.armDeliver.wr Reg.ARM_OVR_OVRCNT 0
        if s.arm.run1Now then s
        else (s.set1 Reg.ARM_STAT_AVALID).setMod { s.mod with given := s.arm.pend.map (fun e => (e.1, e.2 % 65536)) }
      else s.armOverrun
    s.armHalt.armUnitEnd

/-- What a frame start does to ARM_ (R169, R171): a RUN1 request takes effect in this frame; a commit waits for the fabric start where a
schedule is due, and is made at once where none is. -/
def State.armFrame (s : State) : State :=
  let s := s.setArm { s.arm with run1Now := s.arm.run1 && s.works .arm, run1 := false, ran := false, faulted := false }
  let due := s.works .arm && (s.arm.run1Now || (s.frmComputes s.mode && s.works .frm))
  if s.flag Reg.ARM_STAT_PCPEND then (if due then s.setArm { s.arm with commitDue := true } else s.armCommit) else s

/-- RUN1 written with EN left at `en` (R169); with EN = 1 before the Armature has reported OFF the write has no effect (R46). -/
def State.armRun1 (s : State) (m : Master) (en : Bool) : State :=
  s.gate m true 0x43020000 (fun s =>
    if s.idleOrMaint = false then s.perr peBusyMode m 0x43020000
    else if en && s.rd (blockEn .arm) = 0 && s.running .arm then s.perr peState m 0x43020000
    else if en then
      let s := if s.rd (blockEn .arm) = 0 then s.blockStart .arm else s
      s.setArm { s.arm with run1 := true }
    else
      let s := s.wr (blockEn .arm) 0
      let s := if s.flag Reg.ARM_STAT_RUN then s else s.armUnitEnd
      s.perr peState m 0x43020000)

/-! ## Access to the tile memories (R171, R172) -/

/-- A write of a data word: a parameter word's goes to its shadow (R171). -/
def State.tileDataWrite (s : State) (m : Master) (t a v : Nat) : State :=
  s.gate m true (tileDataAddr t a) (fun s =>
    if 960 ≤ a then s.setArm { s.arm with shadow := spPut s.arm.shadow (1024 * t + a) (v % 65536) } else s.putData t a v)

/-- Whether master `m` may write program memory now (R172). -/
def State.armMayProgram (s : State) (m : Nat) : Bool :=
  s.mode = mMaintenance && (s.rd (blockState .arm) = stOff || s.rd (blockState .arm) = stFenced) && bitAt s.policy.armProg m

/-- A write of the first word of a slot (R172). -/
def State.progFirst (s : State) (m : Master) (t k v : Nat) : State :=
  s.gate m true (tileProgAddr t k) (fun s =>
    if s.armMayProgram m then s.setArm { s.arm with staging := spPut s.arm.staging m (t, k, v) }
    else s.perr peBusyMode m (tileProgAddr t k))

/-- A write of the second word of a slot (R172). -/
def State.progSecond (s : State) (m : Master) (t k v : Nat) : State :=
  s.gate m true (tileProgAddr t k + 4) (fun s =>
    if s.armMayProgram m = false then s.perr peBusyMode m (tileProgAddr t k + 4)
    else
      let st := spFind s.arm.staging m
      let s := s.setArm { s.arm with staging := spDel s.arm.staging m }
      match st with
      | some x =>
        if x.1 = t ∧ x.2.1 = k then
          (s.setArm { s.arm with prog := spSet s.arm.prog (256 * t + k) (x.2.2 + v % 65536 * 2 ^ 32) 0 }).putUpset 4 (256 * t + k) 0
        else s.perr peState m (tileProgAddr t k + 4)
      | none => s.perr peState m (tileProgAddr t k + 4))

/-! ## Meanings -/

/-- FABRIC_START (R162). -/
def execFabricStart (s : State) : Result := done s.fabricStart

/-- ARMATURE_DEADLINE (R164). -/
def execArmatureDeadline (s : State) : Result := done s.armDeadline

/-- PORT_WORD_ARRIVAL (R153). -/
def execPortWordArrival (t : Fin 128) (p : Fin 8) (s : State) : Result := done (s.armArrive (8 * t + p))

/-- ARM_RUN1 (R169). -/
def execArmRun1 (m : Master) (en : Bool) (s : State) : Result := done (s.armRun1 m en)

/-- PCOMMIT (R171). -/
def execPcommit (m : Master) (s : State) : Result := done (s.gate m true 0x43020000 (fun s =>
    (if s.arm.commitDue then s.setArm { s.arm with commitNext := true } else s).set1 Reg.ARM_STAT_PCPEND))

/-- TILE_DATA_WRITE (R171). -/
def execTileDataWrite (m : Master) (t : Fin 128) (a : Fin 1024) (v : Word) (s : State) : Result := done (s.tileDataWrite m t a v.toNat)

/-- PROGRAM_FIRST_WORD_WRITE (R172). -/
def execProgramFirstWordWrite (m : Master) (t : Fin 128) (slot : Fin 256) (v : Word) (s : State) : Result :=
  done (s.progFirst m t slot v.toNat)

/-- PROGRAM_SECOND_WORD_WRITE (R172). -/
def execProgramSecondWordWrite (m : Master) (t : Fin 128) (slot : Fin 256) (v : Word) (s : State) : Result :=
  done (s.progSecond m t slot v.toNat)

/-- END (R151, R162, R167). -/
def execEnd (t : Fin 128) (c : Fin 800) (s : State) : Result := done (s.armEnd t c)

/-- ILLEGAL_INSTRUCTION (R154). -/
def execIllegalInstruction (t : Fin 128) (c : Fin 800) (s : State) : Result := done (s.armIllegal t c)

/-- NOP (R151). -/
def execNop (t : Fin 128) (c : Fin 800) (s : State) : Result := done (s.armIssue t c 0 .clear armNop)

/-- CLR (R151). -/
def execClr (t : Fin 128) (c : ArmIssue) (s : State) : Result := done (s.armIssue t c.cycle 2 c.hit armClr)

/-- LDA (R151). -/
def execLda (t : Fin 128) (c : Fin 800) (hit : ArmHit) (s : State) : Result := done (s.armIssue t c 3 hit armLda)

/-- MUL (R151). -/
def execMul (t : Fin 128) (c : Fin 800) (hit : ArmHit) (s : State) : Result := done (s.armIssue t c 4 hit armMul)

/-- MAC (R151). -/
def execMac (t : Fin 128) (c : Fin 800) (hit : ArmHit) (s : State) : Result := done (s.armIssue t c 5 hit armMac)

/-- MSU (R151). -/
def execMsu (t : Fin 128) (c : Fin 800) (hit : ArmHit) (s : State) : Result := done (s.armIssue t c 6 hit armMsu)

/-- ADD (R151). -/
def execAdd (t : Fin 128) (c : Fin 800) (hit : ArmHit) (s : State) : Result := done (s.armIssue t c 7 hit armAdd)

/-- SUB (R151). -/
def execSub (t : Fin 128) (c : Fin 800) (hit : ArmHit) (s : State) : Result := done (s.armIssue t c 8 hit armSub)

/-- ADDA (R151). -/
def execAdda (t : Fin 128) (c : Fin 800) (hit : ArmHit) (s : State) : Result := done (s.armIssue t c 9 hit armAdda)

/-- SUBA (R151). -/
def execSuba (t : Fin 128) (c : Fin 800) (hit : ArmHit) (s : State) : Result := done (s.armIssue t c 10 hit armSuba)

/-- SHA (R151). -/
def execSha (t : Fin 128) (c : Fin 800) (hit : ArmHit) (s : State) : Result := done (s.armIssue t c 11 hit armSha)

/-- NEG (R151). -/
def execNeg (t : Fin 128) (c : Fin 800) (hit : ArmHit) (s : State) : Result := done (s.armIssue t c 12 hit armNeg)

/-- ABS (R151). -/
def execAbs (t : Fin 128) (c : Fin 800) (hit : ArmHit) (s : State) : Result := done (s.armIssue t c 13 hit armAbs)

/-- MAX (R151). -/
def execMax (t : Fin 128) (c : Fin 800) (hit : ArmHit) (s : State) : Result := done (s.armIssue t c 14 hit armMax)

/-- MIN (R151). -/
def execMin (t : Fin 128) (c : Fin 800) (hit : ArmHit) (s : State) : Result := done (s.armIssue t c 15 hit armMin)

/-- LIM (R151). -/
def execLim (t : Fin 128) (c : Fin 800) (hit : ArmHit) (s : State) : Result := done (s.armIssue t c 16 hit armLim)

/-- STR (R147). -/
def execStr (t : Fin 128) (c : Fin 800) (hit : ArmHit) (s : State) : Result := done (s.armIssue t c 17 hit armStr)

/-- MOV (R151). -/
def execMov (t : Fin 128) (c : Fin 800) (hit : ArmHit) (s : State) : Result := done (s.armIssue t c 18 hit armMov)

/-- SEL (R151). -/
def execSel (t : Fin 128) (c : Fin 800) (hit : ArmHit) (s : State) : Result := done (s.armIssue t c 19 hit armSel)

/-- SIN (R151). -/
def execSin (t : Fin 128) (c : Fin 800) (hit : ArmHit) (s : State) : Result := done (s.armIssue t c 32 hit armSin)

/-- COS (R151). -/
def execCos (t : Fin 128) (c : Fin 800) (hit : ArmHit) (s : State) : Result := done (s.armIssue t c 33 hit armCos)

/-- ATN (R155). -/
def execAtn (t : Fin 128) (c : Fin 800) (hit : ArmHit) (s : State) : Result := done (s.armIssue t c 34 hit armAtn)

/-- SQR (R155). -/
def execSqr (t : Fin 128) (c : Fin 800) (hit : ArmHit) (s : State) : Result := done (s.armIssue t c 35 hit armSqr)

/-- DIV (R155). -/
def execDiv (t : Fin 128) (c : Fin 800) (hit : ArmHit) (s : State) : Result := done (s.armIssue t c 36 hit armDiv)

/-- MAG (R151). -/
def execMag (t : Fin 128) (c : Fin 800) (hit : ArmHit) (s : State) : Result := done (s.armIssue t c 37 hit armMag)

/-- LDX (R151). -/
def execLdx (t : Fin 128) (c : Fin 800) (hit : ArmHit) (s : State) : Result := done (s.armIssue t c 20 hit armLdx)

/-- STX (R151). -/
def execStx (t : Fin 128) (c : Fin 800) (hit : ArmHit) (s : State) : Result := done (s.armIssue t c 21 hit armStx)

end Sys2Proof.Machine
end

