-- ==== Sys2Proof/Machine/Bridge.lean ====
section
/-! DEFINITION. Local bridge pulses (09, R269 to R285): what a pair's outputs are under R282, its periods, widths, carries, refresh and
dead time, and enabling. Instants are in quarter nanoseconds, a step of 1.25 ns is 5 of them. -/

namespace Sys2Proof.Machine

/-! ## Conditions on a pair (R271, R282) -/

/-- Whether the safety inhibit acts on a pair (R306). -/
def State.pairInhibited (s : State) (p : Nat) : Bool := s.flag Reg.SAF_STAT_INH && s.rdBit Reg.SAF_INHCFG_LBRMASK p

/-- Whether a device halt freezes a pair (R285). -/
def State.pairFrozen (s : State) (p : Nat) : Bool := s.flag Reg.LBR_STAT_HALTED && (s.pair p).mode != 3

/-- Whether a row above the fault-input cut acts on a pair (R282): the inhibit, a two-step sequence, RTRIP or a coil-fault block. -/
def State.pairAbove (s : State) (p : Nat) : Bool :=
  s.pairInhibited p || (s.pair p).two != 0 || s.flag (Reg.LBR_PSTAT_RTRIP p) || s.flag (Reg.LBR_PSTAT_CFLT p)

/-- The outputs of a pair: both LBG commanding on or off, both LBS active or inactive; `none` where they are undriven (R269, R282, R468, R469). -/
def State.pairOut (s : State) (p : Nat) : Option ((Bool × Bool) × (Bool × Bool)) :=
  let x := s.pair p
  if s.regionOn .grd = false || s.mode = mBoot || (spFind s.brg.driven p).isNone then none
  else if s.pairInhibited p then some ((false, false), (true, true))
  else if x.two = 1 then some ((x.heldH, x.heldL), (false, false))
  else if x.two = 2 then some ((x.heldH, x.heldL), (x.heldH, x.heldL))
  else if s.flag (Reg.LBR_PSTAT_RTRIP p) || s.flag (Reg.LBR_PSTAT_CFLT p) || !s.pairRuns p || x.cut != 0 || x.shoot then
    some ((false, false), (false, false))
  else some ((x.hOn, x.lOn), (false, false))

/-- POLH, POLL and POLS of a pair as written, from bit 0 up. -/
def State.polNow (s : State) (p : Nat) : Nat :=
  s.rd (Reg.LBR_PCFG_POLH p) + 2 * s.rd (Reg.LBR_PCFG_POLL p) + 4 * s.rd (Reg.LBR_PCFG_POLS p)

/-- The polarities in force: as latched while a period of the pair or a two-step sequence runs (R272), else as written. -/
def State.polOf (s : State) (p : Nat) : Nat :=
  let x := s.pair p
  if (s.pairRuns p && x.began) || x.two != 0 then x.pol else s.polNow p

/-- The levels of the pins LBG(2p), LBG(2p+1), LBS(2p) and LBS(2p+1), by POLH, POLL and POLS; `none` where undriven. -/
def State.pairPins (s : State) (p : Nat) : Option (Bool × Bool × Bool × Bool) :=
  let l := s.polOf p
  (s.pairOut p).map (fun o => (o.1.1 != bitAt l 0, o.1.2 != bitAt l 1, o.2.1 != bitAt l 2, o.2.2 != bitAt l 2))

/-- STAGE of a pair (R297). -/
def State.pairStage (s : State) (p : Nat) : Nat :=
  let x := s.pair p
  if x.two ≠ 0 then 3
  else if s.flag (Reg.LBR_PSTAT_RTRIP p) then 4
  else if s.flag (Reg.LBR_PSTAT_CFLT p) then 6
  else if s.pairRuns p = false then 0
  else if x.cut ≠ 0 then 2
  else if s.pairFrozen p then 5
  else 1

/-- LBR_CARRYp: the carries of a pair. -/
def State.carryWord (s : State) (p : Nat) : Nat :=
  pattern 16 (satInt 16 (s.pair p).ch) + pattern 16 (satInt 16 (s.pair p).cl) * 2 ^ 16

/-- A per-pair flag and its collection in LBR_ALRM. -/
def State.pairFlag (s : State) (f a : Fld) : State := (s.set1 f).set1 a

/-! ## Edges (R288, R295) -/

/-- The lowest pair of a Rogowski channel. -/
def State.lowestPair (s : State) (n : Nat) : Option Nat := (List.range 12).find? (fun p => s.rdBit (Reg.PRT_ROGCFG_PAIRS n) p)

def State.rog (s : State) (n : Nat) : RogCh := spGet s.brg.rogs n RogCh.reset
def State.putRog (s : State) (n : Nat) (x : RogCh) : State := s.setBrg { s.brg with rogs := spSet s.brg.rogs n x RogCh.reset }

/-- A turn-on edge of pair `p` at instant `q` starts the blanking of every channel that protects it (R288), and counts in the polarity test of the
channels whose lowest pair it is when it is a high-side edge with an excursion (R295). -/
def State.turnOn (s : State) (p q : Nat) (hi : Bool) (exc : List (Nat × Bool)) : State :=
  (List.range 12).foldl (fun s n =>
    if s.flag (Reg.PRT_ROGCFG_EN n) && s.rdBit (Reg.PRT_ROGCFG_PAIRS n) p then
      let x := s.rog n
      let x := { x with blank := q + 40 * s.rd (Reg.PRT_ROGTIM_BLANK n) }
      let x :=
        match x.test, exc.find? (fun e => e.1 = n) with
        | some (k, neg), some e =>
          if hi && s.lowestPair n = some p && decide (k < 16) then { x with test := some (k + 1, if e.2 then neg + 1 else neg) } else x
        | _, _ => x
      s.putRog n x
    else s) s

/-- An edge of a pair takes place. -/
def State.applyEdge (s : State) (p : Nat) (e : Edge) (exc : List (Nat × Bool)) : State :=
  let s := s.elapseToQ e.time
  let x := s.pair p
  let x := if e.hi then { x with hOn := e.on, hOff := if x.hOn && !e.on then e.time else x.hOff }
    else { x with lOn := e.on, lOff := if x.lOn && !e.on then e.time else x.lOff,
                    lowRun := if e.on then x.lowRun else x.lowest e.time, lAt := e.time }
  let s := s.putPair p x
  if e.on then s.turnOn p e.time e.hi exc else s

/-- The next placed edge of a pair takes place, unless the pair is frozen (R285). -/
def State.nextEdge (s : State) (p : Nat) (exc : List (Nat × Bool)) : State :=
  match (s.pair p).plan with
  | [] => s
  | e :: r => if s.pairFrozen p then s else (s.putPair p { s.pair p with plan := r }).applyEdge p e exc

/-- Let the edges that are still to come in a period that ends take place. -/
def State.flushEdges (fuel : Nat) (s : State) (p : Nat) : State :=
  match fuel with
  | 0 => s
  | fuel + 1 => if (s.pair p).plan = [] then s else (s.nextEdge p []).flushEdges fuel p

/-! ## Widths and placement (R274 to R279) -/

/-- The commanded width of a duty word (R274). -/
def dutyWidth (per : Nat) (word : Nat) : Int := min (per : Int) (rhe (max (signed 16 word) 0 * (per : Nat)) 32767)

/-- The evaluation of R276: the width emitted and the carry. -/
def evalWidth (per wmin : Nat) (w c : Int) : Int × Int :=
  let x := w + c
  if x < (wmin : Nat) then (0, x) else if (per : Int) - (wmin : Nat) < x then ((per : Nat), x - (per : Nat)) else (x, 0)

/-- Insert an edge in order of time, off before on. -/
def insertEdge (e : Edge) : List Edge → List Edge
  | [] => [e]
  | f :: r => if e.time < f.time ∨ (e.time = f.time ∧ e.on = false) then e :: f :: r else f :: insertEdge e r

/-- The edges of one side over a period from `start` of `per` steps, for the on intervals `l` (steps), from the state at its start. -/
def sideEdges (hi was : Bool) (start per : Nat) (l : List (Int × Int)) : List Edge :=
  let at0 := l.any (fun i => i.1 ≤ 0)
  let first : List Edge := if was && !at0 then [⟨start, hi, false⟩] else []
  first ++ l.flatMap (fun i =>
    (if i.1 ≤ 0 ∧ was = true then [] else [⟨start + 5 * i.1.toNat, hi, true⟩])
      ++ (if i.2 < (per : Int) then [⟨start + 5 * i.2.toNat, hi, false⟩] else []))

/-- The steps by which a turn-on at the period start is delayed after the other side's turn-off (R276). -/
def startDelay (dt start : Nat) (otherOn : Bool) (otherOff : Nat) : Int :=
  if otherOn then (dt : Nat) else if otherOff = 0 then 0 else max 0 (((otherOff + 5 * dt : Nat) - (start : Int) + 4) / 5)

/-- What a period is made of: the on intervals of both sides in steps, the carries, SHOOT and FREF. -/
structure Placed where
  hi : List (Int × Int)
  lo : List (Int × Int)
  ch : Int
  cl : Int
  shoot : Bool
  fref : Bool
  deriving DecidableEq, Repr

/-- An interval, where it is not empty. -/
def ivl (a b : Int) : List (Int × Int) := if a < b then [(a, b)] else []

/-- COMPL (R276, R279): a turn-on waits for DT after the last turn-off of the other switch; `x` is the pair at the period start with its carry as R277 leaves it. -/
def placeCompl (x : LbrPair) (start per dt minp rfw : Nat) (centre refresh : Bool) (w : Int) : Placed :=
  let wmin := dt + minp
  let r := evalWidth per wmin w (if refresh then 0 else x.ch)
  let width := if refresh then min r.1 ((per : Int) - (rfw : Nat) - (dt : Nat)) else r.1
  let c := if refresh then 0 else r.2
  let dh := startDelay dt start x.lOn x.lOff
  let dl := startDelay dt start x.hOn x.hOff
  let p : Int := (per : Nat)
  if width ≤ 0 then ⟨[], ivl dl p, c, 0, false, refresh⟩
  else if p ≤ width then ⟨ivl dh p, [], c, 0, false, refresh⟩
  else
    let a := if centre && !refresh then (p - width) / 2 else 0
    let on := if dl < a then a + (dt : Nat) else max a dh
    let low := if on < a + width then a + width + (dt : Nat) else max (a + width) dl
    ⟨ivl on (a + width), ivl dl a ++ ivl low p, c, 0, false, refresh⟩

/-- INDEP (R278, R279). -/
def placeIndep (x : LbrPair) (per dt minp rfw : Nat) (refresh : Bool) (wh wl : Int) : Placed :=
  let p : Int := (per : Nat)
  let d : Int := (dt : Nat)
  let rh := evalWidth per minp wh (if refresh then 0 else x.ch)
  let rl := evalWidth per minp wl (if refresh then 0 else x.cl)
  let xl := if refresh then max rl.1 (rfw : Nat) else rl.1
  let xh := if refresh then max 0 (min rh.1 (p - xl - 2 * d)) else rh.1
  let ch := if refresh then 0 else rh.2
  let cl := if refresh then 0 else rl.2
  if 0 < xh ∧ 0 < xl ∧ p < xh + xl + 2 * d then ⟨[], [], 0, 0, true, refresh⟩
  else
    let cutW := if xh < p ∧ p < d + xh ∧ 0 < xh then d + xh - p else 0
    let hi := if xh ≤ 0 then [] else if p ≤ xh then ivl (if x.lOn then d else 0) p else ivl d (min p (d + xh))
    let lo := if xl ≤ 0 then [] else if p ≤ xl then ivl (if x.hOn then d else 0) p else ivl (p - xl) p
    ⟨hi, lo, if refresh then 0 else ch + cutW, cl, false, refresh⟩

/-! ## The over-voltage controllers' pairs (R286) -/

/-- A pair in a CHOPPER period follows the output of its controller: on and off times of at least MINP, except a turn-on at VOV. A row from
1 to 5 of R282 that has acted holds it to the end of the period. -/
def State.chopper (s : State) (p : Nat) (on vov : Bool) : State :=
  let x := s.pair p
  if x.mode ≠ 3 ∨ s.pairRuns p = false ∨ x.began = false ∨ x.acted then s
  else if x.lOn = on then s.putPair p { x with plan := [] }
  else
    let free := x.lAt + 5 * x.minp
    if s.nowQ < free ∧ ¬ (on ∧ vov) then s.putPair p { x with plan := [⟨free, false, on⟩] }
    else (s.putPair p { x with plan := [] }).applyEdge p ⟨s.nowQ, false, on⟩ []

/-! ## A period starts (R272 to R280) -/

/-- The active fault inputs of a pair. -/
def State.pairFaults (s : State) (p : Nat) : List Nat :=
  (List.range 4).filter (fun n =>
    s.flag (Reg.PRT_FLTCFG_EN n) && s.flag (Reg.PRT_FLTSTAT_LIVE n) && s.rdBit (Reg.PRT_FLTCFG_PAIRS n) p)

/-- The bank word of a duty. -/
def State.bankWord (s : State) (k : Nat) : Nat := spGet s.mod.given (24 + k % 8) 0

/-- A residue mismatch in a bank duty (R274): RESERR, reported, and LBR_ fenced. -/
def State.fenceLbr (s : State) (detail : Nat) : State :=
  let s := (((s.set1 Reg.LBR_ALRM_RESERR).resRecord .lbr detail).errorB .lbr kResidue detail 0).wr (blockState .lbr) stFenced
  s.pairsOff

/-- The pulses of a period of pair `p` that no row from 1 to 5 of R282 takes. -/
def State.placePeriod (s : State) (p start per : Nat) : State :=
  let x := s.pair p
  let mode := x.mode
  let x := if x.acted then { x with ch := 0, cl := 0, acted := false } else x
  let dt := s.rd (Reg.LBR_TIM_DT p)
  let minp := s.rd (Reg.LBR_TIM_MINP p)
  let rfw := s.rd (Reg.LBR_PER_RFW p)
  let bank := s.flag (Reg.LBR_PCFG_SRC p)
  if mode = 3 then
    let c := x.ovsel
    let s := s.putPair p { x with shoot := false, plan := [] }
    let s := if x.hOn then s.applyEdge p ⟨start, true, false⟩ [] else s
    s.chopper p (s.flag (Reg.PRT_OVSTAT_ON c)) (s.flag (Reg.PRT_OVSTAT_VLIVE c))
  else if bank ∧ s.flag Reg.ARM_STAT_AVALID = false then
    let s := s.pairFlag (Reg.LBR_PSTAT_BANKINV p) Reg.LBR_ALRM_BANKINV
    s.putPair p { x.off start with shoot := false }
  else
    let refresh := s.rd (Reg.LBR_PCFG_SUPPLY p) ≠ 1 && rfw != 0 && decide (s.rd (Reg.LBR_PCFG_RFP p) ≤ s.rd (Reg.LBR_PSTAT_RFCNT p))
    let k := s.rd (Reg.LBR_PCFG_BANKW p)
    let wh := dutyWidth per (if bank then s.bankWord k else s.rd (Reg.LBR_DUTY_DUTYH p))
    let wl := dutyWidth per (if bank then s.bankWord (k + 1) else s.rd (Reg.LBR_DUTY_DUTYL p))
    let r := if mode = 1 then placeCompl x start per dt minp rfw (s.flag (Reg.LBR_PCFG_ALIGN p)) refresh wh
      else placeIndep x per dt minp rfw refresh wh wl
    let s := if r.fref then s.set1 (Reg.LBR_PSTAT_FREF p) else s
    let s := if r.shoot then s.pairFlag (Reg.LBR_PSTAT_SHOOT p) Reg.LBR_ALRM_SHOOT else s
    let edges := (sideEdges true x.hOn start per r.hi ++ sideEdges false x.lOn start per r.lo).foldl (fun l e => insertEdge e l) []
    s.putPair p { x with ch := r.ch, cl := r.cl, plan := edges, shoot := r.shoot }

/-- The configuration a period of pair `p` uses from its start to its end (R272); a change of mode clears the carries (R277). -/
def State.latchPair (s : State) (p : Nat) (x : LbrPair) : LbrPair :=
  let mode := s.rd (Reg.LBR_PCFG_MODE p)
  let x := if x.mode = mode then x else { x with ch := 0, cl := 0 }
  { x with mode := mode, ovsel := s.rd (Reg.LBR_PCFG_OVSEL p), minp := s.rd (Reg.LBR_TIM_MINP p), rfw := s.rd (Reg.LBR_PER_RFW p),
           sync := s.flag (Reg.LBR_PCFG_SYNC p), pol := s.polNow p }

/-- The fault-input cuts of this period that act now, no higher row of R282 acting, and are not counted yet are counted (R280, log 94). -/
def State.cutCount (s : State) (p : Nat) : State :=
  let x := s.pair p
  if (s.pairRuns p && x.began) = false ∨ s.pairAbove p = true then s
  else
    let s := ((List.range 4).filter (fun n => bitAt x.cut n && !bitAt x.counted n)).foldl (fun s n => s.addSat (Reg.PRT_FLTSTAT_COUNT n) 1) s
    s.putPair p { s.pair p with counted := (s.pair p).cut }

/-- A period of pair `p` starts (R272): its instant passes, the PWM trigger fires, and the outputs of the period are settled. `bad` is the bank word
whose residue does not fit, if any (R38, R274). The fault inputs are judged also where a higher row of R282 holds the pair (R280). -/
def State.periodStart (s : State) (p : Nat) (bad : Option Nat) : State :=
  let x := s.pair p
  match x.next with
  | none => s
  | some n =>
    if s.pairCounts p = false ∨ s.flag Reg.LBR_STAT_HALTED then s
    else
      let per := s.rd (Reg.LBR_PER_PERIOD p)
      let start := n + (s.nowQ - n) / (5 * per) * (5 * per)
      let s := s.elapseToQ start
      let s := if x.mode = 3 then s else s.flushEdges 16 p
      let s := s.seqTriggers 4 (some p)
      let x := s.pair p
      let s := s.wr (Reg.LBR_PSTAT_RFCNT p)
        (if x.began = false ∨ 5 * x.rfw ≤ x.lowest start then 0 else min (s.rd (Reg.LBR_PSTAT_RFCNT p) + 1) 63)
      let faults := s.pairFaults p
      let s := s.putPair p { s.latchPair p x with
        start := start, next := some (start + 5 * per), lowRun := 0, began := true, cut := (faults.map (2 ^ ·)).foldl (· + ·) 0, counted := 0 }
      let held := s.pairAbove p || s.pairUses p = 0
      let bankUsed := s.flag (Reg.LBR_PCFG_SRC p) && s.rd (Reg.LBR_PCFG_MODE p) != 3 && s.flag Reg.ARM_STAT_AVALID
      let s :=
        if held then s.pairOff p
        else if faults ≠ [] then
          let s := (s.pairOff p).cutCount p
          s.putPair p { s.pair p with shoot := false }
        else
          match bad with
          | some k => if bankUsed then s.fenceLbr k else s.placePeriod p start per
          | none => s.placePeriod p start per
      s

/-- A frame start restarts the counters of the pairs with SYNC = FRAME (R273), which a device halt stops (R285); what a period that it cuts
short had still to bring is dropped. -/
def State.bridgeFrame (s : State) : State :=
  (List.range 12).foldl (fun s p =>
    let x := s.pair p
    if x.sync && s.pairCounts p && !s.flag Reg.LBR_STAT_HALTED then
      s.putPair p { x with next := some s.nowQ, plan := if x.mode = 3 then x.plan else x.plan.filter (fun e => decide (e.time < s.nowQ)) }
    else s) s

/-! ## Enabling and disabling (R273, R276, R277, R283) -/

/-- Whether a write of PEN = 1 is refused (R273, R276). -/
def State.pairRefused (s : State) (p : Nat) : Bool :=
  let per := s.rd (Reg.LBR_PER_PERIOD p)
  let wmin := s.rd (Reg.LBR_TIM_DT p) + s.rd (Reg.LBR_TIM_MINP p)
  (s.flag (Reg.LBR_PCFG_SYNC p) && decide (s.frameNs * 4 % (5 * per) ≠ 0))
    || (s.rd (Reg.LBR_PCFG_MODE p) = 1 && decide (per < 2 * wmin))

/-- LBR_PCFGp has been written: from now on its pins are driven (R469). -/
def State.pairWritten (s : State) (p : Nat) : State := s.setBrg { s.brg with driven := spPut s.brg.driven p 1 }

/-- PEN is written 1. -/
def State.pairEnable (s : State) (p : Nat) : State :=
  if s.pairRefused p then s.set1 Reg.LBR_ALRM_CFGERR
  else if s.flag (Reg.LBR_PCFG_PEN p) then s
  else
    let x := s.pair p
    let next := if s.flag (Reg.LBR_PCFG_SYNC p) then none else some s.nowQ
    (s.set1 (Reg.LBR_PCFG_PEN p)).putPair p
      { s.latchPair p (x.off s.nowQ) with ch := 0, cl := 0, next := next, lowRun := 0, began := false, acted := false }

/-- PEN is written 0 (R283): both outputs off; a two-step sequence completes. -/
def State.pairDisable (s : State) (p : Nat) : State :=
  let s := (s.set0 (Reg.LBR_PCFG_PEN p)).pairOff p
  s.putPair p { s.pair p with next := none }

/-- PAIR_PERIOD_START (R272). -/
def execPairPeriodStart (p : Fin 12) (bad : Option (BitVec 8)) (s : State) : Result := done (s.periodStart p (bad.map BitVec.toNat))

/-- PAIR_ENABLE (R273). -/
def execPairEnable (m : Master) (p : Fin 12) (s : State) : Result :=
  done (s.gate m true (0x47000100 + 0x20 * p.val) (fun s => (s.pairWritten p).pairEnable p))

/-- PAIR_DISABLE (R283). -/
def execPairDisable (m : Master) (p : Fin 12) (s : State) : Result :=
  done (s.gate m true (0x47000100 + 0x20 * p.val) (fun s => (s.pairWritten p).pairDisable p))

/-- PAIR_OUTPUT_EDGE (R288). -/
def execPairOutputEdge (p : Fin 12) (exc : List (Fin 12 × Bool)) (s : State) : Result :=
  done (s.nextEdge p (exc.map (fun e => (e.1.val, e.2))))

end Sys2Proof.Machine
end

