-- ==== Sys2Proof/Machine/Mallet.lean ====
section
/-! DEFINITION. Holding the Mallet (08): when a frame may carry ACTIVE = 1 (R248), losing and taking the Mallet (R248 to R255), epochs
seen (R254), and the lease messages a device sends (R244, R246). -/

namespace Sys2Proof.Machine

def tmPartner : Nat := 370
def tmHbRx : Nat := 371
def tmHbTx : Nat := 372
def tmSnap : Nat := 373
def tmIdleWait : Nat := 374
def tmSnapTx : Nat := 375

/-- Whether the device is a pair member (R243). -/
def State.paired (s : State) : Bool := s.rd Reg.MIR_CFG_PAIR != 0

/-- LEASE and SKEW in nanoseconds (R247). -/
def State.leaseNs (s : State) : Nat := s.rd Reg.MIR_LEASE_LEASE * 1000
def State.skewNs (s : State) : Nat := s.rd Reg.MIR_LEASE_SKEW * 1000

/-- A value of EPOCH has been seen (R254). -/
def State.seeEpoch (s : State) (e : Nat) : State := s.wr Reg.MIR_EPSEEN_EPSEEN (max (s.rd Reg.MIR_EPSEEN_EPSEEN) e)

/-- The partner has been seen: a lease message or one of its frames has arrived. The 4 ms of R246 begin where it had not been seen. -/
def State.seePartner (s : State) : State :=
  let s := if s.flag Reg.MIR_STAT_PARTNER then s else s.startTimer tmHbRx
  (s.set1 Reg.MIR_STAT_PARTNER).startTimer tmPartner

/-- PARTNER falls 4 ms after the last sight of the partner. -/
def State.partnerAge (s : State) : State :=
  if s.flag Reg.MIR_STAT_PARTNER && decide (ticksMs 4 < s.timerAge tmPartner) then s.set0 Reg.MIR_STAT_PARTNER else s

/-- Whether this is the instant of a frame start (R34). -/
def State.atFrameStart (s : State) : Bool := s.clk.ticks = s.mir.frameTick

/-! ## ACTIVE (R248, R249) -/

/-- Whether a frame with this APPLY meets the lease condition: a single device needs none (R248). -/
def State.leaseCovers (s : State) (apply : Nat) : Bool :=
  !s.paired || decide (0 < diff32 (s.rd Reg.MIR_LE_LE + 2 ^ 32 - s.skewNs) apply)

/-- Whether a frame with this APPLY goes out with ACTIVE = 1: the Mallet is held, the lease covers it, no class D error has been detected
(R248), and a pair member is not in MAINTENANCE (R432). -/
def State.activeFor (s : State) (apply : Nat) : Bool :=
  s.mir.holds && s.leaseCovers apply && !s.ctl.classD && !(s.paired && s.mode = mMaintenance)

/-- The mode becomes SHADOW: the Pointing channels are disarmed and their pins inactive (R260). -/
def State.toShadow (s : State) : State :=
  ((List.range 4).foldl (fun s n => s.set0 (Reg.ANG_ACPCFG_ARMED n)) (s.setMode mShadow)).acpOff

/-- A holder that has lost the Mallet enters SHADOW (R248, R251, R428): from PRECHARGE, READY and the forming modes. -/
def State.enterShadow (s : State) : State :=
  if s.mode = mPrecharge ∨ s.mode = mReady ∨ isForming s.mode then s.toShadow else s

/-- The holding ends. -/
def State.endHolding (s : State) : State :=
  let s := s.setMir { s.mir with holds := false, hoOut := none, renews := [], renewing := false }
  (s.wr Reg.MIR_STAT_ROLE 2).wr Reg.MIR_CLAIMTIME_TIME s.now

/-- The device stops holding the Mallet and is a shadow (R248, R251, R252). -/
def State.dropMallet (s : State) : State := s.endHolding.enterShadow

/-- The first frame that fails the lease condition ends the holding (R248). -/
def State.leaseCheck (s : State) (apply : Nat) : State :=
  if s.mir.holds ∧ s.leaseCovers apply = false then (s.set1 Reg.MIR_ALRM_LEASELOST).dropMallet else s

/-- A higher epoch than the holder's own has been received: the Mallet is released at once (R251). -/
def State.higherEpoch (s : State) (e : Nat) : State :=
  if s.mir.holds ∧ s.rd Reg.MIR_EPOCH_EPOCH < e then (s.set1 Reg.MIR_ALRM_DUALHOLD).dropMallet else s

/-! ## Claiming (R250, R253, R255) -/

/-- The epoch of a claim: the next value above EPSEEN, with the parity of the member in a pair; none at or above 0xFFFF_FFFF (R255). -/
def State.newEpoch (s : State) : Option Nat :=
  let e := s.rd Reg.MIR_EPSEEN_EPSEEN + 1
  let e := if s.paired ∧ e % 2 ≠ s.rd Reg.MIR_CFG_MEMBER then e + 1 else e
  if e < 0xFFFFFFFF then some e else none

/-- Take the Mallet with epoch `e` (R250, R255). The lease of the new holder starts at the claim (log 22). -/
def State.takeMallet (s : State) (e : Nat) : State :=
  let s := (s.wr Reg.MIR_EPOCH_EPOCH e).wr Reg.MIR_EPSEEN_EPSEEN e
  let s := ((s.set1 Reg.MIR_ALRM_CLAIMED).addSat Reg.MIR_CNT_CLAIMS 1).wr Reg.MIR_CLAIMTIME_TIME s.now
  let s := s.setMir { s.mir with holds := true, held := true, released := none, hoIn := none, renews := [], renewing := false, ackSent := s.now }
  if s.paired then (s.wr Reg.MIR_STAT_ROLE 1).wr Reg.MIR_LE_LE (s.now + s.leaseNs + 2 ^ 32 - s.skewNs) else s

/-- A single device claims at the frame start at which it leaves IDLE, and holds the Mallet from then on (R253, R432). -/
def State.singleClaim (s : State) : State :=
  if s.mir.holds ∨ s.regionOn .net = false then s
  else
    match s.newEpoch with
    | some e => s.takeMallet e
    | none => s.set1 Reg.MIR_ALRM_EPEXH

/-! ## Lease messages (R244, R246, R247) -/

/-- The heartbeat ports that run. -/
def State.hbPorts (s : State) : List Nat := [6, 7].filter (fun p => s.flag (Reg.NET_PCFG_PEN p) && s.flag (Reg.NET_PSTAT_LINK p))

/-- Every path that runs: the aligned mirror lanes of a WARM pair, and ETH6 and ETH7 (as 2 and 3). -/
def State.pathsUp (s : State) : List Nat :=
  (if s.rd Reg.MIR_CFG_PAIR = 1 then (List.range 2).filter (fun l => s.rdBit Reg.MIR_STAT_LANES l) else []) ++ s.hbPorts.map (· - 4)

/-- The paths a lease message goes out on (R244): of those that run the mirror lanes, and ETH6 and ETH7 in a COLD pair or with HBEN. -/
def State.leasePaths (s : State) : List Nat :=
  s.pathsUp.filter (fun p => decide (p < 2) || s.rd Reg.MIR_CFG_PAIR = 2 || s.flag Reg.MIR_CFG_HBEN)

/-- The state a member tells its partner (R244, R252): 1 in SHADOW, plus 2 with IMGDIFF. -/
def State.tellState (s : State) : Nat := (if s.mode = mShadow then 1 else 0) + s.rd Reg.MIR_ALRM_IMGDIFF * 2

/-- Send a lease message of a kind (0 RENEW, 1 ACK, 2 RELEASE, 3 HANDOVER) with a lease end and a frame on every path in `paths`; a heartbeat
goes out on ETH6 and ETH7 at the same time, with the message in it where they are among the paths (R246). -/
def State.sendLease (s : State) (paths : List Nat) (kind le frame : Nat) : State :=
  let q := s.mir.seq
  let s := paths.foldl (fun s p =>
    s.emit (.lease p kind (s.rd Reg.MIR_CFG_MEMBER) (s.rd Reg.MIR_EPOCH_EPOCH) (s.rd Reg.MIR_EPSEEN_EPSEEN) (le % 2 ^ 32) q frame
      s.tellState)) s
  let s := s.setMir { s.mir with seq := (q + 1) % 2 ^ 32 }
  let bare := s.hbPorts.filter (fun p => !paths.contains (p - 4))
  (bare.foldl (fun s p => s.emit (.heartbeat p (s.rd Reg.MIR_EPOCH_EPOCH))) s).startTimer tmHbTx

/-- LOCKOUT is due with a kind and region of SUP_LOCK (R436): every later frame goes out with ACTIVE = 0, and a holder of a pair sends
RELEASE on every path that still runs (R249). The first cause stands. -/
def State.lockDue (s : State) (kind region : Nat) : State :=
  let s := s.setCtl { s.ctl with classD := true, lock := some (s.ctl.lock.getD (kind, region)) }
  if s.mir.holds && s.paired && s.works .mir then s.sendLease s.pathsUp 2 (s.rd Reg.MIR_LE_LE) 0 else s

/-- A class D error of a region is detected (R24, R249). -/
def State.classDError (s : State) (region : Nat) : State := s.lockDue 1 region

end Sys2Proof.Machine
end

