-- ==== Sys2Proof/Machine/Protect.lean ====
section
/-! DEFINITION. Power-stage protection (09, R280 to R295): fault inputs, Rogowski comparators with the two-step turn-off, coil checks, the
polarity test, and the DC-link over-voltage controllers. -/

namespace Sys2Proof.Machine

def tmCoil (n : Nat) : Nat := 400 + n
def tmOvInv (c : Nat) : Nat := 420 + c

/-- The pairs of a mask, in ascending order. -/
def maskPairs (m : Nat) : List Nat := (List.range 12).filter (fun p => bitAt m p)

/-- The place of a detection among those of one CORE cycle (R292): channels, fault inputs, controllers. -/
def firstInKey (kind src : Nat) : Nat := (if kind = 3 then 16 else if kind = 4 then 32 else 0) + src

/-- Put first-in record `k`. -/
def State.putRecord (s : State) (k kind src pairs time : Nat) : State :=
  (((s.wr (Reg.PRT_FISRC_KIND k) kind).wr (Reg.PRT_FISRC_SRC k) src).wr (Reg.PRT_FISRC_PAIRS k) pairs).wr (Reg.PRT_FITIME_TIME k) time

/-- Move record `k` up by one place; past the eighth it is lost. -/
def State.moveRecord (s : State) (k : Nat) : State :=
  if 7 ≤ k then s
  else s.putRecord (k + 1) (s.rd (Reg.PRT_FISRC_KIND k)) (s.rd (Reg.PRT_FISRC_SRC k)) (s.rd (Reg.PRT_FISRC_PAIRS k)) (s.rd (Reg.PRT_FITIME_TIME k))

/-- The CORE cycle of instant `q`, in quarter nanoseconds. -/
def coreCycle (q : Nat) : Nat := q / 5

/-- Device time at instant `q` of the present TIME tick, or at its end for a later one. -/
def State.devAtQ (s : State) (q : Nat) : Nat := (s.now + 2 ^ 32 - (s.nowQ - q + 2) / 4) % 2 ^ 32

/-- A first-in record of a detection at instant `q` (R292): kind, source and pairs with the device time, after those of earlier CORE cycles and, of
the same one, in the order of R292; a ninth sets OVF. -/
def State.firstIn (s : State) (kind src pairs q : Nat) : State :=
  let k := s.rd Reg.PRT_FICNT_COUNT
  let later (i : Nat) : Bool :=
    decide (coreCycle q < s.brg.fiAt.getD i 0)
      || (coreCycle q = s.brg.fiAt.getD i 0 && decide (firstInKey kind src < firstInKey (s.rd (Reg.PRT_FISRC_KIND i)) (s.rd (Reg.PRT_FISRC_SRC i))))
  let moved := (List.range k).filter later
  let at' := s.brg.fiAt.take (k - moved.length) ++ coreCycle q :: s.brg.fiAt.drop (k - moved.length)
  let s := s.setBrg { s.brg with fiAt := at'.take 8 }
  let s := if 8 ≤ k then s.set1 Reg.PRT_FICNT_OVF else (s.castEvent 0).wr Reg.PRT_FICNT_COUNT (k + 1)
  let s := moved.reverse.foldl State.moveRecord s
  if k - moved.length < 8 then s.putRecord (k - moved.length) kind src pairs (s.devAtQ q) else s

/-- A write of FICLR clears the records (R292). -/
def State.firstInClear (s : State) : State :=
  let s := ((s.wr Reg.PRT_FICNT_COUNT 0).set0 Reg.PRT_FICNT_OVF).setBrg { s.brg with fiAt := [] }
  (List.range 8).foldl (fun s k => s.putRecord k 0 0 0 0) s

/-! ## Fault inputs (R280, R281) -/

/-- FLIVE of a pair (R280, R281): a mapped fault input is active. -/
def State.faultLive (s : State) (p : Nat) : Bool := !(s.pairFaults p).isEmpty

/-- RLIVE of a pair (R290): a comparator of a channel whose PAIRS includes it is active. -/
def State.rogLive (s : State) (p : Nat) : Bool :=
  (List.range 12).any (fun n =>
    s.rdBit (Reg.PRT_ROGCFG_PAIRS n) p && (s.flag (Reg.PRT_ROGSTAT_SLIVE n) || s.flag (Reg.PRT_ROGSTAT_HLIVE n)))

/-- LBR_PSTATp with the fields that show the pair and its inputs as they stand (R280, R281, R290, R297), from the word `w` of its flags. -/
def State.pstatWord (s : State) (p w : Nat) : Nat :=
  putBits (putBits (putBits w 0 3 (s.pairStage p)) 16 1 (if s.faultLive p then 1 else 0)) 17 1 (if s.rogLive p then 1 else 0)

/-- Fault input `n` cuts a pair that runs: where no higher row of R282 acts, its outputs are off to the end of the period, which is counted
(R280). -/
def State.cutNow (n : Nat) (s : State) (p : Nat) : State :=
  let x := s.pair p
  if (s.pairRuns p && x.began) = false ∨ bitAt x.cut n = true then s
  else
    let s := s.putPair p { x with cut := putBit x.cut n true }
    if s.pairAbove p then s else (s.pairOff p).cutCount p

/-- An activation of fault input `n` on a mapped pair: FTRIP, and the cut. -/
def State.cutPair (n : Nat) (s : State) (p : Nat) : State :=
  State.cutNow n (s.pairFlag (Reg.LBR_PSTAT_FTRIP p) Reg.LBR_ALRM_FTRIP) p

/-- Whether fault input `n` acts: PRT_ running and the input enabled. -/
def State.faultUsed (s : State) (n : Nat) : Bool := s.works .prt && s.flag (Reg.PRT_FLTCFG_EN n)

/-- The level of fault input `n` is judged against POL (R280): an activation of an input in use is recorded and cuts its pairs, and while it
stays active it cuts each pair that comes to be mapped. `was` tells whether the input acted and was active before. -/
def State.faultJudge (s : State) (n : Nat) (was : Bool) : State :=
  let live := match spFind s.brg.fltPin n with | some l => (l = 1) != s.flag (Reg.PRT_FLTCFG_POL n) | none => false
  let s := s.wr (Reg.PRT_FLTSTAT_LIVE n) (if live then 1 else 0)
  if (live && s.faultUsed n) = false then s
  else
    let mask := s.rd (Reg.PRT_FLTCFG_PAIRS n)
    if was then (maskPairs mask).foldl (State.cutNow n) s
    else
      let had := s.flag (Reg.PRT_FLTSTAT_LATCH n)
      let s := (s.set1 (Reg.PRT_FLTSTAT_LATCH n)).set1 Reg.PRT_ALRM_FLT
      let s := (maskPairs mask).foldl (State.cutPair n) (s.firstIn 3 n mask s.nowQ)
      if had = false ∧ s.flag (Reg.PRT_FLTCFG_ACT n) = true then s.trip Reg.SUP_TRIP_FLT else s

/-- Whether fault input `n` is active and acts. -/
def State.faultActs (s : State) (n : Nat) : Bool := s.faultUsed n && s.flag (Reg.PRT_FLTSTAT_LIVE n)

/-- The pin of fault input `n` has been at its active or inactive level for `steps` CORE cycles: once that is DGL or more, the filtered level
is that of the pin (R280). -/
def State.faultPin (s : State) (n : Nat) (active : Bool) (steps : Nat) : State :=
  if s.regionOn .grd = false ∨ steps < s.rd (Reg.PRT_FLTCFG_DGL n) then s
  else
    let level := active != s.flag (Reg.PRT_FLTCFG_POL n)
    let was := s.faultActs n
    (s.setBrg { s.brg with fltPin := spPut s.brg.fltPin n (if level then 1 else 0) }).faultJudge n was

/-! ## Rogowski detection (R288 to R291) -/

/-- A pair joins the line for its SOFT stage: after those detected earlier, in ascending number among those of the same CORE cycle (R291). -/
def State.softInsert (s : State) (p : Nat) : List Nat → List Nat
  | [] => [p]
  | q :: r =>
    let a := coreCycle (s.pair p).detAt
    let b := coreCycle (s.pair q).detAt
    if a < b ∨ (a = b ∧ p < q) then p :: q :: r else q :: s.softInsert p r

/-- A detection starts the two-step turn-off of a pair that is not in one; a pair whose switches are both off goes to OFF at once (R290). -/
def State.twoStep (softT q : Nat) (s : State) (p : Nat) : State :=
  let x := s.pair p
  let out := s.pairOut p
  let s := s.pairFlag (Reg.LBR_PSTAT_RTRIP p) Reg.LBR_ALRM_RTRIP
  if x.two ≠ 0 then s
  else
    match out with
    | some ((h, l), _) =>
      if h || l then
        let s := s.putPair p { x with two := 1, heldH := h, heldL := l, softT := softT, detAt := q, plan := [], acted := true }
        s.setBrg { s.brg with softQ := s.softInsert p s.brg.softQ }
      else s.pairOff p
    | none => s

/-- A detection on channel `n` at instant `q` (R290). -/
def State.detect (s : State) (n : Nat) (hard : Bool) (q : Nat) : State :=
  let mask := s.rd (Reg.PRT_ROGCFG_PAIRS n)
  let s := s.set1 (if hard then Reg.PRT_ALRM_HARD else Reg.PRT_ALRM_SOFT)
  let s := s.firstIn (if hard then 2 else 1) n mask q
  let s := (maskPairs mask).foldl (State.twoStep (40 * s.rd (Reg.PRT_ROGTIM_SOFTT n)) q) s
  if s.flag (Reg.PRT_ROGCFG_ACT n) then s.trip Reg.SUP_TRIP_ROG else s

/-- Whether channel `n` detects: PRT_ running and the channel enabled. -/
def State.rogOn (s : State) (n : Nat) : Bool := s.works .prt && s.flag (Reg.PRT_ROGCFG_EN n)

/-- The comparators of channel `n` change: a rise of the hard one is a hard detection, else an unmasked rise of the soft one a soft
detection (R288, R290). -/
def State.rogChange (s : State) (n : Nat) (soft hard : Bool) : State :=
  let riseS := soft && !s.flag (Reg.PRT_ROGSTAT_SLIVE n)
  let riseH := hard && !s.flag (Reg.PRT_ROGSTAT_HLIVE n)
  let masked := decide (s.nowQ < (s.rog n).blank)
  let s := (s.wr (Reg.PRT_ROGSTAT_SLIVE n) (if soft then 1 else 0)).wr (Reg.PRT_ROGSTAT_HLIVE n) (if hard then 1 else 0)
  if s.rogOn n = false then s else if riseH then s.detect n true s.nowQ else if riseS && !masked then s.detect n false s.nowQ else s

/-- Blanking of channel `n` ends: an active soft comparator is a soft detection at that instant, whatever the tick at which it is carried out
(R288, R292). -/
def State.blankEnd (s : State) (n : Nat) : State :=
  let x := s.rog n
  if x.blank = 0 then s
  else
    let s := (s.elapseToQ x.blank).putRog n { x with blank := 0 }
    if s.rogOn n && s.flag (Reg.PRT_ROGSTAT_SLIVE n) then s.detect n false x.blank else s

/-- The SOFT stage of the pair first in line starts (R291). -/
def State.softStart (s : State) (p : Nat) : State :=
  let x := s.pair p
  if s.brg.softQ.head? ≠ some p ∨ x.two ≠ 1 then s
  else
    let t := match s.brg.lastSoft with | some l => max s.nowQ (l + 5 * s.rd Reg.PRT_STAG_STAGGER) | none => s.nowQ
    let s := s.elapseToQ t
    let s := s.setBrg { s.brg with softQ := s.brg.softQ.tail, lastSoft := some t }
    s.putPair p { s.pair p with two := 2, softAt := t }

/-- The SOFT stage of a pair ends (R290): OFF, held by RTRIP. A stopping LBR_ reports OFF after its last sequence (R283). -/
def State.softEnd (s : State) (p : Nat) : State :=
  let x := s.pair p
  if x.two ≠ 2 then s
  else
    let s := s.elapseToQ (x.softAt + x.softT)
    let s := (s.putPair p { x with two := 0 }).pairOff p
    if s.rd (blockState .lbr) = stStopping ∧ (List.range 12).all (fun q => (s.pair q).two = 0) = true then s.wr (blockState .lbr) stOff else s

/-! ## Coils (R294, R295) -/

/-- A coil check of channel `n` (R294), with the bias voltage in 10 uV. -/
def State.coilCheck (s : State) (n vb : Nat) : State :=
  if s.rogOn n = false then s
  else
    let s := if s.timerOn (tmCoil n) then s.expire (tmCoil n) (ticksMs (10 * max 1 (s.rd Reg.PRT_BIAS_BIASPER))) else s
    let s := (s.startTimer (tmCoil n)).wr (Reg.PRT_ROGSTAT_VBIAS n) vb
    let x := s.rog n
    let o := if 10000 ≤ vb then min (x.openRun + 1) 3 else 0
    let h := if vb ≤ 20 then min (x.shortRun + 1) 3 else 0
    let s := s.putRog n { x with openRun := o, shortRun := h }
    let newO := decide (o = 3) && !s.flag (Reg.PRT_ROGSTAT_OPEN n)
    let newH := decide (h = 3) && !s.flag (Reg.PRT_ROGSTAT_SHORT n)
    let s := if newO then (s.set1 (Reg.PRT_ROGSTAT_OPEN n)).set1 Reg.PRT_ALRM_OPEN else s
    let s := if newH then (s.set1 (Reg.PRT_ROGSTAT_SHORT n)).set1 Reg.PRT_ALRM_SHORT else s
    if (newO || newH) && s.flag (Reg.PRT_ROGCFG_CFB n) then
      let mask := s.rd (Reg.PRT_ROGCFG_PAIRS n)
      (maskPairs mask).foldl (fun s p => (s.set1 (Reg.LBR_PSTAT_CFLT p)).pairOff p) (s.firstIn 5 n mask s.nowQ)
    else s

/-- A write of PTEST (R295). -/
def State.polarityStart (s : State) : State :=
  (List.range 12).foldl (fun s n =>
    if s.flag (Reg.PRT_ROGCFG_EN n) then (s.putRog n { s.rog n with test := some (0, 0) }).set0 (Reg.PRT_ROGSTAT_PTDONE n) else s) s

/-- The polarity test of channel `n` has seen 16 edges (R295). -/
def State.polarityDone (s : State) (n : Nat) : State :=
  match (s.rog n).test with
  | some (k, neg) =>
    if k < 16 then s
    else
      let s := (s.putRog n { s.rog n with test := none }).set1 (Reg.PRT_ROGSTAT_PTDONE n)
      if 12 ≤ neg then (s.set1 (Reg.PRT_ROGSTAT_REV n)).set1 Reg.PRT_ALRM_REV else s
  | none => s

/-! ## Over-voltage controllers (R286, R287) -/

/-- The output of controller `c` becomes `on`; its CHOPPER pairs follow. -/
def State.ovOutput (s : State) (c : Nat) (on vov : Bool) : State :=
  let s := s.wr (Reg.PRT_OVSTAT_ON c) (if on then 1 else 0)
  (List.range 12).foldl (fun s p =>
    if (s.pair p).ovsel = c then s.chopper p on vov else s) s

/-- A disabled controller reads nothing and its output is off (R286). -/
def State.ovDisabled (s : State) (c : Nat) : State :=
  if s.flag (Reg.PRT_OVCFG_EN c) then s
  else
    let s := ((s.setBrg { s.brg with ovHad := spDel s.brg.ovHad c }).stopTimer (tmOvInv c)).set0 (Reg.PRT_OVSTAT_VLIVE c)
    s.ovOutput c false false

/-- A new result of the channel of controller `c` (R286, R287). -/
def State.ovResult (s : State) (c : Nat) : State :=
  if s.works .prt = false then s
  else if s.flag (Reg.PRT_OVCFG_EN c) = false then s.ovDisabled c
  else
    let ch := s.rd (Reg.PRT_OVCFG_CH c)
    if s.flag (Reg.ACQ_CHVAL_VALID ch) = false then
      let s := (s.set1 (Reg.PRT_OVSTAT_CHVINV c)).set1 Reg.PRT_ALRM_CHVINV
      if s.timerOn (tmOvInv c) then s else s.startTimer (tmOvInv c)
    else
      let w := s.rd (Reg.ACQ_CHVAL_DATA ch)
      let v := signed 16 w
      let s := (s.stopTimer (tmOvInv c)).wr (Reg.PRT_OVSTAT_LAST c) w
      let von := signed 16 (s.rd (Reg.PRT_OVTHR_VON c))
      let voffW := signed 16 (s.rd (Reg.PRT_OVTHR_VOFF c))
      let s := if voffW < von then s else s.set1 Reg.PRT_ALRM_CFGERR
      let voff := if voffW < von then voffW else von - 0x40
      let reached := decide (signed 16 (s.rd (Reg.PRT_OVLVL_VOV c)) ≤ v)
      let first := (spFind s.brg.ovHad c).isNone || !s.flag (Reg.PRT_OVSTAT_VLIVE c)
      let s := s.setBrg { s.brg with ovHad := spPut s.brg.ovHad c 1 }
      let s := s.wr (Reg.PRT_OVSTAT_VLIVE c) (if reached then 1 else 0)
      let on := if reached || decide (von ≤ v) then true else if v ≤ voff then false else s.flag (Reg.PRT_OVSTAT_ON c)
      let s := s.ovOutput c on reached
      if reached && first then
        let mask := ((List.range 12).map (fun p =>
          if s.flag (Reg.LBR_PCFG_PEN p) ∧ s.rd (Reg.LBR_PCFG_MODE p) = 3 ∧ s.rd (Reg.LBR_PCFG_OVSEL p) = c then 2 ^ p else 0)).foldl (· + ·) 0
        let s := ((s.set1 (Reg.PRT_OVSTAT_OVTRIP c)).set1 Reg.PRT_ALRM_OVTRIP).firstIn 4 c mask s.nowQ
        if s.flag (Reg.PRT_OVCFG_ACT c) then s.trip Reg.SUP_TRIP_OV else s
      else s

/-- The channel of controller `c` has been invalid for 100 us (R287). -/
def State.ovInvalid (s : State) (c : Nat) : State :=
  if s.timerOn (tmOvInv c) && s.flag (Reg.PRT_OVCFG_EN c) && s.works .prt then
    let s := s.expire (tmOvInv c) (ticksUs 100)
    if s.flag (Reg.ACQ_CHVAL_VALID (s.rd (Reg.PRT_OVCFG_CH c))) then s else s.ovOutput c (s.flag (Reg.PRT_OVCFG_FS c)) false
  else s

/-- The protection registers have been rewritten, `old` being the state before: the fault inputs and the controllers are judged anew
(R280, R286). -/
def State.protNew (s old : State) : State :=
  (List.range 2).foldl State.ovDisabled ((List.range 4).foldl (fun s n => s.faultJudge n (old.faultActs n)) s)

/-! ## Meanings -/

/-- FAULT_INPUT_ACTIVE (R280). -/
def execFaultInputActive (n : FaultPin) (s : State) : Result := done (s.faultPin n.input true n.steps)

/-- FAULT_INPUT_INACTIVE (R281). -/
def execFaultInputInactive (n : FaultPin) (s : State) : Result := done (s.faultPin n.input false n.steps)

/-- ROG_DETECTION (R290). -/
def execRogDetection (n : Fin 12) (soft hard : Bool) (s : State) : Result := done (s.rogChange n soft hard)

/-- ROG_BLANK_END (R288). -/
def execRogBlankEnd (n : Fin 12) (s : State) : Result := done (s.blankEnd n)

/-- ROG_SOFT_STAGE_START (R291). -/
def execRogSoftStageStart (p : Fin 12) (s : State) : Result := done (s.softStart p)

/-- ROG_SOFT_STAGE_END (R290). -/
def execRogSoftStageEnd (p : Fin 12) (s : State) : Result := done (s.softEnd p)

/-- ROG_THRESHOLD_UPDATE (R288): the written thresholds take effect. -/
def execRogThresholdUpdate (n : Fin 12) (s : State) : Result :=
  done (s.putRog n { s.rog n with hard := s.rd (Reg.PRT_ROGTHR_HARD n), soft := s.rd (Reg.PRT_ROGTHR_SOFT n) })

/-- COIL_CHECK (R294). -/
def execCoilCheck (n : Fin 12) (vb : BitVec 16) (s : State) : Result := done (s.coilCheck n vb.toNat)

/-- POLARITY_TEST_START (R295). -/
def execPolarityTestStart (m : Master) (s : State) : Result := done (s.gate m true 0x47010000 (fun s => s.polarityStart))

/-- POLARITY_TEST_DONE (R295). -/
def execPolarityTestDone (n : Fin 12) (s : State) : Result := done (s.polarityDone n)

/-- OV_CONTROLLER_RESULT (R286). -/
def execOvControllerResult (c : Fin 2) (s : State) : Result := done (s.ovResult c)

/-- OV_INVALID_TIMEOUT (R287). -/
def execOvInvalidTimeout (c : Fin 2) (s : State) : Result := done (s.ovInvalid c)

/-- FICLR (R292). -/
def execFiclr (m : Master) (s : State) : Result := done (s.gate m true 0x47010000 (fun s => s.firstInClear))

end Sys2Proof.Machine
end

