-- ==== Sys2Proof/Machine/Inhibit.lean ====
section
/-! DEFINITION. The safety block (10, R298 to R317): inputs and demand, outputs and reset events, the internal inhibit, test pulses and
read-back, the integrity checks, and the dual-network path. -/

namespace Sys2Proof.Machine

def tmDisc (n : Nat) : Nat := 430 + n
def tmSafCrc : Nat := 440

/-! ## Inputs (R298 to R301) -/

/-- Whether a channel of an input pair of type `ty` at level `l` shows demand. -/
def chanDemand (ty : Nat) (b l : Bool) : Bool :=
  match ty with
  | 0 => false
  | 2 => if b then l else !l
  | 3 => l
  | _ => !l

/-- The demand states of the two channels of pair `n`. -/
def State.safChans (s : State) (n : Nat) : Bool × Bool :=
  let ty := s.rd (Reg.SAF_INCFG_TYPE n)
  (chanDemand ty false (s.flag (Reg.SAF_INSTAT_ALIVE n)), chanDemand ty true (s.flag (Reg.SAF_INSTAT_BLIVE n)))

/-- Whether the channels of pair `n` disagree. -/
def State.safDisagree (s : State) (n : Nat) : Bool := (s.safChans n).1 != (s.safChans n).2

/-- The discrepancy time of pair `n` runs while its channels disagree (R300). -/
def State.discWatch (s : State) (n : Nat) : State :=
  if s.safDisagree n then (if s.timerOn (tmDisc n) then s else s.startTimer (tmDisc n)) else s.stopTimer (tmDisc n)

/-- SAF_ evaluates: it works, from the end of BOOT onwards (R305). -/
def State.safOn (s : State) : Bool := s.works .saf && s.mode != mHibernate && s.mode != mBoot

/-- A filtered level of a channel changes (R299): the discrepancy time runs while the channels disagree (R300), and the time for which both
channels of a RESET pair are high is taken (R304). -/
def State.safLevel (s : State) (n : Nat) (b level : Bool) : State :=
  if s.regionOn .grd = false then s
  else
    let s := s.wr (if b then Reg.SAF_INSTAT_BLIVE n else Reg.SAF_INSTAT_ALIVE n) (if level then 1 else 0)
    let s := s.discWatch n
    let both := s.flag (Reg.SAF_INSTAT_ALIVE n) && s.flag (Reg.SAF_INSTAT_BLIVE n)
    match both, spFind s.saf.highSince n with
    | true, none => s.setSaf { s.saf with highSince := spPut s.saf.highSince n s.clk.ticks, highDur := spDel s.saf.highDur n }
    | false, some t => s.setSaf { s.saf with highSince := spDel s.saf.highSince n, highDur := spPut s.saf.highDur n (s.clk.ticks - t) }
    | _, _ => s

/-- The discrepancy time of pair `n` passes (R300): the scan at or after its end records the discrepancy, where the channels still
disagree then. -/
def State.discrepancy (s : State) (n : Nat) : State :=
  match spFind s.clk.timers (tmDisc n) with
  | some t => if s.safOn then s.elapseTo (t + ticksMs (s.rd (Reg.SAF_INCFG_DISC n))) else s
  | none => s

/-- A scan records the discrepancy of pair `n` once its time has passed (R300). -/
def State.scanDiscrepancy (s : State) (n : Nat) : State :=
  if s.timerOn (tmDisc n) && s.safDisagree n && decide (ticksMs (s.rd (Reg.SAF_INCFG_DISC n)) ≤ s.timerAge (tmDisc n)) then
    let s := (((s.stopTimer (tmDisc n)).set1 (Reg.SAF_INSTAT_DISCL n)).set1 Reg.SAF_ALRM_DISCERR)
    s.setSaf { s.saf with cycleSeen := spDel s.saf.cycleSeen n }
  else s

/-- The restart cycle that ends DISCL (R301): both channels in demand together, then both in non-demand together. -/
def State.restartCycle (s : State) (n : Nat) : State :=
  if s.flag (Reg.SAF_INSTAT_DISCL n) = false then s
  else
    let c := s.safChans n
    if c.1 && c.2 then s.setSaf { s.saf with cycleSeen := spPut s.saf.cycleSeen n 1 }
    else if !c.1 && !c.2 && (spFind s.saf.cycleSeen n).isSome then
      (s.setSaf { s.saf with cycleSeen := spDel s.saf.cycleSeen n }).set0 (Reg.SAF_INSTAT_DISCL n)
    else s

/-- The demand of pair `n` becomes `d`; an entry is counted and sets DEMAND. -/
def State.putDemand (s : State) (n : Nat) (d : Bool) : State :=
  let was := s.flag (Reg.SAF_INSTAT_DEM n)
  let s := s.wr (Reg.SAF_INSTAT_DEM n) (if d then 1 else 0)
  if d && !was then ((s.addSat (Reg.SAF_INSTAT_DEMCNT n) 1).set1 Reg.SAF_ALRM_DEMAND).castEvent 1 else s

/-- Evaluate input pair `n` at a scan (R298, R300, R301); a RESET pair has no demand of its own. -/
def State.scanInput (s : State) (n : Nat) : State :=
  let s := (s.scanDiscrepancy n).restartCycle n
  let c := s.safChans n
  let own := s.rd (Reg.SAF_INCFG_TYPE n) != 3 && (c.1 || c.2)
  s.putDemand n (own || s.flag (Reg.SAF_INSTAT_DISCL n))

/-- The release of a RESET pair (R304): whether it is a reset event; the time taken is used up. -/
def State.takeRelease (s : State) (n : Nat) : State :=
  match spFind s.saf.highDur n with
  | none => s
  | some d =>
    if s.flag (Reg.SAF_INSTAT_ALIVE n) || s.flag (Reg.SAF_INSTAT_BLIVE n) then s
    else
      let ok := s.rd (Reg.SAF_INCFG_TYPE n) = 3 && decide (ticksMs 100 ≤ d) && decide (d ≤ ticksMs 5000) && !s.flag (Reg.SAF_INSTAT_DISCL n)
      s.setSaf { s.saf with highDur := spDel s.saf.highDur n, rst := s.saf.rst || ok }

/-! ## The network input (R315) -/

/-- Whether the network path is evaluated in the present mode. -/
def State.netSafe (s : State) : Bool :=
  s.rd Reg.SAF_NETCFG_NETID != 0 && s.safOn
    && (s.mode = mIdle || s.mode = mPrecharge || s.mode = mReady || s.mode = mMaintenance || s.mode = mLockout)

/-- An accepted command acts (R304, R308, R315): 1 PERMIT, 2 DEMAND, 3 RESET, 4 PTEST. -/
def State.netCommand (s : State) (cmd : Nat) : State :=
  match cmd with
  | 1 => if s.netSafe then s.setSaf { s.saf with netDem := false, permit := some s.clk.ticks } else s
  | 2 => if s.netSafe then s.setSaf { s.saf with netDem := true } else s
  | 3 => s.setSaf { s.saf with rst := true }
  | 4 => s.setSaf { s.saf with ptest := true }
  | _ => s

/-- The accepted command first in line acts, where it is command `cmd`. -/
def State.takeCommand (s : State) (cmd : Nat) : State :=
  if s.saf.cmds.head? = some cmd then (s.setSaf { s.saf with cmds := s.saf.cmds.tail }).netCommand cmd else s

/-- NETTMO × 10 ms pass without a PERMIT (R315). -/
def State.netTimeout (s : State) : State :=
  match s.saf.permit with
  | none => s
  | some t =>
    if s.netSafe = false then s
    else
      let s := s.elapseTo (t + ticksMs (10 * s.rd Reg.SAF_NETCFG_NETTMO))
      let was := s.saf.netDem
      let s := s.setSaf { s.saf with permit := none, netDem := true }
      if was then s else s.set1 Reg.SAF_ALRM_NETTMO

/-- The copies of a network frame differ, or the second does not come in time (R314). -/
def State.netDiffers (s : State) : State :=
  let s := (s.set1 Reg.SAF_ALRM_NETDIFF).addSat Reg.SAF_NETSTAT_NDIFF 1
  s.setSaf { s.saf with copy := none, netDem := true }

/-- CMPWIN in ticks. -/
def State.compareWindow (s : State) : Nat := ticksMs (s.rd Reg.SAF_NETCFG_CMPWIN)

/-- The comparison window of the first copy ends (R314). -/
def State.compareTimeout (s : State) : State :=
  match s.saf.copy with
  | none => s
  | some c => if s.netSafe then (s.elapseTo (c.2.2 + s.compareWindow)).netDiffers else s

/-- Whether the payload of a network safety frame is one the device accepts (R313, R314), its SEQ apart. -/
def State.netFrameOk (s : State) (l : List Nat) : Bool :=
  l.getD 0 0 = 1 && decide (1 ≤ l.getD 1 0) && decide (l.getD 1 0 ≤ 4)
    && leNat (l.drop 2 |>.take 2) = s.rd Reg.SAF_NETCFG_NETID && leNat (l.drop 8 |>.take 4) = s.rd Reg.SAF_NETSRC_SRCID
    && leNat (l.drop 12 |>.take 4) = s.rd Reg.FRM_UNIT_UNITID && leNat (l.drop 16 |>.take 4) = crc32c (l.take 16)

/-- A network safety frame with this payload arrives on ETH6 (6) or ETH7 (7) (R313, R314). -/
def State.safFrame (s : State) (port : Nat) (payload : List Nat) : State :=
  let l := payload.take 20
  let reject := s.addSat Reg.SAF_NETSTAT_NDIFF 1
  if s.safOn = false ∨ s.rd Reg.SAF_NETCFG_NETID = 0 then s
  else if s.netSafe = false ∨ l.length < 20 then reject
  else if leNat (l.drop 4 |>.take 4) ≤ s.rd Reg.SAF_NETSEQ_SEQ then s
  else
    let s :=
      match s.saf.copy with
      | some c => if c.2.2 + s.compareWindow < s.clk.ticks then s.netDiffers else s
      | none => s
    let reject := s.addSat Reg.SAF_NETSTAT_NDIFF 1
    match s.saf.copy with
    | none => if s.netFrameOk l then s.setSaf { s.saf with copy := some (port, l, s.clk.ticks) } else reject
    | some c =>
      if c.1 = port then reject
      else if c.2.1 ≠ l then s.netDiffers
      else
        let s := (s.wr Reg.SAF_NETSEQ_SEQ (leNat (l.drop 4 |>.take 4))).addSat Reg.SAF_NETSTAT_NACC 1
        s.setSaf { s.saf with copy := none, cmds := s.saf.cmds ++ [l.getD 1 0] }

/-! ## Outputs and the internal inhibit (R303 to R306) -/

/-- Whether an input pair mapped to output pair `m` is in demand or has DISCL. -/
def State.outBlocked (s : State) (m : Nat) : Bool :=
  (List.range 9).any (fun n =>
    s.rdBit (Reg.SAF_INCFG_FUNC n) m && (s.flag (Reg.SAF_INSTAT_DEM n) || s.flag (Reg.SAF_INSTAT_DISCL n)))

/-- Whether output pair `m` may be energised, the reset event of a MANUAL pair apart (R303). -/
def State.outReady (s : State) (m : Nat) : Bool :=
  s.flag (Reg.SAF_OUTCFG_EN m) && s.safOn && !s.outBlocked m && !s.flag (Reg.SAF_OUTSTAT_FAULT m)

/-- Both channels of output pair `m` are switched off: a MANUAL pair waits for a reset event, and a pulse on it ends. -/
def State.outOff (s : State) (m : Nat) : State :=
  if s.flag (Reg.SAF_OUTSTAT_ON m) = false then s
  else
    let pulse := match s.saf.pulse with | some p => if p.1 / 2 = m then none else some p | none => none
    (s.set0 (Reg.SAF_OUTSTAT_ON m)).setSaf
      { s.saf with offAt := spPut s.saf.offAt m s.clk.ticks, manual := putBit s.saf.manual m false, pulse := pulse }

/-- Switch output pair `m` by the conditions of R303. -/
def State.switchOut (s : State) (m : Nat) : State :=
  if s.outReady m && (!s.flag (Reg.SAF_OUTCFG_RST m) || bitAt s.saf.manual m) then
    (if s.flag (Reg.SAF_OUTSTAT_ON m) then s
     else (s.set1 (Reg.SAF_OUTSTAT_ON m)).setSaf { s.saf with offAt := spDel s.saf.offAt m })
  else s.outOff m

/-- An active inhibit requests a trip to READY in PRECHARGE and the forming modes (R306); READY's forming requests do so when they are judged. -/
def State.inhibitTrip (s : State) : State :=
  if s.flag Reg.SAF_STAT_INH ∧ (s.mode = mPrecharge ∨ isForming s.mode) then s.trip Reg.SUP_TRIP_INHIBIT else s

/-- The internal inhibit follows the outputs (R306). While it is active the pairs of LBRMASK are off and their carries restart at 0, and in
PRECHARGE and the forming modes a trip is requested. -/
def State.inhibit (s : State) : State :=
  let mask := s.rd Reg.SAF_INHCFG_INHOUT
  let inh := !s.works .saf || (List.range 4).any (fun m => bitAt mask m && !s.flag (Reg.SAF_OUTSTAT_ON m))
  let s := s.wr Reg.SAF_STAT_INH (if inh then 1 else 0)
  if inh then
    ((maskPairs (s.rd Reg.SAF_INHCFG_LBRMASK)).foldl State.pairOff s).inhibitTrip
  else (List.range 12).foldl State.cutCount s

/-- Every output is off, and the inhibit active (R305, R311, R312). -/
def State.allOutsOff (s : State) : State := ((List.range 4).foldl State.outOff s).inhibit

/-- A reset event acts at its scan (R304): FAULT, and with it FKIND and XPART (log 79), is cleared where both channels read low, MANUAL pairs that are otherwise ready are enabled,
and a demand that it meets sets RSTREJ. -/
def State.resetEvent (s : State) : State :=
  if s.saf.rst = false then s
  else
    let s := s.setSaf { s.saf with rst := false }
    (List.range 4).foldl (fun s m =>
      let s :=
        if !s.flag (Reg.SAF_OUTSTAT_RBA m) && !s.flag (Reg.SAF_OUTSTAT_RBB m) then
          ((s.set0 (Reg.SAF_OUTSTAT_FAULT m)).wr (Reg.SAF_OUTSTAT_FKIND m) 0).wr (Reg.SAF_OUTSTAT_XPART m) 0
        else s
      let s := if s.outReady m && s.flag (Reg.SAF_OUTCFG_RST m) then s.setSaf { s.saf with manual := putBit s.saf.manual m true } else s
      if s.flag (Reg.SAF_OUTCFG_EN m) && s.outBlocked m then s.set1 Reg.SAF_ALRM_RSTREJ else s) s

/-- The read-back levels of the eight channels. -/
def State.putReadback (s : State) (rb : Nat) : State :=
  (List.range 4).foldl (fun s m =>
    (s.wr (Reg.SAF_OUTSTAT_RBA m) (rb / 2 ^ (2 * m) % 2)).wr (Reg.SAF_OUTSTAT_RBB m) (rb / 2 ^ (2 * m + 1) % 2)) s

/-! ## Test pulses and read-back (R308 to R310) -/

def fkStuckHi : Nat := 1
def fkStuckLo : Nat := 2
def fkXshort : Nat := 3

/-- A read-back fault of output pair `m` (R310). -/
def State.outFault (s : State) (m kind part : Nat) : State :=
  let s := (((s.outOff m).set1 (Reg.SAF_OUTSTAT_FAULT m)).wr (Reg.SAF_OUTSTAT_FKIND m) kind).wr (Reg.SAF_OUTSTAT_XPART m) part
  (s.set1 (if kind = fkStuckHi then Reg.SAF_ALRM_STUCKHI else if kind = fkStuckLo then Reg.SAF_ALRM_STUCKLO else Reg.SAF_ALRM_XSHORT)).inhibit

/-- The channels other than `c` that are energised and read low (R309). -/
def State.dragged (s : State) (c rb : Nat) : List Nat :=
  (List.range 8).filter (fun d => d ≠ c ∧ s.flag (Reg.SAF_OUTSTAT_ON (d / 2)) = true ∧ bitAt rb d = false)

/-- XSHORT: during the pulse of channel `c` the channels `low` read low (R309, R310). A channel that itself reads high at the end of its
pulse is STUCKHI, never XSHORT. -/
def State.crossShort (s : State) (c : Nat) (low : List Nat) (rb : Nat) : State :=
  low.foldl (fun s d => (if bitAt rb c then s else s.outFault (c / 2) fkXshort c).outFault (d / 2) fkXshort c) s

/-- The read-back levels `rb` are judged during a pulse (R309). -/
def State.pulseJudge (s : State) (rb : Nat) : State :=
  match s.saf.pulse with
  | some (c, _) => s.crossShort c (s.dragged c rb) 0
  | none => s

/-- A scan of the safety logic (R302 to R306, R309, R315). Without GRD no scan takes place, and the inhibit is active. -/
def State.safetyScan (s : State) (rb : Nat) : State :=
  if s.regionOn .grd = false then s.inhibitTrip
  else
    let s := s.elapseTo (s.saf.scan + ticksUs 10)
    let s := (s.setSaf { s.saf with scan := s.clk.ticks }).putReadback rb
    if s.safOn = false then (s.set0 Reg.SAF_STAT_NVACT).allOutsOff
    else
      let s := (s.saf.cmds.foldl State.netCommand s)
      let s := s.setSaf { s.saf with cmds := [] }
      let s := (List.range 8).foldl (fun s n => (s.scanInput n).takeRelease n) s
      let s := s.wr Reg.SAF_STAT_NVACT (if s.netSafe then 1 else 0)
      let s := if s.netSafe then s.putDemand 8 s.saf.netDem else if s.rd Reg.SAF_NETCFG_NETID = 0 then s.set0 (Reg.SAF_INSTAT_DEM 8) else s
      let s := (List.range 4).foldl State.switchOut (s.pulseJudge rb).resetEvent
      let s := if s.saf.ptest then s.setSaf { s.saf with cycle := s.clk.ticks, ptest := false } else s
      s.inhibit

/-- SAF_ starts: its scan and test cycle begin, the outputs that are off are driven off from now (R309), pairs that already disagree are timed
(R300), and the check of R317 comes every 100 ms. -/
def State.safStart (s : State) : State :=
  let off := (List.range 4).foldl (fun l m => if s.flag (Reg.SAF_OUTSTAT_ON m) then l else spPut l m s.clk.ticks) s.saf.offAt
  let s := s.setSaf { s.saf with scan := s.clk.ticks, cycle := s.clk.ticks, driven := true, offAt := off }
  (List.range 8).foldl State.discWatch (s.startTimer tmSafCrc)

/-- The level that channel `c` is driven to; `none` where the pins are undriven (R467, R468). -/
def State.soPin (s : State) (c : Nat) : Option Bool :=
  if s.regionOn .grd && s.saf.driven && s.mode != mBoot then
    some (s.flag (Reg.SAF_OUTSTAT_ON (c / 2)) && (match s.saf.pulse with | some p => p.1 != c | none => true))
  else none

/-- The slot of channel `c` in the test cycle comes (R308): an energised channel is switched off. -/
def State.pulseStart (s : State) (c : Nat) : State :=
  if s.safOn = false then s
  else
    let per := ticksMs (10 * s.rd Reg.SAF_TEST_TPER)
    let slot := s.saf.cycle + c * per / 8
    let due := if slot ≤ s.clk.ticks ∧ 0 < per then slot + (s.clk.ticks - slot + per - 1) / per * per else slot
    let s := s.elapseTo due
    if s.flag (Reg.SAF_OUTSTAT_ON (c / 2)) && s.flag (Reg.SAF_OUTCFG_TPEN (c / 2)) && s.saf.pulse = none then
      s.setSaf { s.saf with pulse := some (c, s.clk.ticks) }
    else s

/-- The test pulse ends with the read-back levels `rb` (R308 to R310). -/
def State.pulseDone (s : State) (rb : Nat) : State :=
  match s.saf.pulse with
  | none => s
  | some (c, t) =>
    let s := (s.elapseTo (t + ticksUs (s.rd Reg.SAF_TEST_TPW))).putReadback rb
    let low := s.dragged c rb
    let s := s.setSaf { s.saf with pulse := none, pulseEnd := spPut s.saf.pulseEnd c s.clk.ticks }
    let s := s.addSat (Reg.SAF_OUTSTAT_TESTCNT (c / 2)) 1
    let s := s.crossShort c low rb
    if bitAt rb c then s.outFault (c / 2) fkStuckHi 0 else s

/-- Channel `c` has read high for 500 us after its pair was switched off, or low for 100 us while it is energised, which during the pulse of
another channel is a cross-short (R309). -/
def State.readbackFault (s : State) (c : Nat) (high : Bool) : State :=
  let m := c / 2
  let rb := if c % 2 = 0 then Reg.SAF_OUTSTAT_RBA m else Reg.SAF_OUTSTAT_RBB m
  if s.safOn = false then s
  else if high then
    match spFind s.saf.offAt m with
    | none => s
    | some t => if s.flag (Reg.SAF_OUTSTAT_ON m) then s else ((s.elapseTo (t + ticksUs 500)).set1 rb).outFault m fkStuckHi 0
  else
    let own := match s.saf.pulse with | some p => p.1 = c | none => false
    let after := match spFind s.saf.pulseEnd c with | some t => decide (s.clk.ticks ≤ t + ticksUs 100) | none => false
    let s := if s.flag (Reg.SAF_OUTSTAT_ON m) then s.set0 rb else s
    match s.saf.pulse with
    | some (p, _) => if s.flag (Reg.SAF_OUTSTAT_ON m) && !own then s.crossShort p [c] 0 else s
    | none => if s.flag (Reg.SAF_OUTSTAT_ON m) && !after then s.outFault m fkStuckLo 0 else s

/-! ## Integrity (R311, R317) -/

/-- The fencing of PTP_, PRT_ or SAF_ is a class D error (R447). A fenced PRT_ lets no pair run (R271). -/
def State.fenceD (s : State) (b : Block) : State :=
  if s.regionOn (blockRegion b) = false ∨ s.fenced b then s
  else
    let s := s.wr (blockState b) stFenced
    let s := match b with | .saf => s.allOutsOff | .prt => s.pairsOff | _ => s
    (s.errorRec clsD (regionCode (blockRegion b)) (blockIndex b) kFence 0 0).classDError (regionCode (blockRegion b))

/-- SAF_ is fenced (R311): every output off, the inhibit active, and a class D error. -/
def State.safFence (s : State) (alarm : Fld) : State :=
  if s.regionOn .grd = false ∨ s.fenced .saf then s else (s.set1 alarm).fenceD .saf

/-- The body bytes 0x00 to 0x4B of the safety section, rebuilt from the registers (R316, R317). -/
def State.safImage (s : State) : List Nat :=
  let incfg (n : Nat) := s.rd (Reg.SAF_INCFG_TYPE n) * 2 ^ 30 + s.rd (Reg.SAF_INCFG_FILT n) * 2 ^ 25 + s.rd (Reg.SAF_INCFG_DISC n) * 2 ^ 16
    + s.rd (Reg.SAF_INCFG_FUNC n) * 2 ^ 8
  let outcfg (m : Nat) := s.rd (Reg.SAF_OUTCFG_EN m) * 2 ^ 31 + s.rd (Reg.SAF_OUTCFG_RST m) * 2 ^ 30 + s.rd (Reg.SAF_OUTCFG_TPEN m) * 2 ^ 29
  let words := [1, s.rd Reg.SAF_TEST_TPER * 2 ^ 16 + s.rd Reg.SAF_TEST_TPW,
      s.rd Reg.SAF_INHCFG_ALLBLK * 2 ^ 17 + s.rd Reg.SAF_INHCFG_INHOUT * 2 ^ 12 + s.rd Reg.SAF_INHCFG_LBRMASK,
      s.rd Reg.SAF_NETCFG_NETID * 2 ^ 16 + s.rd Reg.SAF_NETCFG_CMPWIN * 2 ^ 8 + s.rd Reg.SAF_NETCFG_NETTMO, s.rd Reg.SAF_NETSRC_SRCID]
    ++ (List.range 9).map incfg ++ (List.range 4).map outcfg ++ [0]
  words.flatMap (leBytes 4)

/-- The CRC of the safety section (R317). -/
def crc32Section (l : List Nat) : Nat := crc32With 0xEDB88320 l

/-- The check of R317, every 100 ms. -/
def State.safCrcCheck (s : State) : State :=
  if s.safOn = false then s
  else
    let s := (if s.timerOn tmSafCrc then s.expire tmSafCrc (ticksMs 100) else s).startTimer tmSafCrc
    let c := crc32Section s.safImage
    let s := s.wr Reg.SAF_CFGCRC_CRC c
    if c = s.saf.crc2 then s else s.safFence Reg.SAF_ALRM_CFGCRC

/-! ## Meanings -/

/-- SAFETY_INPUT_FILTERED (R299). -/
def execSafetyInputFiltered (n : Fin 8) (b level : Bool) (s : State) : Result := done (s.safLevel n b level)

/-- SAFETY_SCAN (R302). -/
def execSafetyScan (rb : BitVec 8) (s : State) : Result := done (s.safetyScan rb.toNat)

/-- DISCREPANCY_TIMEOUT (R300). -/
def execDiscrepancyTimeout (n : Fin 8) (s : State) : Result := done (s.discrepancy n)

/-- TEST_PULSE_START (R308). -/
def execTestPulseStart (c : Fin 8) (s : State) : Result := done (s.pulseStart c)

/-- TEST_PULSE_END (R308). -/
def execTestPulseEnd (rb : BitVec 8) (s : State) : Result := done (s.pulseDone rb.toNat)

/-- READBACK_TIMEOUT (R309). -/
def execReadbackTimeout (c : Fin 8) (high : Bool) (s : State) : Result := done (s.readbackFault c high)

/-- SAFETY_PTEST (R308): a new test cycle starts at the next scan. -/
def execSafetyPtest (m : Master) (s : State) : Result :=
  done (s.gate m true 0x47020000 (fun s => s.setSaf { s.saf with ptest := true }))

/-- SAFETY_COPY_MISMATCH (R311). -/
def execSafetyCopyMismatch (s : State) : Result := done (if s.safOn then s.safFence Reg.SAF_ALRM_INTERR else s)

/-- SAFETY_CFG_CRC_CHECK (R317). -/
def execSafetyCfgCrcCheck (s : State) : Result := done s.safCrcCheck

/-- SAFETY_COMPARE_TIMEOUT (R314). -/
def execSafetyCompareTimeout (s : State) : Result := done s.compareTimeout

/-- SAFETY_NET_PERMIT (R315). -/
def execSafetyNetPermit (s : State) : Result := done (s.takeCommand 1)

/-- SAFETY_NET_DEMAND (R315). -/
def execSafetyNetDemand (s : State) : Result := done (s.takeCommand 2)

/-- SAFETY_NET_RESET (R304). -/
def execSafetyNetReset (s : State) : Result := done (s.takeCommand 3)

/-- SAFETY_NET_PTEST (R308). -/
def execSafetyNetPtest (s : State) : Result := done (s.takeCommand 4)

/-- NETTMO (R315). -/
def execNettmo (s : State) : Result := done s.netTimeout

end Sys2Proof.Machine
end

