-- ==== Sys2Proof/Machine/Casting.lean ====
section
/-! DEFINITION. The Casting recorder (11, R320 to R337): rows, triggers, arming and re-arming, measurements, holding and releasing. -/

namespace Sys2Proof.Machine

/-- The states of a segment (R324). -/
def sgFree : Nat := 0
def sgArmed : Nat := 1
def sgPost : Nat := 2
def sgMeas : Nat := 3
def sgDone : Nat := 4
def sgHeld : Nat := 5

/-- NSEG in force: 0 behaves as 1, at most 4,096. -/
def State.nseg (s : State) : Nat := clampNat 1 4096 (s.rd Reg.CST_SEGCFG_NSEG)

/-- The capacity of a segment in rows (R323). -/
def State.segCap (s : State) : Nat := (s.rd Reg.CST_SEGCFG_SEGSZ * 1024 - 64) / 16

/-- Whether a write of EN = 1 is refused (R323). -/
def State.cstRefused (s : State) : Bool :=
  let rows := s.rd Reg.CST_LEN_PRE + s.rd Reg.CST_LEN_POST
  decide (12288 < s.nseg * s.rd Reg.CST_SEGCFG_SEGSZ) || decide (s.segCap < rows) || rows = 0

/-- The state of a segment. -/
def State.segState (s : State) (g : Nat) : Nat := s.rd (Reg.CST_SEG_STATE g)

/-- Change the state of a segment; NDONE counts the DONE ones (R335). -/
def State.putSeg (s : State) (g st : Nat) : State :=
  let n := s.rd Reg.CST_DONE_NDONE - (if s.segState g = sgDone then 1 else 0) + (if st = sgDone then 1 else 0)
  (s.wr (Reg.CST_SEG_STATE g) st).wr Reg.CST_DONE_NDONE n

/-! ## Rows (R320, R321) -/

/-- The DIG word (R320). -/
def State.castDig (s : State) : Nat :=
  ((List.range 4).map (fun n => s.rd (Reg.PRT_FLTSTAT_LIVE n) * 2 ^ n + (if (spFind s.ang.acpOn n).isSome then 2 ^ (4 + n) else 0))).foldl (· + ·) 0
    + s.rd Reg.SAF_STAT_INH * 2 ^ 8 + s.rd Reg.ANG_STAT_VALID * 2 ^ 9 + s.mode % 16 * 2 ^ 10

/-- The word of source word `src` (an image of CST_SRCk) at the row instant. -/
def State.castWord (s : State) (src : Nat) : Nat :=
  let i := src % 64
  if bitAt src 15 = false then 0
  else
    match src / 2 ^ 9 % 8 with
    | 1 => s.rd (Reg.ACQ_CHVAL_DATA i)
    | 2 => if i ≤ 16 then s.frm.out.getD i 0 else 0
    | 3 => if i ≤ 31 then spGet s.mod.given i 0 else 0
    | 4 => if i ≤ 47 then spGet s.mod.agg i 0 else 0
    | 5 => if i = 0 then s.castDig else 0
    | 6 => if i = 0 then (s.outAngle s.clk.ticks * 65536 / fxOne).toNat % 65536 else 0
    | _ => 0

/-- The image of CST_SRCk. -/
def State.castSrc (s : State) (k : Nat) : Nat :=
  s.rd (Reg.CST_SRC_EN k) * 2 ^ 15 + s.rd (Reg.CST_SRC_CLASS k) * 2 ^ 9 + s.rd (Reg.CST_SRC_INDEX k)

/-- DIV in force. -/
def State.castDiv (s : State) : Nat := clampNat 1 1000000 (s.rd Reg.CST_ROWCFG_DIV)

/-- Write the eight words of a row at row index `i` of a segment that starts at `base`, through the code of the array (R441). -/
def State.putRow (s : State) (base i : Nat) (ws : List Nat) : State :=
  (List.range 4).foldl (fun s k =>
    let a := base + 64 + 16 * i + 4 * k
    (s.memWrite a 4 (ws.getD (2 * k) 0 + 65536 * ws.getD (2 * k + 1) 0)).putUpset 2 ((a - 0x20000000) / 4) 0) s

/-! ## Arming (R326, R331) -/

/-- The segment to arm: the lowest FREE one, else with OVW the DONE one of lowest SEQ. -/
def State.segToArm (s : State) : Option Nat :=
  let all := List.range s.nseg
  match all.find? (fun g => s.segState g = sgFree) with
  | some g => some g
  | none =>
    if s.flag Reg.CST_CTRL_OVW then
      all.foldl (fun b g =>
        if s.segState g ≠ sgDone then b
        else match b with
          | none => some g
          | some h => if s.rd (Reg.CST_SEG_SEQ g) < s.rd (Reg.CST_SEG_SEQ h) then some g else b) none
    else none

/-- Whether casts are still requested. -/
def State.castWanted (s : State) : Bool := s.cst.cont || decide (0 < s.cst.left)

/-- Nothing is recorded after the tamper erase, and while the memory test runs on the capture array (R325). -/
def State.castQuiet (s : State) : Bool := s.cst.dead || bitAt s.bst.arrays 2

/-- Arm a segment for the next requested cast, or set NOSEG and wait for one (R326). -/
def State.castArm (s : State) : State :=
  if s.cst.cast.isSome ∨ s.castWanted = false ∨ s.works .cst = false ∨ s.castQuiet = true then s
  else
    match s.segToArm with
    | none => (s.set1 Reg.CST_ALRM_NOSEG).setCst { s.cst with await := true }
    | some g =>
      let frame := s.flag Reg.CST_ROWCFG_RATE
      let c : Cast :=
        { seg := g, base := 0x20000000 + g * s.rd Reg.CST_SEGCFG_SEGSZ * 1024, pre := s.rd Reg.CST_LEN_PRE, post := s.rd Reg.CST_LEN_POST,
          srcs := (List.range 8).map s.castSrc, frame := frame, rowNs := if frame then s.frameNs else s.castDiv * 20, rows := 0, trig := none, seq := 0,
          stamp := 0, preN := 0, postN := 0, start := 0, flags := 0, tkind := 0, measW := 0, hyst := 0, retrigN := 0, ended := 0 }
      ((s.putSeg g sgArmed).wr (Reg.CST_SEG_SEQ g) 0).setCst { s.cst with cast := some c, await := false, qual := 0 }

/-! ## Triggers (R328 to R330) -/

/-- One row of the edge detector: its new qualification, and whether it fires (R329). -/
def edgeStep (edge qual : Nat) (level hyst v : Int) : Nat × Bool :=
  let up := bitAt qual 0 && decide (level ≤ v)
  let down := bitAt qual 1 && decide (v ≤ level)
  let q0 := if up then false else bitAt qual 0
  let q1 := if down then false else bitAt qual 1
  let q0 := q0 || decide (v ≤ level - hyst)
  let q1 := q1 || decide (level + hyst ≤ v)
  let fires := (edge != 1 && up) || ((edge = 1 || edge = 2) && down)
  ((if q0 then 1 else 0) + (if q1 then 2 else 0), fires)

/-- Whether an event that has arrived is a trigger condition (R328). -/
def State.castEventHit (s : State) : Bool :=
  let src := s.rd Reg.CST_TRIG_TSRC
  let e := s.cst.evt
  (src = 2 && bitAt e 0) || (src = 3 && bitAt e 1) || (src = 4 && bitAt e 2) || bitAt e 3

/-- The trigger conditions at a row with these words: whether one holds, and whether SWTRIG is one of them; the events are used up. -/
def State.castTrigger (s : State) (ws : List Nat) : State × Bool × Bool :=
  let r := edgeStep (s.rd Reg.CST_TRIG_EDGE) s.cst.qual (signed 16 (s.rd Reg.CST_LEVEL_LEVEL)) (s.rd Reg.CST_LEVEL_HYST % 32768 : Nat)
    (signed 16 (ws.getD (s.rd Reg.CST_TRIG_TWORD) 0))
  (s.setCst { s.cst with qual := r.1, evt := 0 }, (s.rd Reg.CST_TRIG_TSRC = 1 && r.2) || s.castEventHit, bitAt s.cst.evt 3)

/-- A cast ends with `rows` rows written: its segment goes to MEAS with the fields of R327 (R333). -/
def State.castEnd (s : State) (c : Cast) (trunc : Bool) : State :=
  let t := c.trig.getD c.rows
  let preN := min c.pre t
  let q := s.cst.seq + 1
  let c := { c with seq := q, preN := preN, postN := c.rows - t, start := (t - preN) % max 1 (c.pre + c.post), ended := s.clk.ticks,
                    flags := putBit c.flags 0 trunc, measW := s.rd Reg.CST_TRIG_MEASW, hyst := s.rd Reg.CST_LEVEL_HYST % 32768 }
  let s := (s.putSeg c.seg sgMeas).wr (Reg.CST_SEG_SEQ c.seg) q
  s.setCst { s.cst with cast := none, meas := s.cst.meas ++ [c], left := s.cst.left - 1, await := true, seq := q }

/-- A trigger condition that holds while no cast records (R330, R331): lost in the gap, or counted in the header of the newest cast in
MEAS. -/
def State.castLost (s : State) : State :=
  if s.castWanted then (s.addSat Reg.CST_CNT_LOST 1).set1 Reg.CST_ALRM_LOST
  else
    match s.cst.meas.getLast? with
    | none => s
    | some c => s.setCst { s.cst with meas := s.cst.meas.dropLast ++ [{ c with flags := putBit c.flags 2 true, retrigN := min 65535 (c.retrigN + 1) }] }

/-- CST_ stops after its last unit (R45, R337). -/
def State.cstStopped (s : State) : State :=
  let n := min 65535 s.cst.left
  if s.cst.cont ∨ n = 0 then (s.wr (blockState .cst) stOff).wr (blockRemain .cst) 0
  else (s.wr (blockState .cst) stStopped).wr (blockRemain .cst) n

/-- A residue mismatch in word `k` of a row (R322, R38): RESERR, reported, and CST_ fenced with the cast closed where it is. -/
def State.fenceCst (s : State) (k : Nat) : State :=
  let s := (((s.set1 Reg.CST_ALRM_RESERR).resRecord .cst k).errorB .cst kResidue k 0).wr (blockState .cst) stFenced
  let s :=
    match s.cst.cast with
    | none => s
    | some c => s.castEnd { c with flags := putBit c.flags 1 true } true
  s.setCst { s.cst with left := 0, cont := false, await := false }

/-- RATE and the row period in ticks: those latched when the cast in progress was armed, else as written now (R326). -/
def State.rowGrid (s : State) : Bool × Nat :=
  match s.cst.cast with
  | some c => (c.frame, c.rowNs / 4)
  | none => (s.flag Reg.CST_ROWCFG_RATE, s.castDiv * 5)

/-- The instant of the next row passes; `none` where none is due (R321). -/
def State.rowInstant (s : State) : Option State :=
  if s.rowGrid.1 then
    (if s.cst.lastT0 = some s.frm.t0 then none
     else some ((s.elapseToDevice ((s.frm.t0 + 4500) % 2 ^ 32)).setCst { s.cst with lastT0 := some s.frm.t0 }))
  else
    let per := s.rowGrid.2
    let t := if s.cst.nextRow < s.clk.ticks then s.cst.nextRow + (s.clk.ticks - s.cst.nextRow + per - 1) / per * per else s.cst.nextRow
    let s := s.elapseTo t
    some (s.setCst { s.cst with nextRow := t + per })

/-- A row (R321 to R330). -/
def State.castRow (s : State) (bad : Option Nat) : State :=
  let busy := s.works .cst || (s.rd (blockState .cst) = stStopping && s.regionOn .acq)
  if busy = false ∨ s.castQuiet = true ∨ (s.cst.cast.isNone ∧ s.castWanted = false ∧ s.cst.meas = []) then s
  else
    match s.rowInstant with
    | none => s
    | some s =>
      match s.cst.cast with
      | none =>
        let r := s.castTrigger ((List.range 8).map (fun k => s.castWord (s.castSrc k)))
        if r.2.1 then r.1.castLost else r.1
      | some c =>
        let ws := c.srcs.map s.castWord
        let s := s.putRow c.base (c.rows % max 1 (c.pre + c.post)) ws
        let r := s.castTrigger ws
        let s := r.1
        let n := c.rows
        let c := { c with rows := n + 1 }
        let c :=
          if r.2.1 = false then c
          else if c.trig.isNone then
            { c with trig := some n, stamp := s.now + s.rd Reg.CST_TSHI_TSHI * 2 ^ 32, tkind := s.rd Reg.CST_TRIG_TSRC, flags := putBit c.flags 3 r.2.2 }
          else { c with flags := putBit c.flags 2 true, retrigN := min 65535 (c.retrigN + 1) }
        let s := if c.trig = some n then s.putSeg c.seg sgPost else s
        let ends := match c.trig with | some t => decide (t + c.post ≤ c.rows) | none => false
        let s := s.setCst { s.cst with cast := some c }
        match bad with
        | some k => s.fenceCst k
        | none => if ends then s.castEnd c false else s

/-! ## Measurements (R333) -/

/-- The words of `MEASW` over the kept rows, in time order, as signed values; a word that cannot be read is a free value. -/
def State.castValues (s : State) (c : Cast) : State × List Int :=
  let r := (List.range (c.preN + c.postN)).foldl (fun (x : State × List Int) i =>
    let a := c.base + 64 + 16 * ((c.start + i) % max 1 (c.pre + c.post)) + 2 * c.measW
    match x.1.readWord 2 (a / 4 * 4) with
    | (s, some w) => (s, signed 16 (w / 2 ^ (8 * (a % 4))) :: x.2)
    | (s, none) => (s.drawn, s.freeErr 32767 :: x.2)) (s, [])
  (r.1, r.2.reverse)

/-- The square root of `n / d`, rounded half to even. -/
def sqrtRound (n d : Nat) : Nat :=
  let r := natSqrt (n / d)
  let half := d * (4 * r * r + 4 * r + 1)
  if half < 4 * n ∨ (half = 4 * n ∧ r % 2 = 1) then r + 1 else r

/-- The crossings of 0 of a list of values with hysteresis: how many in either direction, and the instants of the positive ones as
(row, numerator, denominator) of the interpolation between the rows (R333), newest first. Between two rows of 0 the instant is
`tie` thousandths of a row (a free value). -/
def zeroCrossings (tie hyst : Int) (l : List Int) : Nat × List (Nat × Int × Int) :=
  let r := l.foldl (fun (x : (Nat × Nat × Int) × (Nat × List (Nat × Int × Int))) v =>
    let e := edgeStep 0 x.1.2.1 0 hyst v
    let f := edgeStep 1 x.1.2.1 0 hyst v
    let i := x.1.1
    let prev := x.1.2.2
    let n := x.2.1 + (if e.2 then 1 else 0) + (if f.2 then 1 else 0)
    ((i + 1, e.1, v), (n, if e.2 then (i - 1, if v = prev then tie else -prev, if v = prev then 1000 else v - prev) :: x.2.2 else x.2.2))) ((0, 0, 0), (0, []))
  r.2

/-- PERIOD in nanoseconds (R333). -/
def castPeriod (rowNs : Nat) (l : List (Nat × Int × Int)) : Nat :=
  match l with
  | [] => 0
  | b :: r =>
    match r.getLast? with
    | none => 0
    | some a =>
      let num : Int := ((b.1 : Int) * b.2.2 + b.2.1) * a.2.2 - ((a.1 : Int) * a.2.2 + a.2.1) * b.2.2
      (rhe (num * (rowNs : Nat)) (b.2.2 * a.2.2 * (r.length : Nat))).toNat

/-- The 64 bytes of the header of a measured cast (R334). -/
def castHeader (tie : Int) (c : Cast) (l : List Int) : List Nat :=
  let n := l.length
  let mn := l.foldl min 32767
  let mx := l.foldl max (-32768)
  let mean := if n = 0 then 0 else rhe (l.foldl (· + ·) 0) (n : Nat)
  let rms := if n = 0 then 0 else min 0x7FFF (sqrtRound (l.foldl (fun a v => a + v * v) 0).toNat n)
  let z := zeroCrossings tie (c.hyst : Nat) l
  leBytes 4 0x54534143 ++ leBytes 4 c.seq ++ leBytes 8 c.stamp ++ leBytes 4 c.rowNs ++ leBytes 2 c.preN ++ leBytes 2 c.postN ++ leBytes 2 c.start
    ++ [c.flags % 256, c.tkind % 256, c.measW % 256, 0] ++ leBytes 2 c.retrigN
    ++ leBytes 2 (pattern 16 mn) ++ leBytes 2 (pattern 16 mx) ++ leBytes 2 (pattern 16 mean) ++ leBytes 2 rms
    ++ leBytes 2 (rhe (mx - mn) 2).toNat ++ leBytes 2 (min 65535 z.1) ++ leBytes 4 (castPeriod c.rowNs z.2)
    ++ c.srcs.flatMap (leBytes 2)

/-- The next segment is armed after an end (R331); an event met in the gap is lost. Under TICK its rows start anew at the next ADC clock edge, so
that the first of them lies within the 1 µs of R331 of the re-arming, however long a row is (log 54). -/
def State.castRearm (s : State) : State :=
  if s.cst.await && s.cst.cast.isNone && s.castWanted then
    let t := s.setCst { s.cst with evt := 0, nextRow := (s.clk.ticks + 4) / 5 * 5 }
    (if s.castEventHit then t.castLost else t).castArm
  else s

/-- The measurement engine completes the oldest cast in MEAS (R333): 4 ns a row, the header, DONE. -/
def State.castMeasured (s : State) : State :=
  match s.cst.meas with
  | [] => s
  | c :: r =>
    if s.regionOn .acq = false ∨ s.castQuiet = true then s
    else
      let s := s.elapseTo (max c.ended s.cst.free + c.preN + c.postN)
      let v := s.castValues c
      let s := v.1.drawn
      let h := castHeader (v.1.freeUpTo 1000 : Nat) c v.2
      let s := (List.range 16).foldl (fun s i =>
        (s.memWrite (c.base + 4 * i) 4 (leNat (h.drop (4 * i) |>.take 4))).putUpset 2 ((c.base - 0x20000000) / 4 + i) 0) s
      let s := ((s.setCst { s.cst with meas := r, free := s.clk.ticks }).putSeg c.seg sgDone).wr Reg.CST_LAST_SEG c.seg
      let s := s.addSat Reg.CST_CNT_CASTS 1
      if s.rd (blockState .cst) = stStopping then (if s.cst.cast.isNone ∧ r = [] then s.cstStopped else s)
      else if s.cst.await ∧ s.segToArm.isSome then s.castRearm
      else s

/-! ## Commands (R326, R328, R335, R337) -/

/-- A write of ARM = 1 (R326): the casts requested, and the row grid where none was running. -/
def State.castRequest (s : State) (ncast : Nat) (ovw : Bool) : State :=
  let s := (s.wr Reg.CST_CTRL_NCAST ncast).wr Reg.CST_CTRL_OVW (if ovw then 1 else 0)
  if s.works .cst = false then s
  else
    let s := s.setCst { s.cst with left := ncast, cont := ncast = 0, evt := if s.cst.cast.isSome then s.cst.evt else 0,
                                   nextRow := if s.cst.cast.isSome then s.cst.nextRow else (s.clk.ticks + 4) / 5 * 5 }
    s.castArm

/-- A segment is freed; a recorder that waits for one arms it (R326). -/
def State.castRelease (s : State) (m : Master) (g : Nat) : State :=
  if g < s.nseg ∧ (s.segState g = sgDone ∨ s.segState g = sgHeld) then
    (s.putSeg g sgFree).castRearm
  else s.perr peState m 0x42020038

/-- A DONE segment becomes HELD (R335). -/
def State.castHold (s : State) (m : Master) (g : Nat) : State :=
  if g < s.nseg ∧ s.segState g = sgDone then s.putSeg g sgHeld else s.perr peState m 0x4202003C

/-- EN is cleared (R337): an ARMED segment is free at once; a cast in POST and the measurements complete. -/
def State.castStop (s : State) : State :=
  let s :=
    match s.cst.cast with
    | none => s
    | some c => if c.trig.isNone then (s.putSeg c.seg sgFree).setCst { s.cst with cast := none } else s
  let s := s.setCst { s.cst with await := false }
  if s.cst.cast.isNone ∧ s.cst.meas = [] then s.cstStopped else s.wr (blockState .cst) stStopping

/-- CST_ is enabled (R46, R323): from STOPPED_PENDING the outstanding casts go on, from OFF it starts afresh. -/
def State.castStart (s : State) (resume : Bool) : State :=
  let s := s.wr (blockRemain .cst) 0
  if resume then (s.setCst { s.cst with nextRow := (s.clk.ticks + 4) / 5 * 5 }).castArm
  else s.setCst { s.cst with left := 0, cont := false, await := false }

/-! ## Meanings -/

/-- CST_ROW (R321). -/
def execCstRow (bad : Option (Fin 8)) (s : State) : Result := done (s.castRow (bad.map (·.val)))

/-- CAST_REARM (R331). -/
def execCastRearm (s : State) : Result := done s.castRearm

/-- MEASUREMENT_COMPLETE (R333). -/
def execMeasurementComplete (s : State) : Result := done s.castMeasured

/-- CAST_ARM (R326). -/
def execCastArm (m : Master) (ncast : BitVec 12) (ovw : Bool) (s : State) : Result :=
  done (s.gate m true 0x42020000 (fun s => s.castRequest ncast.toNat ovw))

/-- SWTRIG (R328). -/
def execSwtrig (m : Master) (s : State) : Result := done (s.gate m true 0x42020000 (fun s => s.castEvent 3))

/-- CST_HOLD (R335). -/
def execCstHold (m : Master) (seg : BitVec 12) (s : State) : Result := done (s.gate m true 0x4202003C (fun s => s.castHold m seg.toNat))

/-- CST_REL (R335). -/
def execCstRel (m : Master) (seg : BitVec 12) (s : State) : Result := done (s.gate m true 0x42020038 (fun s => s.castRelease m seg.toNat))

end Sys2Proof.Machine
end

