-- ==== Sys2Proof/Machine/Modulate.lean ====
section
/-! DEFINITION. The modulator and the Rasp (06): telemetry and availability (R180 to R183), ranking (R187, R189), levels (R184 to R186),
selection (R190 to R192), carriers (R194), redundancy (R195) and the commands written (R196 to R198). -/

namespace Sys2Proof.Machine

/-! ## Submodules and arms -/

/-- The present submodules, by ascending global index. -/
def State.smPresent (s : State) : List Nat :=
  s.regs.filterMap (fun e =>
    if e.1 % 32 = 31 ∧ 0x44008000 ≤ e.1 / 32 ∧ e.1 / 32 < 0x44010000 ∧ e.2 = 1 then some ((e.1 / 32 - 0x44008000) / 4) else none)

/-- The present submodules of arm `a`. -/
def State.armMembers (s : State) (a : Nat) : List Nat := s.smPresent.filter (fun j => s.rd (Reg.MOD_SM_ARM j) = a)

/-- Whether a submodule type is a full bridge, and whether it has a battery (R176). -/
def typeFull (t : Nat) : Bool := t % 2 = 1
def typeBattery (t : Nat) : Bool := decide (2 ≤ t)

/-- Whether an arm mixes half- and full-bridge types (R193). -/
def State.armMixed (s : State) (a : Nat) : Bool :=
  let l := s.armMembers a
  l.any (fun j => typeFull (s.rd (Reg.MOD_SM_TYPE j))) && l.any (fun j => !typeFull (s.rd (Reg.MOD_SM_TYPE j)))

/-- MODE = CPS written, by a master or the loader, to an arm of mixed types stores NLPWM, with CFGERR (R193). -/
def State.cpsStored (s : State) (a : Nat) : State :=
  if s.rd (Reg.MOD_ARMCFG_MODE a) = 2 ∧ s.armMixed a then (s.wr (Reg.MOD_ARMCFG_MODE a) 1).set1 Reg.MOD_ALRM_CFGERR else s

/-- Arm `a` in the modulator. -/
def State.armMod (s : State) (a : Nat) : ArmMod := spGet s.mod.arms a ArmMod.reset

/-- Replace arm `a` in the modulator. -/
def State.putArm (s : State) (a : Nat) (x : ArmMod) : State := s.setMod { s.mod with arms := spPut s.mod.arms a x }

/-- The available submodules of arm `a`. -/
def State.armAvail (s : State) (a : Nat) : List Nat := (s.armMembers a).filter (fun j => s.flag (Reg.MOD_SM_AVAIL j))

/-- The Vcap and aux codes of a submodule as latched at the compute start (R187, R201). -/
def State.vcapOf (s : State) (j : Nat) : Int := match spFind s.mod.tel j with | some t => t.lvcap | none => 0
def State.auxOf (s : State) (j : Nat) : Int := match spFind s.mod.tel j with | some t => t.laux | none => 0

/-- The energy quantity of a submodule: Vcap, or for a battery submodule the state of charge (R183, R187). -/
def State.energyOf (s : State) (j : Nat) : Int :=
  if typeBattery (s.rd (Reg.MOD_SM_TYPE j)) then s.auxOf j else s.vcapOf j

/-- The temperature of a submodule: aux, or for a battery submodule its node point TPT in the point mirror. -/
def State.tempOf (s : State) (a j : Nat) : Int :=
  if typeBattery (s.rd (Reg.MOD_SM_TYPE j)) then signed 16 (s.memRead (0x30000000 + 4 * (j * 32 + s.lrd (Reg.RSP_AUX_TPT a))) 2)
  else s.auxOf j

/-! ## Availability (R180, R181) -/

/-- TELHOLD of a submodule's arm; 0 behaves as 1. -/
def State.telHold (s : State) (j : Nat) : Nat := max 1 (s.lrd (Reg.RSP_AUX_TELHOLD (s.rd (Reg.MOD_SM_ARM j))))

/-- Whether the telemetry of a submodule is older than TELHOLD frames; one that has never reported is. -/
def State.telOld (s : State) (j : Nat) : Bool :=
  match spFind s.mod.tel j with
  | some t => decide (s.telHold j < t.age)
  | none => true

/-- Whether a cause of unavailability other than FORCEOUT and BYPCMD holds (R180). -/
def State.smBad (s : State) (j : Nat) : Bool := s.flag (Reg.MOD_SM_BYPASSED j) || s.flag (Reg.MOD_SM_FAULTY j) || s.telOld j

/-- The judgement of one submodule at a compute start (R180, R181): its telemetry is latched and ages, and it is available or not. -/
def State.smJudge (s : State) (j : Nat) : State :=
  let s :=
    match spFind s.mod.tel j with
    | some t =>
      s.setMod { s.mod with tel := spPut s.mod.tel j { t with
        lvcap := t.vcap, laux := t.aux, age := if t.fresh then 0 else min (t.age + 1) 65535, fresh := false } }
    | none => s
  let out := s.lrd (Reg.MOD_SM_FORCEOUT j) = 1 || s.lrd (Reg.MOD_SM_BYPCMD j) = 1
  let was := s.flag (Reg.MOD_SM_AVAIL j)
  let now := !out && !s.smBad j
  let s := s.wr (Reg.MOD_SM_AVAIL j) (if now then 1 else 0)
  if was && s.smBad j then s.set1 Reg.MOD_ALRM_SMNEW else s

/-- The telemetry snapshot of a compute start. -/
def State.telSnapshot (s : State) : State := s.smPresent.foldl State.smJudge s

/-- Telemetry older than TELHOLD: STALE, and TELSTALE for a submodule that has reported (R181). -/
def State.telStale (s : State) (j : Nat) : State :=
  if s.flag (Reg.MOD_SM_PRESENT j) ∧ s.telOld j ∧ s.flag (Reg.MOD_SM_STALE j) = false then
    let s := s.set1 (Reg.MOD_SM_STALE j)
    if (spFind s.mod.tel j).isSome then s.set1 Reg.MOD_ALRM_TELSTALE else s
  else s

/-! ## Aggregates (R183) -/

def sumInt (l : List Int) : Int := l.foldl (· + ·) 0

/-- The mean of a list, rounded half to even and saturated; 0 of an empty list. -/
def meanQ15 (l : List Int) : Int := if l = [] then 0 else satInt 16 (rhe (sumInt l) (l.length : Nat))

/-- VSUM of an arm with the sum `v` of its Vcap codes: with no base voltage, for which the formula has no value, a free value. -/
def State.vsumWord (s : State) (a : Nat) (v : Int) : Nat :=
  let rfs := if s.lrd (Reg.MOD_ARMCFG_RFS a) = 1 then 4 else 2
  let den : Int := (rfs * s.rd Reg.FRM_VBASE_VBASE : Nat)
  if v = 0 then 0
  else if den = 0 then Config.freeNat s.free % 65536
  else pattern 16 (satInt 16 (rhe (v * (s.lrd (Reg.MOD_ARMVSM_VSMN a) * 1000 : Nat)) den))

/-- The aggregate words of one arm. -/
def State.aggArm (s : State) (a : Nat) : State :=
  let av := s.armAvail a
  let e := av.map s.energyOf
  let v := av.map s.vcapOf
  let mean := meanQ15 e
  let spread := match e with | [] => 0 | x :: r => satInt 16 (r.foldl max x - r.foldl min x)
  let words := [s.vsumWord a (sumInt v), pattern 16 mean, av.length, pattern 16 spread]
  let agg := words.zipIdx.foldl (fun m w => spSet m (4 * a + w.2) w.1 0) s.mod.agg
  let s := ((s.setMod { s.mod with agg := agg }).putArm a { s.armMod a with mean := mean, vmean := meanQ15 v }).drawn
  (s.wr (Reg.MOD_ARMAGG_MEAN a) (pattern 16 mean)).wr (Reg.MOD_ARMAGG_SPREAD a) (pattern 16 spread)

/-! ## Keys and ranking (R187, R189) -/

/-- The direction sign of an arm's current (R187). -/
def State.armSign (s : State) (a : Nat) (old : Int) : Int :=
  let i :=
    if s.lrd (Reg.MOD_ARMCFG_ISRC a) = 1 then (s.snapVal (s.lrd (Reg.MOD_ARMCFG_ICH a))).2
    else signed 16 (spGet s.mod.given (12 + a) 0)
  let d := signed 16 (s.lrd (Reg.MOD_ARMVSM_IDEAD a))
  if d ≤ i then 1 else if i ≤ -d then -1 else old

/-- The key of an available submodule before saturation (R187). -/
def State.smKey (s : State) (a j : Nat) (sg polR : Int) : Int :=
  let e := s.energyOf j - (s.armMod a).mean
  let ke := sg * (((s.lrd (Reg.RSP_WT_WE a) : Nat) : Int) * e / 4096)
  let hot := max 0 (s.tempOf a j - signed 16 (s.lrd (Reg.RSP_WS_TREF a)))
  let p := ((s.lrd (Reg.RSP_WT_WT a) : Nat) : Int) * hot / 4096
    + (s.lrd (Reg.RSP_WS_WS a) * s.rd (Reg.RSP_KEY_ACT j) / 4096 : Nat)
  let last := if s.mod.blocked then 0 else s.rd (Reg.MOD_SM_LAST j)
  if (last = 1 ∧ polR = 1) ∨ (last = 2 ∧ polR = -1) then ke - p else ke + p

/-- Insert into a list ascending by key and then by index. -/
def rankInsert (x : Int × Nat) : List (Int × Nat) → List (Int × Nat)
  | [] => [x]
  | y :: r => if x.1 < y.1 ∨ (x.1 = y.1 ∧ x.2 ≤ y.2) then x :: y :: r else y :: rankInsert x r

/-- The Rasp's work on one arm. -/
def State.raspArm (s : State) (a : Nat) : State :=
  let m := s.armMod a
  let polR := if s.mod.blocked then 1 else m.polR
  let sign := s.armSign a (if s.mod.blocked then 1 else m.signI)
  let av := s.armAvail a
  let keys := av.map (fun j => (s.smKey a j (sign * polR) polR, j))
  let ranked := keys.foldl (fun l k => rankInsert (satInt 16 k.1, k.2) l) []
  let s := (s.armMembers a).foldl (fun s j => s.wr (Reg.RSP_KEY_KEY j) 0x7FFF) s
  let s := ranked.foldl (fun s k => s.wr (Reg.RSP_KEY_KEY k.2) (pattern 16 k.1)) s
  let s := if keys.any (fun k => satInt 16 k.1 ≠ k.1) then s.set1 Reg.RSP_ALRM_KEYSAT else s
  s.putArm a { m with signI := sign, polR := polR, order := ranked.map Prod.snd }

/-- What MOD and the Rasp do at a compute start (R180, R183, R187, R189): snapshot, aggregates, ranking. MOD_ATIME is that compute start,
in a frame without modulation too (log 40). -/
def State.modFrameStart (s : State) : State :=
  if s.regionOn .mod = false then s
  else
    let s := s.telSnapshot.wr Reg.MOD_ATIME_ATIME s.frm.t0
    let s := (List.range 12).foldl State.aggArm s
    if s.works .rsp then
      ((((List.range 12).foldl State.raspArm s).cleanWords 7 (fun w => decide (24576 ≤ w))).wr Reg.RSP_TIME_DONE (s.freeUpTo 2400)).drawn
    else s

/-! ## Selection (R190) -/

/-- A candidate in priority order: submodule, key, whether it is in set I, and whether an exchange may move it. -/
structure Cand where
  j : Nat
  key : Int
  on : Bool
  free : Bool
  deriving DecidableEq, Repr

/-- Flip the first candidate that satisfies `p`. -/
def flipFirst (p : Cand → Bool) : List Cand → List Cand
  | [] => []
  | c :: r => if p c then { c with on := !c.on } :: r else c :: flipFirst p r

/-- Flip the last candidate that satisfies `p`. -/
def flipLast (p : Cand → Bool) (l : List Cand) : List Cand := (flipFirst p l.reverse).reverse

/-- Step 1: the count. -/
def selectCount (fuel n : Nat) (l : List Cand) : List Cand :=
  match fuel with
  | 0 => l
  | fuel + 1 =>
    let k := (l.filter Cand.on).length
    if k < n ∧ k < l.length then selectCount fuel n (flipFirst (fun c => !c.on) l)
    else if n < k then selectCount fuel n (flipLast Cand.on l)
    else l

/-- Step 2: exchanges, at most `fuel` of them. -/
def selectSwap (fuel : Nat) (band : Int) (swaps : Nat) (l : List Cand) : List Cand × Nat :=
  match fuel with
  | 0 => (l, swaps)
  | fuel + 1 =>
    match l.findIdx? (fun c => !c.on && c.free), l.reverse.findIdx? (fun c => c.on && c.free) with
    | some b, some ir =>
      let i := l.length - 1 - ir
      let far := match l[b]?, l[i]? with
        | some cb, some ci => decide (band < (ci.key - cb.key).natAbs)
        | _, _ => false
      if b < i ∧ far = true then
        selectSwap fuel band (swaps + 1) (flipLast (fun c => c.on && c.free) (flipFirst (fun c => !c.on && c.free) l))
      else (l, swaps)
    | _, _ => (l, swaps)

/-! ## Commands (R177, R191) -/

/-- A slot command: states S0, S1, S2, times t1 and t2, and the bypass request. -/
structure SmCmd where
  s0 : Nat
  s1 : Nat
  s2 : Nat
  t1 : Nat
  t2 : Nat
  byp : Bool
  deriving DecidableEq, Repr

/-- One state for the whole frame. -/
def SmCmd.hold (x : Nat) : SmCmd := { s0 := x, s1 := x, s2 := x, t1 := 0, t2 := 0, byp := false }

/-- The slot bits of a command: command byte, t1, t2. -/
def SmCmd.bits (c : SmCmd) : Nat := c.s0 + 4 * c.s1 + 16 * c.s2 + (if c.byp then 64 else 0) + c.t1 * 2 ^ 8 + c.t2 * 2 ^ 24

/-- The frame state of a command (R190): 0 bypassed, 1 INS_POS, 2 INS_NEG, 3 edged. -/
def SmCmd.frameState (c : SmCmd) : Nat := if c.s0 = c.s1 ∧ c.s1 = c.s2 then c.s0 else 3

/-- The state changes of a command from ending state `prev` (R188). -/
def SmCmd.transitions (c : SmCmd) (prev : Nat) : Nat :=
  (if c.s0 = prev then 0 else 1) + (if c.s1 = c.s0 then 0 else 1) + (if c.s2 = c.s1 then 0 else 1)

/-- Write the command of a submodule, with LAST, AGE and ACT (R188, R190); the count of its transitions. -/
def State.putCmd (s : State) (a j : Nat) (c : SmCmd) : State × Nat :=
  let prev := if s.mod.blocked then 0 else spGet s.mod.s2 j 0
  let last := if s.mod.blocked then 0 else s.rd (Reg.MOD_SM_LAST j)
  let n := c.transitions prev
  let act := s.rd (Reg.RSP_KEY_ACT j)
  let act := min 0xFFFF (act - act / 2 ^ s.lrd (Reg.RSP_BAND_DECAY a) + 1024 * n)
  let s := s.wr (Reg.MOD_SM_AGE j) (if c.frameState = last then min (s.rd (Reg.MOD_SM_AGE j) + 1) 0xFFFF else 0)
  let s := (s.wr (Reg.MOD_SM_LAST j) c.frameState).wr (Reg.RSP_KEY_ACT j) act
  (s.setMod { s.mod with cmds := spPut s.mod.cmds j c.bits, s2 := spSet s.mod.s2 j c.s2 0 }, n)

/-- The bypass request of an unavailable submodule (R182). -/
def State.bypReq (s : State) (a j : Nat) : Bool :=
  s.lrd (Reg.MOD_SM_BYPCMD j) = 1
    || (s.lrd (Reg.MOD_ARMCFG_BYPAUTO a) = 1 && s.flag (Reg.MOD_SM_FAULTY j) && !s.flag (Reg.MOD_SM_BYPASSED j))

/-! ## Level (R184 to R186) -/

/-- The level of an arm: polarity, magnitude in 1/65,536, and whether it was limited. -/
structure ArmLevel where
  pol : Int
  m : Int
  sat : Bool
  deriving DecidableEq, Repr

/-- The level of arm `a` from its reference word and carry (R184). -/
def State.armLevel (s : State) (a : Nat) (carry : Int) : ArmLevel :=
  let r := signed 16 (spGet s.mod.given a 0)
  let rfs : Int := if s.lrd (Reg.MOD_ARMCFG_RFS a) = 1 then 4 else 2
  let vb : Int := (s.rd Reg.FRM_VBASE_VBASE : Nat)
  let vsmn : Int := (s.lrd (Reg.MOD_ARMVSM_VSMN a) : Nat)
  let measured := s.lrd (Reg.MOD_ARMCFG_NORM a) = 0
  let den := if measured then 1000 * (s.armMod a).vmean * 2 * vsmn else 32768000 * vsmn
  let num := 65536 * r * rfs * vb
  let nreal := if den = 0 then 0 else (if den < 0 then -num / -den else num / den) + carry
  let pol : Int := if 0 ≤ nreal then 1 else -1
  let av := s.armAvail a
  let mmax : Int := ((if pol = 1 then av.length else (av.filter (fun j => typeFull (s.rd (Reg.MOD_SM_TYPE j)))).length) * 65536 : Nat)
  let m : Int := nreal.natAbs
  { pol := pol, m := min m mmax, sat := den = 0 || decide (mmax < m) }

/-- The whole-frame count, the pulse width (0: none) and the next carry under NLC and NLPWM (R185, R186). -/
def levelSplit (nlc : Bool) (l : ArmLevel) (minp : Int) : Nat × Nat × Int :=
  if nlc then (((l.m + 32768) / 65536).toNat, 0, 0)
  else
    let n := l.m / 65536
    let f := l.m % 65536
    if f = 0 then (n.toNat, 0, 0)
    else if f < minp then (n.toNat, 0, l.pol * f)
    else if 65536 - minp < f then ((n + 1).toNat, 0, -l.pol * (65536 - f))
    else (n.toNat, f.toNat, 0)

/-! ## Carrier-phase-shifted modulation (R194) -/

/-- The carrier period in force. -/
def State.cper (s : State) (a : Nat) : Nat :=
  let c := clampNat 2 4096 (s.lrd (Reg.MOD_ARMPWM_CPER a))
  c + c % 2

/-- The command of a carrier: `num / den` is mj from 0 to 1, `pos / n` the carrier position in frames at the frame's start, `cper` the
carrier period, `x` the inserted state, `minp` the least width. -/
def carrierCmd (num den : Int) (pos n cper : Int) (minp : Int) (x : Nat) : SmCmd :=
  -- positions in units of 1 / (2 * den * n) frames
  let unit := 2 * den * n
  let p := 2 * den * pos % (unit * cper)
  let up := num * cper * n
  let down := unit * cper - up
  let on0 := decide (p < up) || decide (down < p)
  let hit (y : Int) : List Int := [y - p, y - p + unit * cper].filter (fun d => decide (0 < d) && decide (d < unit))
  let offAt := if num = den ∨ num = 0 then [] else hit up
  let onAt := if num = 0 then [] else (if p = down then [0] else []) ++ (if num = den then [] else hit down)
  let t (d : Int) : Nat := min 65535 (rhe (65536 * d) unit).toNat
  let st (b : Bool) : Nat := if b then x else 0
  match offAt ++ onAt with
  | [] => SmCmd.hold (st on0)
  | [d] => { s0 := st on0, s1 := st !on0, s2 := st !on0, t1 := t d, t2 := t d, byp := false }
  | d :: e :: _ =>
    let lo := min d e
    let hi := max d e
    if minp * unit ≤ 65536 * (hi - lo) then { s0 := st on0, s1 := st !on0, s2 := st on0, t1 := t lo, t2 := t hi, byp := false }
    else SmCmd.hold (st on0)

/-! ## One arm -/

/-- The commands of arm `a` under NLC or NLPWM (R190, R191): per submodule, with the number of exchanges. -/
def State.selectArm (s : State) (a : Nat) (l : ArmLevel) (n f : Nat) : List (Nat × SmCmd) × Nat :=
  let m := s.armMod a
  let ins := if l.pol = 1 then 1 else 2
  let order := if l.pol = m.polR then m.order else m.order.reverse
  let dwell := s.lrd (Reg.RSP_BAND_DWELL a)
  let cands := (order.filter (fun j => l.pol = 1 || typeFull (s.rd (Reg.MOD_SM_TYPE j)))).map (fun j =>
    ({ j := j, key := signed 16 (s.rd (Reg.RSP_KEY_KEY j)), on := !s.mod.blocked && s.rd (Reg.MOD_SM_LAST j) = ins
       free := s.mod.blocked || decide (dwell ≤ s.rd (Reg.MOD_SM_AGE j)) } : Cand))
  let swmax := s.lrd (Reg.RSP_BAND_SWMAX a)
  let c1 := selectCount (cands.length + 1) n cands
  let c2 := selectSwap (if swmax = 255 then cands.length * cands.length + 1 else swmax) (s.lrd (Reg.RSP_BAND_BAND a) : Nat) 0 c1
  let pulse := if f = 0 then none else (c2.1.find? (fun c => !c.on)).map Cand.j
  let t1 := (65536 - f) / 2
  (c2.1.map (fun c =>
    (c.j, if c.on then SmCmd.hold ins
          else if pulse = some c.j then { s0 := 0, s1 := ins, s2 := 0, t1 := t1, t2 := t1 + f, byp := false }
          else SmCmd.hold 0)), c2.2)

/-- The commands of arm `a` under CPS (R194); with a negative level a half-bridge submodule stays in BYPASS (R177, R184). -/
def State.carrierArm (s : State) (a : Nat) (l : ArmLevel) (cnt : Nat) : List (Nat × SmCmd) :=
  let m := s.armMod a
  let all := s.armMembers a
  let nav : Int := ((s.armAvail a).length : Nat)
  let kb := signed 16 (s.lrd (Reg.RSP_AUX_KB a))
  let den := 1073741824 * nav
  (all.zipIdx.filter (fun ji => s.flag (Reg.MOD_SM_AVAIL ji.1))).map (fun ji =>
    let e := s.energyOf ji.1 - m.mean
    let num := clampInt 0 den (l.m * 16384 - m.signI * m.polR * kb * e * nav)
    let n : Int := (all.length : Nat)
    (ji.1, if l.pol = -1 ∧ typeFull (s.rd (Reg.MOD_SM_TYPE ji.1)) = false then SmCmd.hold 0
      else carrierCmd num den ((cnt : Nat) * n + (ji.2 : Nat) * (s.cper a : Nat)) n (s.cper a : Nat) (s.lrd (Reg.MOD_ARMPWM_MINP a) : Nat)
        (if l.pol = 1 then 1 else 2)))

/-- Redundancy and derating of an arm (R195). -/
def State.redundancy (s : State) (a n : Nat) : State :=
  let req := min 2048 (s.lrd (Reg.MOD_ARMRED_NREQ a))
  if req = 0 then s.wrBit Reg.MOD_ALRMARM_REDLOW a false
  else
    let low := decide (n < req)
    let s := if n ≤ min 2048 (s.lrd (Reg.MOD_ARMRED_NWARN a)) then s.set1 Reg.MOD_ALRM_REDWARN else s
    let s := s.wrBit Reg.MOD_ALRMARM_REDLOW a low
    let s := s.wr (Reg.MOD_ARMDER_DERATE a) (if low then min 0x7FFF (rhe ((n * 32768 : Nat) : Int) (req : Nat)).toNat else 0x7FFF)
    if low then
      let s := s.set1 Reg.MOD_ALRM_REDLOW
      if s.lrd (Reg.MOD_ARMCFG_REDACT a) = 1 then (s.set1 Reg.MOD_ALRM_REDTRIP).trip Reg.SUP_TRIP_REDTRIP else s
    else s

/-- One arm in a modulated frame. -/
def State.modulateArm (s : State) (a : Nat) : State :=
  let all := s.armMembers a
  if all = [] then s
  else
    let m := s.armMod a
    let mode := s.lrd (Reg.MOD_ARMCFG_MODE a)
    let cper := s.cper a
    let same := mode = m.mode && !s.mod.blocked
    let carry := if same && mode = 1 then m.carry else 0
    let cnt := if same && cper = m.cper then m.cnt % cper else 0
    let l := s.armLevel a carry
    let s := if l.sat then (s.set1 Reg.MOD_ALRM_LEVSAT).wrBit Reg.MOD_ALRMARM_LEVSAT a true else s
    let sp := if mode = 2 then (0, 0, 0) else levelSplit (mode != 1) l (s.lrd (Reg.MOD_ARMPWM_MINP a) : Nat)
    let sel := if mode = 2 then (s.carrierArm a l cnt, 0) else s.selectArm a l sp.1 sp.2.1
    let cmdOf (j : Nat) : SmCmd :=
      if s.flag (Reg.MOD_SM_AVAIL j) then (match sel.1.find? (fun e => e.1 = j) with | some e => e.2 | none => SmCmd.hold 0)
      else { SmCmd.hold 0 with byp := s.bypReq a j }
    let nins := (all.filter (fun j => (cmdOf j).frameState = 1 ∨ (cmdOf j).frameState = 2)).length
    let cmds := all.map (fun j => (j, cmdOf j))
    let r := cmds.foldl (fun (st : State × Nat) e => let p := st.1.putCmd a e.1 e.2; (p.1, st.2 + p.2)) (s, 0)
    let nav := (s.armAvail a).length
    let s := ((r.1.wr (Reg.MOD_ARMDER_TRANS a) (min r.2 0xFFFF)).wr (Reg.MOD_ARMSTAT_NAVAIL a) nav).wr (Reg.MOD_ARMSTAT_NINS a) nins
    let s := (s.wr (Reg.MOD_ARMSTAT_SWAPS a) (min sel.2 255)).wr (Reg.MOD_ARMLEV_FRAC a) sp.2.1
    let s := s.wr (Reg.MOD_ARMLEV_NLEV a) (pattern 16 (l.pol * (nins : Nat)))
    let s := s.putArm a { m with
      carry := sp.2.2, cnt := if mode = 2 then (cnt + 1) % cper else cnt, polR := l.pol, mode := mode, cper := cper }
    s.redundancy a nav

/-! ## The frame (R196 to R198) -/

/-- A fence of MOD_ or RSP_ (R198). -/
def State.fenceMod (s : State) (b : Block) (kind detail : Nat) : State :=
  let s := ((s.resRecord b detail).errorB b kind detail 0).wr (blockState b) stFenced
  (s.set1 (if b = .mod then Reg.MOD_ALRM_RESERR else Reg.RSP_ALRM_RESERR)).trip Reg.SUP_TRIP_MODFENCE

/-- An uncorrectable word of the command, state and key memories: RSP_ fences on its keys, MOD_ on the rest (R440), whether it runs or not
(log 87). -/
def State.modEcc (s : State) (b : Block) (kind : Nat) : State := if s.fenced b then s.errorB b kind 7 0 else s.fenceMod b kind 7

/-- Block `b` reads the words of array 7 from `lo`, one for each submodule that is present (log 95). -/
def State.modRead (s : State) (b : Block) (lo : Nat) : State :=
  if s.works b = false then s
  else
    let t := s.readWords 7 (fun w => decide (lo ≤ w) && decide (w < lo + 8192) && s.flag (Reg.MOD_SM_PRESENT (w - lo)))
    if t.2 = [] then t.1 else t.1.modEcc b kEcc

/-- Whether the modulator modulates in this frame (R196, R260); not in a first forming frame that a trip withdraws (R431). -/
def State.modulates (s : State) : Bool :=
  s.worksNow .mod && s.worksNow .rsp && s.frmComputes s.mode && s.flag Reg.FRM_STAT_FVALID && s.flag Reg.ARM_STAT_AVALID && !s.formingDropped

/-- A frame without modulation: the blocked command in every slot. -/
def State.blockAll (s : State) : State :=
  ((s.setMod { s.mod with cmds := [], blocked := true }).cleanWords 7 (fun w => decide (w < 16384))).set0 Reg.MOD_STAT_ACTIVE

/-- A residue that does not match in slot `bad` of MOD_ or RSP_ (R198). -/
def State.modCheck (s : State) (b : Block) (bad : Option Nat) : State :=
  match bad with
  | some j => if s.worksNow b then s.fenceMod b kResidue j else s
  | none => s

/-- The modulator's frame: residue checks and the reads of its state and of the keys first. -/
def State.modulatorFrame (s : State) (modBad rspBad : Option Nat) : State :=
  let s := ((((s.modCheck .mod modBad).modCheck .rsp rspBad).modRead .mod 16384).modRead .rsp 24576)
  if s.modulates then
    let s := ((List.range 12).foldl State.modulateArm s).cleanWords 7 (fun w => decide (w < 24576))
    let s := (s.setMod { s.mod with blocked := false }).wr Reg.MOD_ATIME_ATIME s.frm.t0
    if isForming s.mode then s.set1 Reg.MOD_STAT_ACTIVE
    else (s.setMod { s.mod with cmds := [] }).set0 Reg.MOD_STAT_ACTIVE
  else
    let inv := isForming s.mode && !s.formingDropped && s.worksNow .mod && !(s.flag Reg.FRM_STAT_FVALID && s.flag Reg.ARM_STAT_AVALID)
    (if inv then s.set1 Reg.MOD_ALRM_INVREF else s).blockAll

/-! ## Meanings -/

/-- MODULATOR_FRAME (R196). -/
def execModulatorFrame (modBad rspBad : Option (Fin 8192)) (s : State) : Result :=
  done (s.modulatorFrame (modBad.map Fin.val) (rspBad.map Fin.val))

/-- TELEMETRY_STALE (R181). -/
def execTelemetryStale (j : Fin 8192) (s : State) : Result := done (s.telStale j)

end Sys2Proof.Machine
end

