-- ==== Sys2Proof/Machine/Time.lean ====
section
/-! DEFINITION. Device time, second boundaries, time triggers, transmit stamps, launches and the transmit side of the Ethernet ports
(12). -/

namespace Sys2Proof.Machine

def tmPps : Nat := 340
def tmPpsIn : Nat := 341

/-! ## The clock (R344 to R347) -/

/-- A write of PTP_INCF commits both registers (R344). -/
def State.incfWrite (s : State) (m : Master) (v : Nat) : State :=
  s.gate m true 0x41010018 (fun s =>
    let s := s.wr Reg.PTP_INCF_INCF v
    s.commitInc s.mode (s.rd Reg.PTP_INC_INC * 2 ^ 32 + s.rd Reg.PTP_INCF_INCF))

/-- Move device time by `d` ns, with NEXT of every enabled class 1 trigger and the LTIME of every waiting launch (R346). -/
def State.moveTime (s : State) (d : Nat) : State :=
  let s := s.setClk { s.clk with time := (s.clk.time + d % 2 ^ 32 * 2 ^ 32) % 2 ^ 64 }
  let s := (List.range 16).foldl (fun s k =>
    if s.flag (Reg.PTP_TRGCFG_EN k) then s.addWrap (Reg.PTP_TRGNEXT_NEXT k) d else s) s
  s.setNet { s.net with launch := s.net.launch.map (fun e => (e.1, (e.2 + d) % 2 ^ 32)) }

/-- A write of PTP_TIME: accepted in IDLE only (R346). -/
def State.timeWrite (s : State) (m : Master) (v : Nat) : State :=
  s.gate m true 0x41010010 (fun s =>
    if s.mode = mIdle then s.moveTime (v + 2 ^ 32 - s.now) else s.perr peBusyMode m 0x41010010)

/-- Device time passes on to its next wrap (R347). -/
def State.toWrap (s : State) : State :=
  if s.regionOn .net ∧ 0 < s.clk.inc then s.elapse ((2 ^ 64 - s.clk.time + s.clk.inc - 1) / s.clk.inc) else s

/-- Device time reaches PTP_SECBASE (R348). -/
def State.secondBoundary (s : State) : State :=
  if s.regionOn .net = false then s
  else
    let b := s.rd Reg.PTP_SECBASE_SECBASE
    let s := s.elapseToDevice b
    let s := (s.wr Reg.PTP_SECBASE_SECBASE (b + 1000000000)).setNet { s.net with secLast := some b }
    if s.flag Reg.PTP_CTRL_PPSOEN then (s.startTimer tmPps).setNet { s.net with ppsOut := true } else s

/-- PPS_OUT falls after PPSW milliseconds; 0 behaves as 1 (R348). -/
def State.ppsEnd (s : State) : State :=
  if s.net.ppsOut then
    (s.expire tmPps (ticksMs (max 1 (s.rd Reg.PTP_PPSCFG_PPSW)))).setNet { s.net with ppsOut := false }
  else s

/-- A deglitched edge of PPS_IN (R349): stamped less the filter delay, unless within 100 ms of the previous accepted edge. -/
def State.ppsIn (s : State) (rising : Bool) : State :=
  if s.regionOn .net ∧ s.flag Reg.PTP_CTRL_PPSIEN ∧ rising = !s.flag Reg.PTP_CTRL_PPSIPOL
      ∧ ¬ (s.timerOn tmPpsIn ∧ s.timerAge tmPpsIn < ticksMs 100) then
    ((s.wr Reg.PTP_PPSIN_TIME (s.now + 2 ^ 32 - 100)).set1 Reg.PTP_ALRM_PPSIN).startTimer tmPpsIn
  else s

/-! ## Class 1 triggers (R354) -/

/-- A firing of trigger `k`: time passes to its NEXT; it is counted, and NEXT advances by its period, or it is disabled (R354). -/
def State.triggerFire (s : State) (k : Nat) : State :=
  let next := s.rd (Reg.PTP_TRGNEXT_NEXT k)
  let s := (s.elapseToDevice next).addWrap (Reg.PTP_TRGSTAT_FIRED k) 1
  let p := s.rd (Reg.PTP_TRGCFG_PERIOD k) * 4
  if p = 0 then s.set0 (Reg.PTP_TRGCFG_EN k)
  else
    let late := diff32 s.now (next + p)
    if late < 0 then s.wr (Reg.PTP_TRGNEXT_NEXT k) (next + p)
    else
      let skip := late.toNat / p + 1
      ((s.wr (Reg.PTP_TRGNEXT_NEXT k) (next + p + skip * p)).addSat (Reg.PTP_TRGSTAT_TRGSKIP k) skip).set1 Reg.PTP_ALRM_TRGLATE

/-- What a firing of trigger `k` starts: the sequencers that name it, the serial word, and the DMA channels it paces (R60, R84, R376). -/
def State.triggerStarts (s : State) (k : Nat) : State :=
  ((s.seqTriggers 3 (some k)).sawSelect k).dmaTrigger k

/-! ## Transmit stamps (R350 to R352) -/

/-- Replace the transmit stamp queue; TXQN follows. -/
def State.putTxq (s : State) (l : List TxStamp) : State := (s.setNet { s.net with txq := l }).wr Reg.PTP_STAT_TXQN l.length

/-- A stamp enters the queue; a full queue loses it (R351). -/
def State.pushStamp (s : State) (x : TxStamp) : State :=
  if 16 ≤ s.net.txq.length then (s.set1 Reg.PTP_ALRM_TXQOVF).addSat Reg.PTP_TXQHEAD_LOSTCNT 1 else s.putTxq (s.net.txq ++ [x])

/-- A read of PTP_TXQHEAD (R351). -/
def State.txqRead (s : State) (m : Master) : State :=
  s.gate m false 0x41010030 (fun s =>
    let lost := s.rd Reg.PTP_TXQHEAD_LOSTCNT * 2 ^ 16
    match s.net.txq with
    | [] => s.answer m lost
    | x :: r =>
      (((s.putTxq r).wr Reg.PTP_TXQTIME_PORT x.port).wr Reg.PTP_TXQSTAMP_TIME x.stamp).answer m (2 ^ 31 + lost + x.tsid % 2 ^ 16))

/-- The big-endian value of `n` bytes of `l` from index `i`. -/
def beRead (l : List Nat) (i n : Nat) : Nat :=
  match n with
  | 0 => 0
  | n + 1 => beRead l i n * 256 + l.getD (i + n) 0

/-- `l` with `n` bytes from index `i` replaced by the big-endian value `v`. -/
def beWrite (l : List Nat) (i n v : Nat) : List Nat :=
  match n with
  | 0 => l
  | n + 1 => beWrite (l.set (i + n) (v % 256)) i n (v / 256)

/-- Pad a frame to 60 bytes (R342). -/
def padFrame (l : List Nat) : List Nat := l ++ List.replicate (60 - l.length) 0

/-- The transmit stamp of a frame whose delimiter now passes the PCS (R350): device time plus TXLAT, to 2 ns (a free error). The delimiter of a
frame launched on time passes at the first MAC clock edge at or after LTIME + TXLAT, and its stamp, to 2 ns of that passage less TXLAT, lies within
8 ns after LTIME (R356; free values, log 88). -/
def State.txStamp (s : State) (p : Nat) (f : TxFrame) : State × Nat :=
  match f.launched with
  | none => (s.drawn, pattern 32 ((s.now + s.rd (Reg.NET_LAT_TXLAT p) : Nat) + s.freeErr 2))
  | some t =>
    let u := s.freeUpTo 7
    ((s.elapseToDevice ((t + s.rd (Reg.NET_LAT_TXLAT p) + u) % 2 ^ 32)).drawnBy 2,
      (t + (clampInt 0 8 ((u : Nat) + s.drawn.freeErr 2)).toNat) % 2 ^ 32)

/-- Whether port `p` drives its transmitter: enabled, it sends idles and negotiates before its link is up (R339); a frame in flight ends. -/
def State.portDrives (s : State) (p : Nat) : Bool :=
  (s.rd (blockEn .net) = 1 && (s.running .net || s.rd (blockState .net) = stStopped) && s.flag (Reg.NET_PCFG_PEN p)) || (spFind s.net.txCur p).isSome

/-- Whether port `p` sends: the MACs run from the end of BOOT, with NET_CTRL.EN and the port's PEN set (R343) and its link up. -/
def State.portSends (s : State) (p : Nat) : Bool :=
  s.rd (blockEn .net) = 1 && (s.running .net || s.rd (blockState .net) = stStopped) && s.regionOn .net && s.mode != mBoot && s.mode != mHibernate && s.flag (Reg.NET_PCFG_PEN p) && s.flag (Reg.NET_PSTAT_LINK p)

/-- The bytes a record with frame length `len` takes in a ring: head and frame, padded to a multiple of 4 (R341, R342). -/
def recordBytes (len : Nat) : Nat := 16 + (len + 3) / 4 * 4

/-- The words of the record at the head of port `p`'s transmit ring. -/
def State.txWords (s : State) (p : Nat) : List Nat :=
  let n := s.rd (Reg.NET_PCFG_TXRING p)
  s.ringWords n (recordBytes (bytesWord (s.ringBytes n 0 16) 0 % 65536))

/-- A record is taken from port `p`'s transmit ring and discarded with TXERR (R342). -/
def State.txDiscard (s : State) (p len : Nat) : State :=
  let n := s.rd (Reg.NET_PCFG_TXRING p)
  ((s.ringTake n (min (recordBytes len) (s.ringFill n))).addSat (Reg.NET_TXCNT_TXERR p) 1).set1 Reg.NET_ALRM_TXERR

/-- A block of NET reads its buffer's words of array 9 (log 95) through their code, and the buffer is free for what comes next: whether one was
uncorrectable (R440, R441). -/
def State.netRead (s : State) (p : Nat → Bool) : State × Bool :=
  let t := s.readWords 9 p
  (t.1.cleanWords 9 p, !t.2.isEmpty)

/-- Take the record at the head of port `p`'s transmit ring as the frame being sent, read through its code (R441) and the MAC's buffer (R440); one
that cannot be read is discarded (log 93). `launched` is LTIME of one launched on time. -/
def State.takeRecord (s : State) (p : Nat) (launched : Option Nat) : State :=
  let n := s.rd (Reg.NET_PCFG_TXRING p)
  let h := s.ringBytes n 0 16
  let len := bytesWord h 0 % 65536
  let readable := (s.txWords p).all (s.wordReadable 0)
  let t := ((s.txWords p).foldl (State.wordSeen 0) s).netRead (fun w => decide (w / 512 = 8 + p))
  let s := if t.2 then t.1.errorB .net kEcc 9 0 else t.1
  if readable = false ∨ t.2 = true then (s.txDiscard p len).setNet { s.net with launch := spDel s.net.launch p }
  else
  let f : TxFrame := { bytes := s.ringBytes n 16 len, flags := h.getD 2 0, tsid := bytesWord h 4 % 65536, tref := bytesWord h 12, cfofs := h.getD 3 0,
                       launched := launched }
  (s.ringTake n (recordBytes len)).setNet { s.net with txCur := spPut s.net.txCur p f, launch := spDel s.net.launch p }

/-- A launch that came due while a frame was being sent follows the end of that frame (R356). -/
def State.launchAfter (s : State) (p : Nat) : State :=
  match spFind s.net.launch p with
  | none => s
  | some t => if s.portSends p = true ∧ 0 ≤ diff32 s.now t then s.takeRecord p none else s

/-- The frame's delimiter passes the PCS and the frame leaves (R350 to R352): one-step correction, the stamp entry and the count follow. -/
def State.frameSent (s : State) (p : Nat) : State :=
  match spFind s.net.txCur p with
  | none => s
  | some f =>
    let x := s.txStamp p f
    let stamp := x.2
    let s := x.1
    let bytes := padFrame f.bytes
    let one := bitAt f.flags 2
    let ok := decide (14 ≤ f.cfofs) && decide (f.cfofs ≤ 120) && decide (f.cfofs + 8 ≤ f.bytes.length)
    let out := if one && ok then beWrite bytes f.cfofs 8 (pattern 64 (beRead bytes f.cfofs 8 + diff32 stamp f.tref * 65536)) else bytes
    let s := (s.setNet { s.net with txCur := spDel s.net.txCur p }).emit (.eth p out)
    let s := s.addSat (Reg.NET_TXCNT_TXOK p) 1
    let s := if one && !ok then (s.set1 Reg.PTP_ALRM_OSERR).set1 Reg.NET_ALRM_TXERR else s
    (if bitAt f.flags 0 then s.pushStamp ⟨f.tsid, p, stamp⟩ else s).launchAfter p

/-! ## Transmit records (R342, R343, R356) -/

/-- The port looks at the record at the head of its transmit ring (R342, R356): a malformed record is discarded, a launch record is held
until LTIME or discarded when that has passed, any other is sent once no frame is being sent. Nothing happens while a launch is held. -/
def State.txRecord (s : State) (p : Nat) : State :=
  let n := s.rd (Reg.NET_PCFG_TXRING p)
  let h := s.ringBytes n 0 16
  let len := bytesWord h 0 % 65536
  if s.portSends p = false ∨ (spFind s.net.launch p).isSome ∨ s.ringFill n < 16 then s
  else if len < 14 ∨ 1518 < len ∨ 8 ≤ h.getD 2 0 ∨ bytesWord h 4 / 65536 ≠ 0 then
    s.txDiscard p len
  else if s.ringFill n < recordBytes len then s
  else if bitAt (h.getD 2 0) 1 then
    (if 0 < diff32 s.now (bytesWord h 8) then
      ((s.ringTake n (recordBytes len)).addSat (Reg.NET_TXCNT_LLATE p) 1).set1 Reg.NET_ALRM_LAUNCHLATE
     else s.setNet { s.net with launch := spPut s.net.launch p (bytesWord h 8) })
  else if (spFind s.net.txCur p).isSome then s
  else s.takeRecord p none

/-- LTIME of the held record is reached (R356): the record is sent, or follows the frame still being sent. One that the port could not send at its
LTIME leaves when it can, and is stamped as any other frame (R350). -/
def State.launchReached (s : State) (p : Nat) : State :=
  match spFind s.net.launch p with
  | none => s
  | some t =>
    if s.portSends p = false then s
    else
      let late := decide (0 < diff32 s.now t)
      let s := s.elapseToDevice t
      if (spFind s.net.txCur p).isSome then s else s.takeRecord p (if late then none else some t)

/-- The link of port `p` comes up or goes down (R339). -/
def State.ethLink (s : State) (p : Nat) (up : Bool) : State :=
  if s.regionOn .net = false then s
  else
    let was := s.flag (Reg.NET_PSTAT_LINK p)
    let s := s.wr (Reg.NET_PSTAT_LINK p) (if up then 1 else 0)
    let s := s.wr (Reg.NET_PSTAT_ANDONE p) (if up && s.flag (Reg.NET_PCFG_ANEN p) then 1 else 0)
    if was = up then s else s.set1 Reg.NET_ALRM_LINKCHG

/-! ## PCIe link (R363, R385, R388, R392) -/

/-- The PCIe link is lost (R363): only the endpoint is reset, to D0 with nothing reported (R361, log 89); semaphores and mailboxes of the host are released. -/
def State.pcieLoss (s : State) : State :=
  let s := ((s.set0 Reg.NET_PCIE_LINKUP).wr Reg.NET_PCIE_SPEED 0).wr Reg.NET_PCIE_WIDTH 0
  let s := ((s.wr Reg.NET_PCIE_MSIV 0).set1 Reg.NET_ALRM_PCIEDOWN).setSup { s.sup with msiOn := false, msiOff := [] }
  (s.setNet { s.net with d3 := false, aer := 0 }).masterReset 0

/-- The PCIe link trains (R363). -/
def State.pcieUp (s : State) (speed width : Nat) : State :=
  if s.regionOn .net then ((s.set1 Reg.NET_PCIE_LINKUP).wr Reg.NET_PCIE_SPEED speed).wr Reg.NET_PCIE_WIDTH width else s

/-! ## Meanings -/

/-- ETH_TX_RECORD (R342). -/
def execEthTxRecord (p : Fin 8) (s : State) : Result := done (s.txRecord p)

/-- ETH_FRAME_SENT (R350 to R352). -/
def execEthFrameSent (p : Fin 8) (s : State) : Result := done (s.frameSent p)

/-- LAUNCH_TIME_REACHED (R356). -/
def execLaunchTimeReached (p : Fin 8) (s : State) : Result := done (s.launchReached p)

/-- ETH_LINK_CHANGE (R339). -/
def execEthLinkChange (p : Fin 8) (up : Bool) (s : State) : Result := done (s.ethLink p up)

/-- TXQHEAD_READ (R351). -/
def execTxqheadRead (m : Master) (s : State) : Result := done (s.txqRead m)

/-- PTP_INCF_WRITE (R344, R345). -/
def execPtpIncfWrite (m : Master) (v : Word) (s : State) : Result := done (s.incfWrite m v.toNat)

/-- PTP_TIME_WRITE (R346). -/
def execPtpTimeWrite (m : Master) (v : Word) (s : State) : Result := done (s.timeWrite m v.toNat)

/-- DEVICE_TIME_WRAP (R347). -/
def execDeviceTimeWrap (s : State) : Result := done s.toWrap

/-- SECOND_BOUNDARY (R348). -/
def execSecondBoundary (s : State) : Result := done s.secondBoundary

/-- PPS_PULSE_END (R348). -/
def execPpsPulseEnd (s : State) : Result := done s.ppsEnd

/-- PPS_IN_EDGE (R349). -/
def execPpsInEdge (rising : Bool) (s : State) : Result := done (s.ppsIn rising)

/-- PCIE_LINK_LOSS (R363). -/
def execPcieLinkLoss (s : State) : Result := done s.pcieLoss

/-- PCIE_LINK_UP (R363): Gen `speed + 1`, x1 or x2. -/
def execPcieLinkUp (speed : Fin 3) (width : Fin 2) (s : State) : Result := done (s.pcieUp (speed.val + 1) (width.val + 1))

end Sys2Proof.Machine
end

