-- ==== Sys2Proof/Machine/Mirror.lean ====
section
/-! DEFINITION. The mirror record of a WARM pair (R261 to R264): its words from the holder's states, and the states of the shadow from its
words. The order of the words within a part is the model's (log 23); each part and its size are the spec's. -/

namespace Sys2Proof.Machine

/-- A word of a quantity of `n` bits: its upper 32 bits, and the rest below. -/
def highWord (n : Nat) (x : Int) : Nat := pattern n x / 2 ^ (n - 32)
def lowWord (n : Nat) (x : Int) : Nat := pattern n x % 2 ^ (n - 32) * 2 ^ (64 - n)

/-- A timer as a word of `n` bits in units of `u` ticks: 0 when it does not run, else its age plus one at the compute start of the record,
4.5 microseconds before it is sent (R262). -/
def State.timerWord (s : State) (n u k : Nat) : Nat := if s.timerOn k then min ((s.timerAge k - 1125) / u + 1) (2 ^ n - 1) else 0

/-- Set a timer from its word, at the compute start after that of the record. -/
def State.timerFrom (s : State) (u k w : Nat) : State :=
  if w = 0 then s.stopTimer k
  else s.setClk { s.clk with timers := spPut s.clk.timers k (s.clk.ticks - (s.frameNs / 4 + (w - 1) * u)) }

/-- The timers that the record carries, a word each; those of R128 share a word, in units of 0.5 microseconds. -/
def mirTimers : List Nat := [tmDeadBus, tmSlot, tmJoin, tmRt, tmClose, tmGrid, tmNoArm]

/-- The word of a grid value with `b` fraction bits. -/
def gridWord (b : Nat) (x : Int) : Nat := pattern 32 (satInt 32 (fxTo b x))

/-- The 48 words of the FRM part. -/
def State.mirFrm (s : State) : List Nat :=
  let f := s.frm
  let th := fxTo 48 f.theta
  let w := fxTo 46 f.omega
  [highWord 48 th, lowWord 48 th, highWord 48 w, lowWord 48 w, gridWord 30 f.pm, gridWord 30 f.pf, gridWord 30 f.qf,
    gridWord 30 f.vm, gridWord 30 f.e, gridWord 30 f.x, gridWord 24 f.k, gridWord 28 f.psw,
    (if f.stage2 then 1 else 0) + f.s2ok * 2 + f.low * 2 ^ 8 + f.high * 2 ^ 16 + min f.noCur 255 * 2 ^ 24,
    s.rd Reg.FRM_SEQSTAT_SUB + s.rd Reg.FRM_SEQSTAT_ATTEMPT * 2 ^ 8 + f.rtFrom * 2 ^ 16, gridWord 30 f.dv]
    ++ mirTimers.map (s.timerWord 32 1)
    ++ [s.timerWord 16 125 tmIsAngle + s.timerWord 16 125 tmIsDead * 2 ^ 16,
        (if f.claim then 1 else 0) + (if f.fired then 2 else 0) + f.rampN % 2 ^ 30 * 2 ^ 2]
    ++ (List.range 8).flatMap (fun n => [gridWord 30 (s.prfCh n).y, gridWord 24 (s.prfCh n).r, gridWord 24 (s.prfCh n).a])

/-- The states of the FRM part from its words. -/
def State.mirFrmFrom (s : State) (w : List Nat) : State :=
  let i (k : Nat) : Int := signed 32 (w.getD k 0)
  let flags := w.getD 12 0
  let s := s.setFrm { s.frm with
    theta := fxFrom 48 (w.getD 0 0 * 2 ^ 16 + w.getD 1 0 / 2 ^ 16 : Nat), omega := fxFrom 46 (i 2 * 2 ^ 16 + (w.getD 3 0 / 2 ^ 16 : Nat))
    pm := fxFrom 30 (i 4), pf := fxFrom 30 (i 5), qf := fxFrom 30 (i 6), vm := fxFrom 30 (i 7), e := fxFrom 30 (i 8), x := fxFrom 30 (i 9), k := fxFrom 24 (i 10), psw := fxFrom 28 (i 11), stage2 := bitAt flags 0, s2ok := flags % 2 ^ 8 / 2,
    low := bitsOf flags 8 8, high := bitsOf flags 16 8, noCur := bitsOf flags 24 8, rtFrom := bitsOf (w.getD 13 0) 16 4, dv := fxFrom 30 (i 14),
    claim := bitAt (w.getD 23 0) 0, fired := bitAt (w.getD 23 0) 1, rampN := w.getD 23 0 / 4 }
  let s := (s.wr Reg.FRM_SEQSTAT_SUB (w.getD 13 0)).wr Reg.FRM_SEQSTAT_ATTEMPT (w.getD 13 0 / 2 ^ 8)
  let s := mirTimers.zipIdx.foldl (fun s t => s.timerFrom 1 t.1 (w.getD (15 + t.2) 0)) s
  let s := (s.timerFrom 125 tmIsAngle (w.getD 22 0 % 2 ^ 16)).timerFrom 125 tmIsDead (w.getD 22 0 / 2 ^ 16)
  (List.range 8).foldl (fun s n =>
    s.setPrf (spSet s.prf n { y := fxFrom 30 (i (24 + 3 * n)), r := fxFrom 24 (i (25 + 3 * n)), a := fxFrom 24 (i (26 + 3 * n)) } (PrfCh.reset n))) s

/-- The 20 words of the MOD part: carry and carrier count of each arm, sign_i, pol_r, and zeros. -/
def State.mirMod (s : State) : List Nat :=
  let arms := (List.range 12).map s.armMod
  let signs (f : ArmMod → Int) : Nat := (arms.zipIdx.map (fun a => if f a.1 = 1 then 2 ^ a.2 else 0)).foldl (· + ·) 0
  arms.map (fun a => pattern 20 a.carry + a.cnt % 4096 * 2 ^ 20) ++ [signs ArmMod.signI, signs ArmMod.polR] ++ List.replicate 6 0

def State.mirModFrom (s : State) (w : List Nat) : State :=
  (List.range 12).foldl (fun s a =>
    let x := w.getD a 0
    let sg (k : Nat) : Int := if bitAt (w.getD k 0) a then 1 else -1
    s.putArm a { s.armMod a with carry := signed 20 x, cnt := x / 2 ^ 20, signI := sg 12, polR := sg 13 }) s

/-- The submodules whose ACT a record of frame `frame` carries, in rotation (R261). -/
def actTurn (present : List Nat) (frame : Nat) : List Nat :=
  let n := present.length
  if n ≤ 512 then present else (List.range 512).map (fun i => present.getD ((frame * 512 + i) % n) 0)

/-- Group a list into chunks of `k`. -/
def chunks (fuel k : Nat) (l : List Nat) : List (List Nat) :=
  match fuel with
  | 0 => []
  | fuel + 1 => if l = [] then [] else l.take k :: chunks fuel k (l.drop k)

/-- Pack values of `b` bits, the first lowest. -/
def packBits (b : Nat) (l : List Nat) : Nat := l.foldr (fun x a => x % 2 ^ b + a * 2 ^ b) 0

/-- The words of an entry of the mirror list: tile + KIND x 2^8 + ADDR x 2^16 (R413). -/
def State.mirEntry (s : State) (e : Nat) : List Nat :=
  let t := e % 2 ^ 8
  let a := e / 2 ^ 16
  if bitsOf e 8 8 = 0 then [spGet s.arm.dat (1024 * t + a) 0]
  else let x := s.armAcc t a; [highWord 40 x, lowWord 40 x]

/-- All the words of the record of the present frame (R261). -/
def State.mirWords (s : State) : List Nat :=
  let present := s.smPresent
  let turn := actTurn present (s.rd Reg.MQT_LFRAME_NOW)
  s.mirFrm ++ s.mirMod ++ (chunks 512 16 (present.map (fun j => spGet s.mod.s2 j 0))).map (packBits 2)
    ++ (chunks 256 2 (turn.map (fun j => s.rd (Reg.RSP_KEY_ACT j)))).map (packBits 16) ++ s.mir.list.flatMap s.mirEntry

/-- Take the user words in the order of the list. -/
def State.mirUserFrom (s : State) (l w : List Nat) : State :=
  match l with
  | [] => s
  | e :: r =>
    let t := e % 2 ^ 8
    let a := e / 2 ^ 16
    if bitsOf e 8 8 = 0 then
      ((s.setArm { s.arm with dat := spSet s.arm.dat (1024 * t + a) (w.getD 0 0 % 65536) 0 }).putUpset 5 (1024 * t + a) 0).mirUserFrom r (w.drop 1)
    else
      (s.putAcc t a ((w.getD 0 0 * 2 ^ 8 + w.getD 1 0 / 2 ^ 24) % 2 ^ 40)).mirUserFrom r (w.drop 2)

/-- The shadow's states from the words of a record of frame `frame` (R262). -/
def State.mirApply (s : State) (frame : Nat) (w : List Nat) : State :=
  let present := s.smPresent
  let n := present.length
  let s := (s.mirFrmFrom (w.take 48)).mirModFrom ((w.drop 48).take 20)
  let sw := (w.drop 68).take ((n + 15) / 16)
  let s := present.zipIdx.foldl (fun s j =>
    s.setMod { s.mod with s2 := spSet s.mod.s2 j.1 (bitsOf (sw.getD (j.2 / 16) 0) (2 * (j.2 % 16)) 2) 0 }) s
  let turn := actTurn present frame
  let aw := (w.drop (68 + (n + 15) / 16)).take ((turn.length + 1) / 2)
  let s := turn.zipIdx.foldl (fun s j => s.wr (Reg.RSP_KEY_ACT j.1) (bitsOf (aw.getD (j.2 / 2) 0) (16 * (j.2 % 2)) 16)) s
  s.mirUserFrom s.mir.list (w.drop (68 + (n + 15) / 16 + (turn.length + 1) / 2))

/-- A record is missed (R263). -/
def State.mirMiss (s : State) : State :=
  let k := min (s.mir.missRun + 1) 4
  let s := (s.setMir { s.mir with missRun := k, missed := true }).addSat Reg.MIR_CNT_MISS 1
  if k = 4 then s.set1 Reg.MIR_ALRM_MISS else s

/-- What the pair judges anew at a frame start: ALIGNED falls where no partner frame has come for two frame periods (R258, log 50), and a
hand-over whose frame is past is void (R252). -/
def State.pairFrame (s : State) : State :=
  let past (f : Nat) : Nat := (s.rd Reg.MQT_LFRAME_NOW + 2 ^ 16 - f) % 2 ^ 16
  let hoIn := s.mir.hoIn.filter (fun f => past f = 0 || decide (2 ^ 15 ≤ past f))
  let s := s.setMir { s.mir with corrected := false, frameTick := s.clk.ticks, hoIn := hoIn }
  if s.mir.heard + 2 * s.frameNs / 4 < s.clk.ticks then s.set0 Reg.MIR_STAT_ALIGNED else s

/-- What the mirror does at a frame start (R262, R263): a WARM shadow applies the record kept, or counts it as missed. -/
def State.mirFrame (s : State) : State :=
  let s := s.pairFrame
  if s.rd Reg.MIR_CFG_PAIR = 1 ∧ s.mode = mShadow ∧ s.works .mir = true then
    let m := s.mir
    match m.keep with
    | some r =>
      let s := s.setMir { m with keep := none, missed := false, missRun := 0, recMode := if m.differs then m.recMode else some r.mode }
      if m.differs then s else s.mirApply r.frame.toNat (r.words.map BitVec.toNat)
    | none => if m.missed then s.setMir { m with missed := false } else let s := s.mirMiss; s.setMir { s.mir with missed := false }
  else s.setMir { s.mir with keep := none, missed := false }

/-- MIR_ reads its own buffer: an uncorrectable word fences it (R440). The shadow's stands at word 12288, the holder's at 14336 (log 95). -/
def State.mirRead (s : State) (k : Nat) : State × Bool :=
  let t := s.netRead (fun w => decide (w / 2048 = k))
  (if t.2 then (t.1.errorB .mir kEcc 9 0).wr (blockState .mir) stFenced else t.1, t.2)

/-- The lanes a record goes out on: both, or the one aligned when the record fits it in time (R245). -/
def State.recordLanes (s : State) : Nat :=
  let lanes := s.rd Reg.MIR_STAT_LANES
  if lanes = 3 then 3
  else if lanes ≠ 0 ∧ 256 + 36 * s.rd Reg.MIR_CFG_W ≤ 4 * (s.frameNs - 5500) then lanes else 0

/-- The WARM holder sends the record of the compute (R261, R262). -/
def State.recordSend (s : State) : State :=
  if s.rd Reg.MIR_CFG_PAIR = 1 ∧ s.mir.holds ∧ s.works .mir = true then
    let s := s.elapseToDevice ((s.frm.t0 + 4500) % 2 ^ 32)
    let r : MirRecord :=
      { frame := BitVec.ofNat 16 (s.rd Reg.MQT_LFRAME_NOW), epoch := BitVec.ofNat 32 (s.rd Reg.MIR_EPOCH_EPOCH), mode := Fin.ofNat 16 s.mode,
        digest := s.mir.digest, words := s.mirWords.map (BitVec.ofNat 32), ok := true }
    let t := s.mirRead 7
    if t.2 = true ∨ s.recordLanes = 0 then t.1 else t.1.emit (.record s.recordLanes r)
  else s

/-- A record arrives at a WARM shadow (R263, R264). -/
def State.recordIn (s : State) (r : MirRecord) : State :=
  if s.rd Reg.MIR_CFG_PAIR = 1 ∧ s.mode = mShadow ∧ s.works .mir = true then
    let t := s.seePartner.mirRead 6
    let s := t.1
    if r.ok = false ∨ t.2 = true then (if s.mir.missed then s else s.mirMiss)
    else
      let differs := decide (r.digest ≠ s.mir.digest)
      let s := s.setMir { s.mir with differs := differs }
      let s := if differs then s.set1 Reg.MIR_ALRM_IMGDIFF else s
      if r.frame.toNat = s.rd Reg.MQT_LFRAME_NOW then s.setMir { s.mir with keep := some r } else s
  else s

/-- MIRROR_RECORD_SEND (R262). -/
def execMirrorRecordSend (s : State) : Result := done s.recordSend

/-- MIRROR_RECORD_RECEIVED (R263). -/
def execMirrorRecordReceived (r : MirRecord) (s : State) : Result := done (s.recordIn r)

end Sys2Proof.Machine
end

