-- ==== Sys2Proof/Machine/Pair.lean ====
section
/-! DEFINITION. The redundant pair (08): lease messages (R246, R247, R249), claims (R250, R253, R265, R268), hand-over (R252), epochs
(R256), heartbeats, mirror lanes and snapshots (R245, R246, R267). -/

namespace Sys2Proof.Machine

/-! ## The lease (R244, R247) -/

/-- A lease message of the partner arrives: the first valid copy of its sequence number is acted on by `k` (R244, R246, R251, R254). -/
def State.leaseIn (s : State) (x : LeaseMsg) (k : State → State) : State :=
  let lane := decide (x.path.val < 2)
  if (s.paired && s.works .mir && x.crcOk && x.member.val != s.rd Reg.MIR_CFG_MEMBER && !(lane && s.rd Reg.MIR_CFG_PAIR = 2)) = false then s
  else
    let s := if lane then s else s.startTimer tmHbRx
    let s := s.seePartner
    if s.mir.seqSeen.contains x.seq.toNat then s
    else
      let s := s.setMir { s.mir with seqSeen := (x.seq.toNat :: s.mir.seqSeen).take 64 }
      let s := s.setMir { s.mir with partnerShadow := x.shadow, partnerDiffers := x.differs }
      k (((s.seeEpoch x.epoch.toNat).seeEpoch x.seen.toNat).higherEpoch x.epoch.toNat)

/-- A RENEW (R247): a member that does not hold the Mallet extends its LE and answers with ACK. -/
def State.renewIn (s : State) (x : LeaseMsg) : State :=
  s.leaseIn x (fun s =>
    let s := s.setMir { s.mir with renewSeen := true }
    if s.mir.holds then s
    else
      let le := x.le.toNat
      let s := if 0 < diff32 le (s.rd Reg.MIR_LE_LE) then s.wr Reg.MIR_LE_LE le else s
      (s.setMir { s.mir with released := none }).sendLease s.leasePaths 1 le 0)

/-- An ACK (R247): the holder's LE becomes that of the acknowledged RENEW, whose repetition ends. Repeated RENEWs sent after it still
have their own ACKs to come; the ACK of one sent before it changes nothing. -/
def State.ackIn (s : State) (x : LeaseMsg) : State :=
  s.leaseIn x (fun s =>
    match s.mir.renews.find? (fun r => r.2.1 = x.le.toNat) with
    | some r =>
      if s.mir.holds then
        (s.wr Reg.MIR_LE_LE r.2.1).setMir
          { s.mir with renews := s.mir.renews.takeWhile (fun q => q.2.1 ≠ x.le.toNat), renewing := false, ackSent := r.2.2 }
      else s
    | none => s)

/-- A RELEASE (R249): acknowledged; the shadow need not wait for the lease to run out. -/
def State.releaseIn (s : State) (x : LeaseMsg) : State :=
  s.leaseIn x (fun s =>
    let s := (s.set1 Reg.MIR_ALRM_RELEASED).setMir { s.mir with released := some s.now }
    s.sendLease s.leasePaths 1 x.le.toNat 0)

/-- A HANDOVER (R252): the shadow claims at the start of the frame it names. -/
def State.handoverIn (s : State) (x : LeaseMsg) : State :=
  s.leaseIn x (fun s =>
    (s.set1 Reg.MIR_ALRM_RELEASED).setMir { s.mir with hoIn := some x.frame.toNat })

/-- The holder sends RENEW (R247): LEASE / 4 after the sending of the last acknowledged one, and again at every frame start until an ACK
arrives. -/
def State.renewSend (s : State) : State :=
  let again := s.atFrameStart && (s.mir.renews.head?.all (fun r => r.2.2 != s.now))
  if (s.works .mir && s.paired && s.mir.holds && s.mir.hoOut.isNone && (!s.mir.renewing || again)) = false then s
  else
    let s := if s.mir.renewing then s else s.elapseToDevice ((s.mir.ackSent + s.leaseNs / 4) % 2 ^ 32)
    let le := (s.now + s.leaseNs + 2 ^ 32 - s.skewNs) % 2 ^ 32
    let s := s.setMir { s.mir with renews := (s.mir.seq, le, s.now) :: s.mir.renews, renewing := true }
    s.sendLease s.leasePaths 0 le 0

/-! ## Claims (R250, R253) -/

/-- No ACTIVE frame of the partner for two frame periods (condition 2 of R250). -/
def State.chainQuiet (s : State) : Bool :=
  match s.mir.active with
  | some t => decide (t + 2 * s.frameNs / 4 ≤ s.clk.ticks)
  | none => true

/-- Conditions 1 and 4 of R250: the lease has run out or a RELEASE has come, and a former holder has waited a further LEASE. -/
def State.leaseOut (s : State) : Bool :=
  let extra := if s.mir.held then s.leaseNs else 0
  let since (t : Nat) : Bool := decide (0 ≤ diff32 s.now ((t + extra) % 2 ^ 32))
  since (s.rd Reg.MIR_LE_LE + s.skewNs) || (match s.mir.released with | some t => since t | none => false)

/-- The mode a claiming shadow enters (R265, R268, R432): READY after a trip, in a COLD pair, or where no record has been applied. -/
def State.claimMode (s : State) : Nat :=
  if s.ctl.shadowTrip then mReady else if s.rd Reg.MIR_CFG_PAIR = 1 then s.mir.recMode.getD mReady else mReady

/-- A shadow claims at this frame start where R250 (or R252) lets it. -/
def State.claim (s : State) : State :=
  if s.paired = false then s
  else
    let handed := s.mir.hoIn = some (s.rd Reg.MQT_LFRAME_NOW)
    let may := s.atFrameStart && s.flag Reg.MIR_CTRL_CLAIMEN && s.works .mir && s.mode = mShadow && !s.mir.holds && (handed || (s.leaseOut && s.chainQuiet))
    if may = false then s
    else
      match s.newEpoch with
      | none => s.set1 Reg.MIR_ALRM_EPEXH
      | some e =>
        let m := s.claimMode
        ((s.takeMallet e).setCtl { s.ctl with shadowTrip := false }).setMode m

/-- After the claim of a COLD shadow with AUTORUN the device requests the forming mode of the last snapshot, to be judged in the first frame
after the claim (R268); `old` is the state before the frame start. -/
def State.autorun (s old : State) : State :=
  let claimed := old.mode = mShadow && s.mode = mReady && s.mir.holds && !old.mir.holds
  if (claimed && s.rd Reg.MIR_CFG_PAIR = 2 && s.flag Reg.MIR_CFG_AUTORUN && !old.ctl.shadowTrip && !s.flag Reg.SUP_MODESTAT_PEND) = false then s
  else
    match s.mir.snapMode with
    | some k => if isForming k then (s.set1 Reg.SUP_MODESTAT_PEND).setCtl { s.ctl with req := some k } else s
    | none => s

/-- The wait of R253 in ticks. -/
def State.idleWaitTicks (s : State) : Nat :=
  ticksUs (s.rd Reg.MIR_LEASE_LEASE + s.rd Reg.MIR_LEASE_SKEW + (if s.flag Reg.MIR_CFG_MEMBER then s.rd Reg.MIR_LEASE_LEASE else 0))

/-- A pair member asked to leave IDLE has waited (R253): it claims, or it enters SHADOW at the next frame start (R425). -/
def State.idleWaitEnd (s : State) : State :=
  if s.ctl.reqWait = false ∨ s.mode ≠ mIdle then s
  else
    match spFind s.clk.timers tmIdleWait with
    | none => s
    | some t =>
      let s := s.elapseTo (t + s.idleWaitTicks)
      let quiet := match s.mir.active with | some a => decide (a + 2 * s.frameNs / 4 ≤ t) | none => true
      if quiet && !s.mir.renewSeen then
        match s.newEpoch with
        | some e => ((s.stopTimer tmIdleWait).setCtl { s.ctl with reqWait := false }).takeMallet e
        | none => s.set1 Reg.MIR_ALRM_EPEXH
      else
        (s.stopTimer tmIdleWait).setCtl { s.ctl with reqWait := false, shadowDue := true }

/-! ## Hand-over (R252) and epochs (R256) -/

/-- A write of HANDOVER: accepted on a WARM holder with the mirror link up, the partner in SHADOW without IMGDIFF, and |TOFS| at most
50 ns (R252). The lease end becomes the APPLY of frame F. -/
def State.handover (s : State) (m : Master) : State :=
  s.gate m true 0x41030000 (fun s =>
    let ok := s.rd Reg.MIR_CFG_PAIR = 1 && s.mir.holds && s.works .mir && s.rd Reg.MIR_STAT_LANES != 0 && s.mir.partnerShadow
      && !s.mir.partnerDiffers && decide ((signed 32 (s.rd Reg.MIR_TOFS_TOFS)).natAbs ≤ 200) && s.mir.hoOut.isNone
    if ok = false then s.perr peBusyMode m 0x41030000
    else
      let f := (s.rd Reg.MQT_LFRAME_NOW + 4) % 2 ^ 16
      let le := s.frm.t0 + (if s.latTwo then 6 else 5) * s.frameNs
      let s := (s.setMir { s.mir with hoOut := some f, renews := [], renewing := false }).wr Reg.MIR_LE_LE le
      s.sendLease s.leasePaths 3 le f)

/-- The frame start of frame F ends the old holder's holding (R252). -/
def State.handoverFrame (s : State) : State :=
  if s.mir.holds ∧ s.mir.hoOut = some (s.rd Reg.MQT_LFRAME_NOW) then s.endHolding else s

/-- A member that does not hold the Mallet is a shadow in the modes that need it (R248, R428). -/
def State.shadowModes (s : State) : State := if s.paired && s.rd Reg.MIR_STAT_ROLE = 2 && !s.mir.holds then s.enterShadow else s

/-- A write of MIR_EPOCH (R256). -/
def State.epochWrite (s : State) (m : Master) (v : Nat) : State :=
  s.gate m true 0x41030018 (fun s =>
    if s.idleOrMaint = false then s.perr peBusyMode m 0x41030018
    else if v ≤ s.rd Reg.MIR_EPOCH_EPOCH then s.perr peState m 0x41030018
    else (s.wr Reg.MIR_EPOCH_EPOCH v).seeEpoch v)

/-! ## Heartbeats and snapshots (R246, R267) -/

/-- A heartbeat at least every 1 ms (R246). -/
def State.heartbeatSend (s : State) : State :=
  if (s.paired && s.works .mir) = false then s
  else
    let s := if s.timerOn tmHbTx then s.expire tmHbTx (ticksMs 1) else s
    (s.hbPorts.foldl (fun s p => s.emit (.heartbeat p (s.rd Reg.MIR_EPOCH_EPOCH))) s).startTimer tmHbTx

/-- No heartbeat for 4 ms while the partner is seen (R246). -/
def State.hbLost (s : State) : State :=
  if (s.paired && s.works .mir && s.flag Reg.MIR_STAT_PARTNER && s.timerOn tmHbRx) = false then s
  else ((s.expire tmHbRx (ticksMs 4)).set1 Reg.MIR_ALRM_HBLOST).partnerAge

/-- A heartbeat of the partner arrives, with the epoch `e` (R246, R254). -/
def State.heartbeatIn (s : State) (e : Nat) : State :=
  if s.paired && s.works .mir then (s.seePartner.startTimer tmHbRx).seeEpoch e else s

/-- The age of the last snapshot in milliseconds, saturating; 0xFFFF before the first (R267). -/
def State.snapAge (s : State) : Nat := if s.timerOn tmSnap then min (s.timerAge tmSnap / ticksMs 1) 0xFFFF else 0xFFFF

/-- The COLD holder sends a snapshot every PERIOD (R267). -/
def State.snapshotSend (s : State) : State :=
  if (s.rd Reg.MIR_CFG_PAIR = 2 && s.mir.holds && s.works .mir) = false then s
  else
    let s := if s.timerOn tmSnapTx then s.expire tmSnapTx (ticksMs (s.rd Reg.MIR_SNAP_PERIOD)) else s
    let seqctrl := s.rd Reg.FRM_SEQCTRL_BSARM + s.rd Reg.FRM_SEQCTRL_NOCLAIM * 2 + s.rd Reg.FRM_SEQCTRL_RSYACP * 2 ^ 16
      + s.rd Reg.FRM_SEQCTRL_BRKGPIO * 2 ^ 18 + s.rd Reg.FRM_SEQCTRL_BRKEN * 2 ^ 22 + s.rd Reg.FRM_SEQCTRL_BRKPOL * 2 ^ 23
    (s.emit (.snapshot s.mode ((List.range 8).map (fun n => s.rd (Reg.PRF_TGT_TGT n))) seqctrl
      ((List.range 32).map (fun n => s.rd (Reg.MIR_TXW_DATA n))))).startTimer tmSnapTx

/-- A snapshot arrives at a COLD shadow (R267). -/
def State.snapshotIn (s : State) (mode : Nat) (targets words : List Nat) : State :=
  if (s.rd Reg.MIR_CFG_PAIR = 2 && s.mode = mShadow && s.works .mir) = false then s
  else
    let s := (targets.take 8).zipIdx.foldl (fun s t => s.wr (Reg.PRF_TGT_TGT t.2) t.1) s
    let s := (words.take 32).zipIdx.foldl (fun s t => s.wr (Reg.MIR_RXW_DATA t.2) t.1) s
    ((s.setMir { s.mir with snapMode := some mode }).startTimer tmSnap).wr Reg.MIR_SNAP_AGE 0

/-- A snapshot older than 2 x PERIOD (R267). -/
def State.snapLate (s : State) : State :=
  match spFind s.clk.timers tmSnap with
  | some t =>
    if (s.rd Reg.MIR_CFG_PAIR = 2 && s.mode = mShadow && s.works .mir) = false then s
    else
      let s := s.elapseTo (t + ticksMs (2 * s.rd Reg.MIR_SNAP_PERIOD) + 1)
      (s.set1 Reg.MIR_ALRM_SNAPLATE).wr Reg.MIR_SNAP_AGE s.snapAge
  | none => s

/-- The offset of the partner's time, measured every frame over the mirror link (R259). -/
def State.tofsFrame (s : State) (tofs : Int) : State :=
  if s.rd Reg.MIR_CFG_PAIR = 1 ∧ s.rd Reg.MIR_STAT_LANES ≠ 0 ∧ s.works .mir = true then
    let s := s.wr Reg.MIR_TOFS_TOFS (pattern 32 (satInt 32 tofs))
    if 200 < tofs.natAbs then s.set1 Reg.MIR_ALRM_TOFS else s
  else s

/-! ## Meanings -/

/-- RENEW_SEND (R247). -/
def execRenewSend (s : State) : Result := done s.renewSend

/-- LEASE_RENEW_RECEIVED (R247). -/
def execLeaseRenewReceived (x : LeaseMsg) (s : State) : Result := done (s.renewIn x)

/-- LEASE_ACK_RECEIVED (R247). -/
def execLeaseAckReceived (x : LeaseMsg) (s : State) : Result := done (s.ackIn x)

/-- LEASE_RELEASE_RECEIVED (R249). -/
def execLeaseReleaseReceived (x : LeaseMsg) (s : State) : Result := done (s.releaseIn x)

/-- LEASE_HANDOVER_RECEIVED (R252). -/
def execLeaseHandoverReceived (x : LeaseMsg) (s : State) : Result := done (s.handoverIn x)

/-- MALLET_CLAIM (R250). -/
def execMalletClaim (s : State) : Result := done s.claim

/-- PAIR_IDLE_WAIT_END (R253). -/
def execPairIdleWaitEnd (s : State) : Result := done s.idleWaitEnd

/-- HANDOVER (R252). -/
def execHandover (m : Master) (s : State) : Result := done (s.handover m)

/-- MIR_EPOCH_WRITE (R256). -/
def execMirEpochWrite (m : Master) (v : Word) (s : State) : Result := done (s.epochWrite m v.toNat)

/-- HEARTBEAT_SEND (R246). -/
def execHeartbeatSend (s : State) : Result := done s.heartbeatSend

/-- HBLOST (R246). -/
def execHblost (s : State) : Result := done s.hbLost

/-- MIRROR_LANE_LOSS (R245, R388): the loss of the second lane is the loss of the mirror link. -/
def execMirrorLaneLoss (l : Fin 2) (s : State) : Result :=
  let was := s.rd Reg.MIR_STAT_LANES
  let s := (s.wrBit Reg.MIR_STAT_LANES l false).set1 Reg.MIR_ALRM_MIRLANE
  done (if was ≠ 0 ∧ s.rd Reg.MIR_STAT_LANES = 0 then s.semMasterReset 6 else s)

/-- MIRROR_LANE_ALIGN (R245). -/
def execMirrorLaneAlign (l : Fin 2) (s : State) : Result :=
  done (if s.regionOn .net then s.wrBit Reg.MIR_STAT_LANES l true else s)

/-- SNAPSHOT_SEND (R267). -/
def execSnapshotSend (s : State) : Result := done s.snapshotSend

/-- SNAPLATE (R267). -/
def execSnaplate (s : State) : Result := done s.snapLate

end Sys2Proof.Machine
end

