-- ==== Sys2Proof/Machine/Ether.lean ====
section
/-! DEFINITION. Frames received by the Ethernet ports (12, R338 to R341, R350): acceptance, steering, receive records, Sampled Values (R357 to
R360, R71 to R73), safety frames (R314) and heartbeats (R246). -/

namespace Sys2Proof.Machine

/-! ## Receiving (R339 to R341) -/

/-- Whether port `p` receives. -/
def State.portReceives (s : State) (p : Nat) : Bool := s.portSends p

/-- The address of six bytes from index `i`, the first transmitted byte lowest. -/
def macAt (l : List Nat) (i : Nat) : Nat := leNat (l.drop i |>.take 6)

/-- Whether port `p` accepts destination address `d` (R340). -/
def State.acceptsMac (s : State) (p d : Nat) : Bool :=
  d = s.rd (Reg.NET_MACLO_MACLO p) + s.rd (Reg.NET_MACHI_MACHI p) * 2 ^ 32 || d = 2 ^ 48 - 1 || s.flag (Reg.NET_PCFG_PROMISC p)
    || (List.range 16).any (fun k =>
      s.flag (Reg.NET_MCHI_EN p k) && d = s.rd (Reg.NET_MCLO_ADDRLO p k) + s.rd (Reg.NET_MCHI_ADDRHI p k) * 2 ^ 32)

/-- Whether a frame has an IEEE 802.1Q tag, the index of its EtherType, and the EtherType. -/
def vlanTagged (l : List Nat) : Bool := beRead l 12 2 = 0x8100
def typeIndex (l : List Nat) : Nat := if vlanTagged l then 16 else 12
def etherType (l : List Nat) : Nat := beRead l (typeIndex l) 2

/-- Write a frame into the receive ring of port `p` as a record (R341), or drop it for want of room. -/
def State.receiveRecord (s : State) (p : Nat) (l : List Nat) (stamp seq : Nat) : State :=
  let n := s.rd (Reg.NET_PCFG_RXRING p)
  let bcast := macAt l 0 = 2 ^ 48 - 1
  let flags := (if etherType l = 0x88F7 then 1 else 0) + (if vlanTagged l then 2 else 0)
    + (if l.getD 0 0 % 2 = 1 ∧ ¬ bcast then 4 else 0) + (if bcast then 8 else 0)
  let record := leBytes 2 l.length ++ [p, flags] ++ leBytes 4 stamp ++ leBytes 4 seq ++ leBytes 4 0 ++ l
    ++ List.replicate ((4 - l.length % 4) % 4) 0
  if s.regionOn .sup ∧ s.ringFill n + record.length ≤ s.ringSize n then s.ringPut n record
  else (s.addSat (Reg.NET_RXCNT_RXDROP p) 1).set1 Reg.NET_ALRM_RXOVF

/-! ## Sampled Values (R357 to R360) -/

/-- A tag, length and value of the encoding of IEC 61850-9-2 at the front of `l`: the tag, the value, and what follows. -/
def berTake (l : List Nat) : Option (Nat × List Nat × List Nat) :=
  match l with
  | t :: n :: r =>
    let h := if n < 128 then 0 else n - 128
    let len := if n < 128 then n else beNat (r.take h)
    if h + len ≤ r.length then some (t, (r.drop h).take len, r.drop (h + len)) else none
  | _ => none

/-- The elements of a sequence, at most `fuel`. -/
def berList (fuel : Nat) (l : List Nat) : List (Nat × List Nat) :=
  match fuel with
  | 0 => []
  | fuel + 1 =>
    match berTake l with
    | some (t, v, r) => (t, v) :: berList fuel r
    | none => []

/-- The value of the first element with tag `t`. -/
def berFind (t : Nat) (l : List (Nat × List Nat)) : List Nat := ((l.find? (fun e => e.1 = t)).map (·.2)).getD []

/-- An ASDU: CRC-32C of its svID, smpCnt, confRev, smpSynch and dataset bytes. -/
structure SvAsdu where
  idCrc : Nat
  smpCnt : Nat
  confRev : Nat
  synch : Nat
  data : List Nat
  deriving DecidableEq, Repr

/-- The ASDUs of a Sampled Values payload (after APPID, length and two reserved words), at most eight. -/
def svAsdus (payload : List Nat) : List SvAsdu :=
  let pdu := berFind 0x60 (berList 4 (payload.drop 8))
  let seq := berFind 0xA2 (berList 8 pdu)
  ((berList 8 seq).filter (fun e => e.1 = 0x30)).map (fun e =>
    let x := berList 16 e.2
    { idCrc := crc32c (berFind 0x80 x), smpCnt := beNat (berFind 0x82 x), confRev := beNat (berFind 0x83 x), synch := beNat (berFind 0x85 x),
      data := berFind 0x87 x })

/-- Whether a frame and one of its ASDUs match stream `st` (R357). -/
def State.svMatch (s : State) (p dest appid : Nat) (a : SvAsdu) (st : Nat) : Bool :=
  s.flag (Reg.SVS_SCFG_EN st) && decide (2 ≤ p) && s.rdBit (Reg.SVS_SCFG_PORTS st) (p - 2)
    && dest = s.rd (Reg.SVS_SDALO_DALO st) + s.rd (Reg.SVS_SDAHI_DAHI st) * 2 ^ 32
    && appid = s.rd (Reg.SVS_SCFG_APPID st) && a.idCrc = s.rd (Reg.SVS_SID_SVIDCRC st)

/-- The samples a second of stream `st` (R360). -/
def State.svRate (s : State) (st : Nat) : Nat :=
  (if s.rd (Reg.SVS_SCFG_NOMF st) = 0 then 50 else 60) * (if s.rd (Reg.SVS_SCFG_SPC st) = 0 then 80 else 256)

/-- The sampling instant of a synchronised ASDU (R360): from the latest second boundary for which it does not lie after the stamp;
smpCnt sample periods are rounded to whole nanoseconds, half to even (log 91). -/
def State.svInstant (s : State) (st smpCnt stamp : Nat) : Nat :=
  let b := s.net.secLast.getD ((s.rd Reg.PTP_SECBASE_SECBASE + 2 ^ 32 - 1000000000) % 2 ^ 32)
  let t := (b + (rhe (smpCnt * 1000000000 : Nat) (s.svRate st : Nat)).toNat) % 2 ^ 32
  if 0 ≤ diff32 stamp t then t else (t + 2 ^ 32 - 1000000000) % 2 ^ 32

/-- Write the values of an accepted ASDU into the channels bound to stream `st` (R359, R64, R71 to R73). A value of bad quality or under test clears
VALID only: the channel keeps its last value (R73). A channel whose value the dataset does not hold is left as it is. -/
def State.svValues (s : State) (st stamp : Nat) (a : SvAsdu) : State :=
  (List.range 32).foldl (fun s i =>
    let v := s.rd (Reg.SVS_BIND_VIDX i)
    if s.flag (Reg.SVS_BIND_EN i) ∧ s.rd (Reg.SVS_BIND_STREAM i) = st ∧ 8 * v + 8 ≤ a.data.length then
      let x := signed 32 (beRead a.data (8 * v) 4)
      let q := beRead a.data (8 * v + 4) 4
      let raw := x * signed 16 (s.rd (Reg.SVS_MUL_MULT i)) / (2 ^ min 47 (s.rd (Reg.SVS_BIND_SHIFT i)) : Nat)
      let y := satInt 16 raw
      let good := q % 4 = 0 && !bitAt q 11
      let sync := decide (a.synch = 2)
      if good = false then s.set0 (Reg.ACQ_CHVAL_VALID (32 + i))
      else
      let s := s.putChannel (32 + i) true (decide (y ≠ raw)) false (!sync) 0 (word16 y) (if sync then s.svInstant st a.smpCnt stamp else stamp)
      if s.flag (Reg.ACQ_CHMAP_QEN (32 + i)) ∧ s.works .acq = true then
        s.pushQueue (s.rd (Reg.ACQ_CHMAP_Q (32 + i))) (word16 y + residue (word16 y) * 2 ^ 16 + (32 + i) * 2 ^ 20)
      else s
    else s) s

/-- The sample counts of stream `st` accepted within the last half second, with the ticks of that: a copy of one of them is a duplicate; a count
accepted longer ago comes again from the next second (R358, log 90). -/
def State.svRecent (s : State) (st : Nat) : List (Nat × Nat) :=
  (spGet s.net.svSeen st []).filter (fun e => decide (s.clk.ticks < e.2 + 125000000))

/-- An ASDU that matches stream `st` (R357, R358). -/
def State.svAsdu (s : State) (st stamp : Nat) (a : SvAsdu) : State :=
  if a.confRev ≠ s.rd (Reg.SVS_CONF_CONFREV st) then s.set1 Reg.SVS_ALRM_CONFERR
  else
    let seen := s.svRecent st
    if (seen.map Prod.fst).contains a.smpCnt then s.addSat (Reg.SVS_SCNT_DUPS st) 1
    else
      let n := s.svRate st
      let missing := if (spFind s.net.svSeen st).isNone then 0 else (a.smpCnt + 2 * n - 1 - s.rd (Reg.SVS_SLAST_SMPCNT st) % n) % n
      let s := if missing = 0 then s else (s.addSat (Reg.SVS_SCNT_GAPS st) missing).set1 Reg.SVS_ALRM_GAP
      let s := s.setNet { s.net with svSeen := spPut s.net.svSeen st ((a.smpCnt, s.clk.ticks) :: seen) }
      let s := (s.wr (Reg.SVS_SLAST_SMPCNT st) a.smpCnt).wr (Reg.SVS_SLAST_SYNCH st) a.synch
      (s.svValues st stamp a).startTimer (tmSv st)

/-- Stream `st` takes an ASDU out of its buffer: one with an uncorrectable word is discarded, and counts as a missing sample (R440, R358). -/
def State.svTake (s : State) (st stamp : Nat) (a : SvAsdu) : State :=
  let t := s.netRead (fun w => decide (w / 64 = 128 + st))
  if t.2 then t.1.errorB .svs kEcc 9 0 else t.1.svAsdu st stamp a

/-- A residue mismatch of channel `c` in SVS_ fences it: VALID of channels 32 to 63 is cleared (R19, R38). -/
def State.fenceSvs (s : State) (c : Nat) : State :=
  let s := (((s.set1 Reg.SVS_ALRM_RESERR).resRecord .svs c).errorB .svs kResidue c 0).wr (blockState .svs) stFenced
  (List.range 32).foldl (fun s i => s.set0 (Reg.ACQ_CHVAL_VALID (32 + i))) s

/-- A Sampled Values frame (R357): whether it matches an enabled stream, and the state after its ASDUs. -/
def State.svFrame (s : State) (p : Nat) (l : List Nat) (stamp : Nat) (bad : Option Nat) : Bool × State :=
  let payload := l.drop (typeIndex l + 2)
  let as := svAsdus payload
  let hits (a : SvAsdu) := (List.range 8).filter (s.svMatch p (macAt l 0) (beRead payload 0 2) a)
  let found := as.any (fun a => !(hits a).isEmpty)
  if found && s.works .svs then
    let t := as.foldl (fun s a => (hits a).foldl (fun s st => s.svTake st stamp a) s) s
    (true, match bad with | none => t | some c => t.fenceSvs c)
  else (found, s)

/-! ## Heartbeats (R246, R267) -/

/-- A heartbeat frame of the partner on ETH6 or ETH7. -/
def State.heartbeatFrame (s : State) (h : Heartbeat) : State :=
  let s := s.heartbeatIn h.epoch.toNat
  let s :=
    match h.lease with
    | none => s
    | some (k, x) =>
      match k with
      | 0 => s.renewIn x
      | 1 => s.ackIn x
      | 2 => s.releaseIn x
      | _ => s.handoverIn x
  match h.snap with
  | none => s
  | some (m, t, _, w) => s.snapshotIn m.val (t.map (·.toNat)) (w.map (·.toNat))

/-- A port receives a frame (R339 to R341, R350). -/
def State.ethIn (s : State) (p : Nat) (l : List Nat) (fcsOk : Bool) (h : Heartbeat) (bad : Option Nat) : State :=
  if s.portReceives p = false then s
  else if l.length < 60 ∨ 1518 < l.length then s.addSat (Reg.NET_ERRCNT_LENERR p) 1
  else if fcsOk = false then s.addSat (Reg.NET_ERRCNT_FCSERR p) 1
  else if etherType l = 0x8808 ∨ s.acceptsMac p (macAt l 0) = false then s
  else
    let stamp := pattern 32 ((s.now : Int) - (s.rd (Reg.NET_LAT_RXLAT p) : Nat) + s.freeErr 2)
    let seq := (spGet s.net.rseq p 0 + 1) % 2 ^ 32
    let s := (s.drawn.setNet { s.net with rseq := spSet s.net.rseq p seq 0 }).addSat (Reg.NET_RXCNT_RXOK p) 1
    let ty := etherType l
    let t := s.netRead (fun w => decide (w / 512 = p))
    let s := t.1
    if t.2 then (s.addSat (Reg.NET_RXCNT_RXDROP p) 1).errorB .net kEcc 9 0
    else if 6 ≤ p ∧ ty = 0x88B6 then s.safFrame p (l.drop (typeIndex l + 2))
    else if 6 ≤ p ∧ ty = 0x88B5 then s.heartbeatFrame h
    else if ty = 0x88BA then
      let r := s.svFrame p l stamp bad
      if r.1 then r.2 else if s.flag Reg.NET_CTRL_SVFWD then s.receiveRecord p l stamp seq else s
    else s.receiveRecord p l stamp seq

/-- ETH_FRAME_RECEIVED (R340). -/
def execEthFrameReceived (p : Fin 8) (f : List Byte) (fcsOk : Bool) (hb : Heartbeat) (bad : Option (Fin 64)) (s : State) : Result :=
  done (s.ethIn p (f.map (·.toNat)) fcsOk hb (bad.map (·.val)))

end Sys2Proof.Machine
end

