-- ==== Sys2Proof/Machine/Frieze.lean ====
section
/-! DEFINITION. The frames of the Frieze link (07): header fields (R207), slots (R208, R209) and their codes (R210, R211), shared by the
device's ports and by the nodes. -/

namespace Sys2Proof.Machine

/-! ## Header fields (R207), of the 256-bit header -/

def hApply (h : Nat) : Nat := bitsOf h 0 32
def hEpoch (h : Nat) : Nat := bitsOf h 32 32
def hFrame (h : Nat) : Nat := bitsOf h 64 16
def hPeriod (h : Nat) : Nat := bitsOf h 80 9
def hLead (h : Nat) : Nat := bitsOf h 96 24
def hCala (h : Nat) : Nat := bitsOf h 120 24
def hRt (h : Nat) : Nat := bitsOf h 144 24
def hHops (h : Nat) : Nat := bitsOf h 168 10
def hNslot (h : Nat) : Nat := bitsOf h 178 10
def hSplit (h : Nat) : Nat := bitsOf h 188 9
def hChain (h : Nat) : Nat := bitsOf h 197 5
def hChainb (h : Nat) : Nat := bitsOf h 202 5
def hActive (h : Nat) : Bool := bitAt h 208
def hEnd (h : Nat) : Nat := bitsOf h 209 1
def hTopo (h : Nat) : Nat := bitsOf h 210 2
def hFold (h : Nat) : Bool := bitAt h 212
def hAllblock (h : Nat) : Bool := bitAt h 213
def hHold (h : Nat) : Nat := bitsOf h 216 4
def hVer (h : Nat) : Nat := bitsOf h 220 4
def hCsig (h : Nat) : Nat := bitsOf h 224 16
def hHcrc (h : Nat) : Nat := bitsOf h 240 16

/-- The HCRC of a header: CRC-16 of its bytes 0 to 29 (R210). -/
def hcrcOf (h : Nat) : Nat := crc16 (leBytes 30 h)

/-- Whether a header's HCRC is right. -/
def hcrcOk (h : Nat) : Bool := hHcrc h = hcrcOf h

/-- A header with its HCRC regenerated, inverted where `bad` (R212). -/
def withHcrc (h : Nat) (bad : Bool) : Nat := putBits h 240 16 (if bad then 65535 - hcrcOf h else hcrcOf h)

/-- The global index of slot `j` (R203). -/
def slotIndex (h j : Nat) : Nat :=
  (if j < hSplit h then hChain h * 256 + j else hChainb h * 256 + (hNslot h - 1 - j)) % 8192

/-- The CRC-16 of a slot: index word with the uplink bit, then slot bytes 0 to 9 (R210). -/
def slotCrc (g : Nat) (up : Bool) (l : List Nat) : Nat := crc16 (leBytes 2 (g % 8192 + (if up then 32768 else 0)) ++ l.take 10)

/-- A slot of 10 bytes of content with its CRC-16, inverted where `bad` (R38). -/
def slotBytes (g : Nat) (up bad : Bool) (content : Nat) : List Nat :=
  let l := leBytes 10 content
  let c := slotCrc g up l
  l ++ leBytes 2 (if bad then 65535 - c else c)

/-- The 12 bytes of slot `j` of a frame. -/
def frameSlot (f : List Nat) (j : Nat) : List Nat := (f.drop (32 + 12 * j)).take 12

/-- Whether a slot's CRC-16 is right for its index and direction. -/
def slotOk (g : Nat) (up : Bool) (l : List Nat) : Bool := leNat (l.drop 10) = slotCrc g up l

/-- A frame with its CRC-32C (R211). -/
def sealFrame (body : List Nat) : List Nat := body ++ leBytes 4 (crc32c body)

/-- Whether a received frame has the length its header gives and a right CRC-32C. -/
def frameCrcOk (f : List Nat) : Bool :=
  let n := f.length - 4
  decide (36 ≤ f.length) && decide (f.length = 36 + 12 * hNslot (leNat (f.take 32))) && leNat (f.drop n) = crc32c (f.take n)

/-- Whether slot `j` of a frame has been processed by its node: positions count from the end that sent it (R203, R212). -/
def slotReached (h j : Nat) : Bool := if hEnd h = 0 then decide (j < hHops h) else decide (hNslot h - hHops h ≤ j)

/-- Status word fields (R225). -/
def stBit (st i : Nat) : Bool := bitAt st i

end Sys2Proof.Machine
end

