-- ==== Sys2Proof/Machine/Link.lean ====
section
/-! DEFINITION. The link ports (07): the frames they launch and receive, bring-up, breaks and swaps (R215, R216, R230, R237 to R241), and
the device's side of the point channel (R231 to R235). -/

namespace Sys2Proof.Machine

def lDown : Nat := 0
def lAlign : Nat := 1
def lRange : Nat := 2
def lIdcheck : Nat := 3
def lAdmit : Nat := 4
def lUp : Nat := 5
def lDegraded : Nat := 6
def lError : Nat := 7

/-! ## Ports and point channels -/

def State.port (s : State) (p : Nat) : LnkPort := spGet s.lnk.ports p LnkPort.reset
def State.putPort (s : State) (p : Nat) (x : LnkPort) : State :=
  s.setLnk { s.lnk with ports := spSet s.lnk.ports p x LnkPort.reset }
def State.pt (s : State) (g : Nat) : PtNode := spGet s.lnk.points g PtNode.reset
def State.putPt (s : State) (g : Nat) (x : PtNode) : State :=
  s.setLnk { s.lnk with points := spSet s.lnk.points g x PtNode.reset }

def State.lstate (s : State) (p : Nat) : Nat := s.rd (Reg.LNK_STAT_LSTATE p)
def State.nslot (s : State) (p : Nat) : Nat := s.rd (Reg.LNK_CFG_NSLOT p)

/-- A port index as a block. -/
def lnkBlock (p : Nat) : Block := .lnk (Fin.ofNat 32 p)

/-- Whether a port attaches one end of a chain whose other end is on the same device (R202). -/
def State.dualHere (s : State) (p : Nat) : Bool := s.rd (Reg.LNK_CFG_TOPO p) = 1

/-- The header fields that place the slots of port `p` (R203): CHAIN, CHAINB, NSLOT and SPLIT in their places. -/
def State.chainBits (s : State) (p : Nat) : Nat :=
  let chain := if s.dualHere p && s.flag (Reg.LNK_CFG_END p) then s.rd (Reg.LNK_CFG_PEER p) else p
  s.nslot p * 2 ^ 178 + s.rd (Reg.LNK_CFG2_SPLIT p) * 2 ^ 188 + chain * 2 ^ 197 + s.rd (Reg.LNK_CFG2_CHAINB p) * 2 ^ 202

/-- The global index of slot `j` of port `p`. -/
def State.portIndex (s : State) (p j : Nat) : Nat := slotIndex (s.chainBits p) j

/-- Whether the modes let ports launch (R215). -/
def launchMode (m : Nat) : Bool := m != mHibernate && m != mBoot && m != mLockout

/-- Whether an aligned port may leave DOWN: at its first alignment, and after a loss of alignment while RETRY = 1 (R239). -/
def State.leavesDown (s : State) (p : Nat) : Bool :=
  s.works (lnkBlock p) && s.lstate p = lDown && (s.port p).aligned && (!(s.port p).lost || s.lrd (Reg.LNK_CTRL_RETRY p) = 1)

/-- DOWN to ALIGN where the port may leave it (R238, R239). -/
def State.tryAlign (s : State) (p : Nat) : State := if s.leavesDown p then s.wr (Reg.LNK_STAT_LSTATE p) lAlign else s

/-- At a frame start every running port has a frame to launch (R215), and RETRY as latched there may let it leave DOWN (R239). -/
def State.linkFrame (s : State) : State :=
  (List.range 32).foldl (fun s p =>
    if s.works (lnkBlock p) then
      (if launchMode s.mode then s.putPort p { s.port p with due := true } else s).tryAlign p
    else s) s

/-- Whether the safety inhibit sets ALLBLOCK (R306). -/
def State.safAllblock (s : State) : Bool := s.flag Reg.SAF_STAT_INH && s.flag Reg.SAF_INHCFG_ALLBLK

/-! ## Point operations in a frame (R231 to R235) -/

/-- Whether the operations for the node in slot `j` travel in the frames of port `p` (R235): in those of its own end, and in a
dual-ended chain in those of the other end while its own end does not reach it. -/
def State.opsHere (s : State) (p j : Nat) : Bool :=
  let home := s.portIndex p j / 256
  if s.dualHere p then
    (home = p) == (s.works (lnkBlock home) && (s.port home).aligned && s.flag (Reg.LNK_NODE_REACHED home j))
  else home = p

/-- The value of VSMN for point 4 of a node (R238). -/
def State.vsmnOf (s : State) (g : Nat) : Nat := s.lrd (Reg.MOD_ARMVSM_VSMN (s.rd (Reg.MOD_SM_ARM g)))

/-- The first point of `mask` at or above `from`, then from 0 again. -/
def nextPoint (mask start : Nat) : Nat :=
  match ((List.range 32).map (fun i => (start + i) % 32)).find? (fun i => bitAt mask i) with
  | some i => i
  | none => 0

/-- What the port places next for a node with no operation on its way (R233): the opcode (0 none), the point, the data, whether bring-up
places it, and the node's queue after it. -/
def State.chooseOp (s : State) (p j : Nat) (active : Bool) : Nat × Nat × Nat × Bool × PtNode :=
  let g := s.portIndex p j
  let n := s.pt g
  let mask := s.lrd (Reg.LNK_REFRESH_MASK p)
  let refresh : Nat × Nat × Nat × Bool × PtNode :=
    if mask = 0 then (0, 0, 0, false, n)
    else (1, nextPoint mask n.next, 0, false, { n with next := (nextPoint mask n.next + 1) % 32, writes := 0 })
  match n.stage with
  | 1 => (1, 0, 0, true, n)
  | 2 => (1, 1, 0, true, n)
  | 4 => if active then (2, 4, s.vsmnOf g, true, n) else (0, 0, 0, false, n)
  | 5 => if active then (2, 6, 2 ^ 31 + s.rd (Reg.LNK_CFG2_CSIG p), true, n) else (0, 0, 0, false, n)
  | 8 => (1, 6, 0, true, n)
  | _ =>
    if stBit (s.rd (Reg.LNK_NODE_STATUS p j)) 7 = false then (0, 0, 0, false, n)
    else
      match n.queue with
      | (point, v) :: r =>
        if active ∧ (n.writes < 3 ∨ mask = 0) then (2, point, v, false, { n with queue := r, writes := n.writes + 1 }) else refresh
      | [] => refresh

/-- The queued writes of the nodes whose home is port `p` (LNKn_PSTAT.PPEND). -/
def State.countPend (s : State) (p : Nat) : State :=
  s.wr (Reg.LNK_PSTAT_PPEND p) ((s.lnk.points.filter (fun e => e.1 / 256 = p)).foldl (fun a e => a + e.2.queue.length) 0)

/-- Place at most one operation for the node in slot `j` (R233, R234): POP and PDATA. The frames waited for a reply are those of the port
that carried the operation; a reissue travels in the frames of the end that R235 then names, which carries it from there on. -/
def State.placeOp (s : State) (p j : Nat) (active : Bool) : State × Nat × Nat :=
  let g := s.portIndex p j
  let n := s.pt g
  let pop (o : PointOp) : Nat := o.opc * 64 + o.tag * 32 + o.point
  match n.op with
  | some o =>
    if o.again = false then
      (if o.port = p ∨ (s.opsHere p j = true ∧ s.works (lnkBlock o.port) = false) then
        s.putPt g { n with op := some { o with age := o.age + 1 } }
       else s, 0, 0)
    else if (o.opc = 2 ∧ active = false) ∨ s.opsHere p j = false then (s, 0, 0)
    else (s.putPt g { n with op := some { o with again := false, age := 1, port := p } }, pop o, o.data)
  | none =>
    if s.opsHere p j = false then (s, 0, 0)
    else
      let c := s.chooseOp p j active
      if c.1 = 0 then (s, 0, 0)
      else
        let tag := 1 - n.tag
        let o : PointOp :=
          { opc := c.1, point := c.2.1, data := c.2.2.1, tag := tag, port := p, age := 1, tries := 0, again := false, bring := c.2.2.2.1 }
        let s := s.putPt g { c.2.2.2.2 with op := some o, tag := tag }
        ((if c.2.2.2.2.queue.length = n.queue.length then s else s.countPend (g / 256)), pop o, o.data)

/-! ## Launch (R38, R207, R208, R215, R216, R248) -/

/-- The port reads the command of submodule `g` out of array 7 through its code (R441): an uncorrectable word fences MOD_, which leaves the
blocked command in the slots still to be sent (R198, R440). -/
def State.commandRead (s : State) (g : Nat) : State :=
  let t := s.readWords 7 (fun w => decide (w = g) || decide (w = 8192 + g))
  if t.2 = [] then t.1 else (t.1.modEcc .mod kEcc).blockAll

/-- The port reads slot `j` out of its frame buffer (array 8): whether it must be sent as R38 lays down, for an uncorrectable word or a
failure of the transparent test (R440, R461). -/
def State.bufferRead (s : State) (p j : Nat) : State × Bool :=
  let t := s.readWords 8 (fun w => decide (w / 4 = 512 * p + j))
  (if t.2 = [] then t.1 else t.1.errorB (lnkBlock p) kEcc 8 0, !t.2.isEmpty || (spFind s.lnk.bad (512 * p + j)).isSome)

/-- One slot of a launch: the accumulated slots, newest first, follow the state. -/
def State.launchSlot (p : Nat) (active : Bool) (bad : List Nat) (x : State × List (List Nat)) (j : Nat) : State × List (List Nat) :=
  let g := x.1.portIndex p j
  let b := (x.1.commandRead g).bufferRead p j
  let s := b.1
  let r := s.placeOp p j active
  let wrong := bad.contains j
  let sick := wrong || b.2
  let cmd := if s.mode = mShadow ∨ sick = true ∨ s.formingDropped = true then 0x80 else spGet s.mod.cmds g 0x80
  let s' := r.1
  let s' := if wrong then ((s'.set1 (Reg.LNK_ALRM_RESERR p)).resRecord (lnkBlock p) j).errorB (lnkBlock p) kResidue j 0 else s'
  (s', slotBytes g false sick (cmd + r.2.1 * 2 ^ 40 + r.2.2 * 2 ^ 48) :: x.2)

/-- The frame of port `p` has left: its buffer is written anew for the next one. -/
def State.bufferSent (s : State) (p : Nat) : State :=
  let s := s.cleanWords 8 (fun w => decide (w / 2048 = p))
  s.setLnk { s.lnk with bad := s.lnk.bad.filter (fun e => e.1 / 512 != p) }

/-- Port `p` launches the frame of this period at S + 4.50 microseconds. -/
def State.launch (s : State) (p : Nat) (bad : List Nat) : State :=
  if (s.works (lnkBlock p) && (s.port p).due && launchMode s.mode) = false then s
  else
    let s := s.elapseToDevice ((s.frm.t0 + 4500) % 2 ^ 32)
    let t := s.frameNs
    let ahead := t * (1 + s.rd (Reg.LNK_CFG_LAT p))
    let apply := (s.frm.t0 + ahead) % 2 ^ 32
    let s := s.leaseCheck apply
    let active := s.activeFor apply
    let sub := s.freeUpTo 79
    let s := s.drawn
    let lead := (ahead * 20 + 2 ^ 24 - 90000 - sub) % 2 ^ 24
    let topo := s.rd (Reg.LNK_CFG_TOPO p)
    let dual := (topo = 1 || topo = 2) && !s.flag (Reg.LNK_STAT_FOLDED p)
    let allblock := s.lstate p = lError || s.safAllblock
    let h := apply + s.rd Reg.MIR_EPOCH_EPOCH * 2 ^ 32 + s.rd Reg.MQT_LFRAME_NOW * 2 ^ 64 + t / 500 % 512 * 2 ^ 80 + lead * 2 ^ 96
      + s.rd (Reg.LNK_RT_RT p) * 2 ^ 144 + s.chainBits p + (if active then 2 ^ 208 else 0) + s.rd (Reg.LNK_CFG_END p) * 2 ^ 209
      + (if dual then 2 ^ 210 else 0) + (if allblock then 2 ^ 213 else 0) + s.rd (Reg.LNK_CFG_HOLD p) * 2 ^ 216 + 2 ^ 220
      + s.rd (Reg.LNK_CFG2_CSIG p) * 2 ^ 224
    let r := (List.range (s.nslot p)).foldl (State.launchSlot p active bad) (s, [])
    let s := r.1.bufferSent p
    let s := s.putPort p { s.port p with due := false, lead := lead, apply := apply }
    let s := (s.wr (Reg.LNK_LAUNCH_TIME p) (s.frm.t0 + (90000 + sub) / 20)).wr (Reg.LNK_STAT_TOPOTX p) (if dual then 1 else 0)
    s.emit (.link p (sealFrame (leBytes 32 (withHcrc h false) ++ r.2.reverse.flatten)))

/-! ## Bring-up (R237, R238) -/

/-- The slots of port `p` whose nodes processed the last received frame. -/
def State.reachedSlots (s : State) (p : Nat) : List Nat := (List.range (s.nslot p)).filter (fun j => s.flag (Reg.LNK_NODE_REACHED p j))

/-- Whether the node in slot `j` reports ADMIT = 1. -/
def State.slotAdmit (s : State) (p j : Nat) : Bool := stBit (s.rd (Reg.LNK_NODE_STATUS p j)) 7

/-- Drop the bring-up of a node that port `p` runs; the other port of a dual-ended chain keeps its own (R238). -/
def State.endStage (s : State) (p g : Nat) : State :=
  let n := s.pt g
  if n.owner ≠ p then s
  else s.putPt g { n with stage := 0, op := match n.op with | some o => if o.bring then none else some o | none => none }

/-- Drop every bring-up that port `p` runs. -/
def State.endStages (s : State) (p : Nat) : State := (List.range (s.nslot p)).foldl (fun s j => s.endStage p (s.portIndex p j)) s

/-- Port `p` begins to read the identity of a node, unless the other port of a dual-ended chain is at it: that one's result counts for both,
and `p` takes its turn where none comes (log 47). -/
def State.startStage (s : State) (p g : Nat) : State :=
  let s := s.endStage p g
  let n := s.pt g
  if n.stage = 0 ∨ n.stage = 7 then s.putPt g { n with stage := 1, owner := p } else s

/-- A check stops the port (R237): ERROR, and no node is admitted further. A port with EN = 0 stays DOWN. -/
def State.lnkError (s : State) (p : Nat) : State :=
  (if s.works (lnkBlock p) then s.wr (Reg.LNK_STAT_LSTATE p) lError else s).endStages p

/-- IDERR with its kind and slot: the first failure of this bring-up (R238, R239). -/
def State.idError (s : State) (p kind pos : Nat) : State :=
  if s.lstate p = lError then s
  else (((s.set1 (Reg.LNK_ALRM_IDERR p)).wr (Reg.LNK_IDERR_KIND p) kind).wr (Reg.LNK_IDERR_POS p) pos).lnkError p

/-- The admission of R238 for a node whose identity is accepted: where it reports ADMIT = 1 already, point 6 is read first, since
no writes are needed where it holds the chain's CSIG (log 47). -/
def State.startAdmit (p : Nat) (s : State) (j : Nat) : State :=
  let g := s.portIndex p j
  let n := s.pt g
  if n.stage = 3 then s.putPt g { n with stage := if s.slotAdmit p j then 8 else 4, owner := p } else s

/-- Bring-up of port `p` goes on where what it waits for has come about: IDCHECK to ADMIT, ADMIT to UP or DEGRADED, and between UP and
DEGRADED (R238, R239). -/
def State.lnkSettle (s : State) (p : Nat) : State :=
  let reached := s.reachedSlots p
  let s :=
    if s.lstate p = lIdcheck ∧ reached.all (fun j => s.flag (Reg.LNK_NODE_IDOK p j)) then
      (reached.foldl (State.startAdmit p) s).wr (Reg.LNK_STAT_LSTATE p) lAdmit
    else s
  let whole := decide (reached.length = s.nslot p) && reached.all (s.slotAdmit p)
  if s.lstate p = lAdmit then
    (if reached.all (fun j => s.flag (Reg.LNK_NODE_IDOK p j) && (s.slotAdmit p j || (s.pt (s.portIndex p j)).stage = 7)) then
      s.wr (Reg.LNK_STAT_LSTATE p) (if whole then lUp else lDegraded) else s)
  else if s.lstate p = lDegraded ∧ whole = true then s.wr (Reg.LNK_STAT_LSTATE p) lUp
  else if s.lstate p = lUp ∧ reached.all (s.slotAdmit p) = false then s.wr (Reg.LNK_STAT_LSTATE p) lDegraded
  else s

/-- The node in slot `j` has replied to an operation of the bring-up that port `p` runs, or its reply failed. -/
def State.stageReply (s : State) (p j : Nat) (ok : Bool) : State :=
  let g := s.portIndex p j
  let n := s.pt g
  match n.stage with
  | 1 => if ok then s.putPt g { n with stage := 2 } else s.idError p 2 j
  | 2 =>
    if ok = false then s.idError p 2 j
    else
      let lo := s.rd (Reg.LNK_IDLO_IDLO p j)
      let hi := s.rd (Reg.LNK_IDHI_IDHI p j)
      let a := 0x30000000 + 4 * (g * 32)
      if (lo = 0 ∧ hi = 0) ∨ (s.memRead a 4 = lo ∧ s.memRead (a + 4) 4 = hi) then
        let s := (s.putPt g { n with stage := 3 }).set1 (Reg.LNK_NODE_IDOK p j)
        let s := if s.dualHere p then s.set1 (Reg.LNK_NODE_IDOK (s.rd (Reg.LNK_CFG_PEER p)) j) else s
        if s.lstate p = lAdmit ∨ s.lstate p = lUp ∨ s.lstate p = lDegraded then s.startAdmit p j else s
      else s.idError p 1 j
  | 4 => s.putPt g { n with stage := if ok then 5 else 7 }
  | 5 => s.putPt g { n with stage := if ok then 6 else 7 }
  | 8 =>
    let here := ok && s.memRead (0x30000000 + 4 * (g * 32 + 6)) 4 = 2 ^ 31 + s.rd (Reg.LNK_CFG2_CSIG p)
    s.putPt g { n with stage := if here then 0 else 4 }
  | _ => s

/-- Write a word of the point mirror (R234). -/
def State.mirrorPut (s : State) (a v : Nat) : State := (s.memWrite (0x30000000 + 4 * a) 4 v).putUpset 3 a 0

/-- Record a failed point operation (LNKn_PERR). -/
def State.pointErr (s : State) (p kind a : Nat) : State := (s.wr (Reg.LNK_PERR_KIND p) kind).wr (Reg.LNK_PERR_ADDR p) a

/-- A reply of the node in slot `j` (R234): it counts where RVALID is set and RTAG matches the operation on its way from this port. -/
def State.pointReply (s : State) (p j st data : Nat) : State :=
  let g := s.portIndex p j
  let n := s.pt g
  match n.op with
  | none => s
  | some o =>
    if o.port ≠ p ∨ stBit st 15 = false ∨ bitsOf st 14 1 ≠ o.tag then s
    else
      let s := s.putPt g { n with op := none }
      let a := g * 32 + o.point
      let ok := !stBit st 13
      let s := if ok then s.mirrorPut a data else (s.set1 (Reg.LNK_ALRM_PTERR p)).pointErr p 1 a
      if o.bring then s.stageReply n.owner j ok else s

/-! ## A received frame (R212, R219, R221, R230, R239, R240) -/

/-- Telemetry and status of a node for the modulator (R180, R181, R230). -/
def State.telemetry (s : State) (g st vcap aux : Nat) : State :=
  if s.flag (Reg.MOD_SM_PRESENT g) = false ∨ s.regionOn .mod = false then s
  else
    let s := s.wr (Reg.MOD_SM_BYPASSED g) (if stBit st 5 then 1 else 0)
    let s := s.setMod { s.mod with faults := spSet s.mod.faults g (if stBit st 4 then 1 else 0) 0 }
    let s := if stBit st 4 then s.set1 (Reg.MOD_SM_FAULTY g) else s
    if st % 16 = 4 ∨ st % 16 = 5 then
      let old := (spFind s.mod.tel g).getD ⟨0, 0, 0, 0, 0, true⟩
      (s.setMod { s.mod with tel := spPut s.mod.tel g { old with vcap := signed 16 vcap, aux := signed 16 aux, fresh := true } }).set0 (Reg.MOD_SM_STALE g)
    else s

/-- A node that rejects the holder's epoch in four frames in a row, while no frame with a higher one has arrived on the ports (R257). -/
def State.epochLow (s : State) (g st : Nat) : State :=
  let n := s.pt g
  let k := if stBit st 7 && stBit st 8 then n.eprej + 1 else 0
  let s := s.putPt g { n with eprej := min k 4 }
  if 4 ≤ k ∧ s.mir.holds ∧ s.mir.portEpoch ≤ s.rd Reg.MIR_EPOCH_EPOCH then s.set1 Reg.MIR_ALRM_EPLOW else s

/-- A node reached only after the port's RANGE is checked and admitted with the rest (R238); one that has returned is checked and admitted again
with AUTOADM = 1 (R239). -/
def State.returning (s : State) (p j st : Nat) : State :=
  let g := s.portIndex p j
  let n := s.pt g
  let stage := if n.stage = 7 ∧ (st % 16 = 1 ∨ st % 16 = 2) then 0 else n.stage
  if s.lstate p = lIdcheck ∨ s.lstate p = lAdmit then
    if n.stage ≠ 0 then s
    else if s.flag (Reg.LNK_NODE_IDOK p j) = false then s.startStage p g
    else if s.lstate p = lAdmit ∧ stBit st 7 = false then s.putPt g { n with stage := 4, owner := p }
    else s
  else if s.lrd (Reg.LNK_CTRL_AUTOADM p) = 1 ∧ (s.lstate p = lUp ∨ s.lstate p = lDegraded) ∧ stBit st 7 = false then
    if stage = 0 ∧ stBit st 6 = true then s.putPt g { n with stage := 1, owner := p } else s.putPt g { n with stage := stage }
  else s

/-- One slot of a received frame. -/
def State.uplink (p : Nat) (f : List Nat) (h : Nat) (s : State) (j : Nat) : State :=
  let g := s.portIndex p j
  let l := frameSlot f j
  let s := s.wr (Reg.LNK_NODE_INDEX p j) g
  if slotReached h j = false then s.set0 (Reg.LNK_NODE_REACHED p j)
  else
    let s := s.set1 (Reg.LNK_NODE_REACHED p j)
    if slotOk g true l = false then s.addSat (Reg.LNK_CNT_SLOTERR p) 1
    else
      let w := leNat l
      let st := bitsOf w 0 16
      let s := (s.wr (Reg.LNK_NODE_STATUS p j) st).telemetry g st (bitsOf w 16 16) (bitsOf w 32 16)
      let s := if stBit st 9 then s.set1 (Reg.LNK_ALRM_LATEAPPLY p) else s
      let s := ((s.epochLow g st).pointReply p j st (bitsOf w 48 32)).returning p j st
      let n := s.pt g
      if n.stage = 6 ∧ stBit st 7 = true then (s.putPt g { n with stage := 0 }).set1 (Reg.LNK_NODE_ADMITTED p j)
      else if stBit st 7 = false then s.set0 (Reg.LNK_NODE_ADMITTED p j) else s

/-- Where the frame starts of a shadow lie against the partner's (R258): NEXT of trigger 0 moves by at most one tick a frame, and the
frame number follows. -/
def State.shadowAlign (s : State) (p h : Nat) : State :=
  let t := hPeriod h * 500
  if s.mode ≠ mShadow ∨ t = 0 then s
  else
    let start := hApply h + 2 ^ 34 - (1 + s.rd (Reg.LNK_CFG_LAT p)) * t
    let half : Int := (t / 2 : Nat)
    let d := diff32 (s.rd (Reg.PTP_TRGNEXT_NEXT 0)) (start % 2 ^ 32)
    let off := (d + half) % (t : Nat) - half
    let k := (diff32 s.frm.t0 (start % 2 ^ 32) + half) / (t : Nat)
    let s := (s.wr Reg.MQT_LFRAME_NOW (pattern 16 ((hFrame h : Nat) + k))).setMir { s.mir with heard := s.clk.ticks }
    if -2 ≤ off ∧ off ≤ 2 then s.set1 Reg.MIR_STAT_ALIGNED
    else
      let s := s.set0 Reg.MIR_STAT_ALIGNED
      if s.mir.corrected then s
      else
        (s.wr (Reg.PTP_TRGNEXT_NEXT 0) (if 0 < off then s.rd (Reg.PTP_TRGNEXT_NEXT 0) + 2 ^ 32 - 4 else s.rd (Reg.PTP_TRGNEXT_NEXT 0) + 4)).setMir
          { s.mir with corrected := true }

/-- What a pair member takes from a frame of its partner (R250, R251, R254, R258). -/
def State.partnerFrame (s : State) (p h : Nat) : State :=
  let e := hEpoch h
  let s := s.seePartner
  let s := if hActive h && decide (s.rd Reg.MIR_EPSEEN_EPSEEN ≤ e) then s.setMir { s.mir with active := some s.clk.ticks } else s
  let s := s.seeEpoch e
  let s := if hActive h then s.higherEpoch e else s
  s.shadowAlign p h

/-- REACH, RT and FOLD of a correct frame, and the runs that bring-up and breaks are judged by (R238, R239). -/
def State.reach (s : State) (p h rt : Nat) : State :=
  let x := s.port p
  let n := hHops h
  let same := s.rd (Reg.LNK_REACH_REACH p) = n
  let x := { x with good := x.good + 1, steady := if same then x.steady + 1 else 1 }
  let x := if x.base ≤ n then { x with base := n, low := 0 } else { x with low := if same then x.low + 1 else 1 }
  let s := ((s.putPort p x).wr (Reg.LNK_REACH_REACH p) n).wr (Reg.LNK_RT_RT p) rt
  let s := s.wr (Reg.LNK_STAT_FOLDED p) (if hFold h then 1 else 0)
  let drift := ((rt : Nat) : Int) - (x.refRt : Nat)
  if (s.lstate p = lUp ∨ s.lstate p = lDegraded) ∧ (s.lrd (Reg.LNK_RTLIM_RTLIM p) : Int) < drift.natAbs then
    s.set1 (Reg.LNK_ALRM_RTDRIFT p)
  else s

/-- A received frame failed its CRC-32C or its HCRC: no field of it is used (R212). -/
def State.badFrame (s : State) (p : Nat) : State :=
  let s := (s.set1 (Reg.LNK_ALRM_CRCERR p)).addSat (Reg.LNK_CNT_CRCERR p) 1
  s.putPort p { s.port p with good := 0, steady := 0 }

/-- SWAP is detected (R239). -/
def State.swapError (s : State) (p : Nat) : State := (s.set1 (Reg.LNK_ALRM_SWAP p)).lnkError p

/-- Whether the port receives: EN set or its last frame in flight, region on, receiver aligned. -/
def State.portHears (s : State) (p : Nat) : Bool :=
  s.regionOn (blockRegion (lnkBlock p)) && (s.rd (blockState (lnkBlock p)) = stRunning || s.rd (blockState (lnkBlock p)) = stStopping)
    && (s.port p).aligned

/-- A frame arrives at port `p`. -/
def State.linkReceive (s : State) (p : Nat) (f : List Nat) (rt : Nat) : State :=
  if s.portHears p = false then s
  else
    let h := leNat (f.take 32)
    if (frameCrcOk f && hcrcOk h) = false then s.badFrame p
    else if bitsOf h 197 10 ≠ bitsOf (s.chainBits p) 197 10 then s.idError p 3 0
    else if hHops h = 0 ∧ hEnd h = s.rd (Reg.LNK_CFG_END p) then s.swapError p
    else
      let s := s.reach p h rt
      let s := (s.seeEpoch (hEpoch h)).setMir { s.mir with portEpoch := max s.mir.portEpoch (hEpoch h) }
      let s := if s.paired && hEnd h != s.rd (Reg.LNK_CFG_END p) then s.partnerFrame p h else s
      ((List.range (s.nslot p)).foldl (State.uplink p f h) s).lnkSettle p

/-! ## Alignment, range, breaks (R206, R237 to R239) -/

/-- The receiver of port `p` acquires alignment: DOWN becomes ALIGN (R206, R238, R239). -/
def State.rxAlign (s : State) (p : Nat) (invert : Bool) : State :=
  let s := if invert then s.wr (Reg.LNK_STAT_RXPINV p) (1 - s.rd (Reg.LNK_STAT_RXPINV p)) else s
  (s.putPort p { s.port p with aligned := true, good := 0, steady := 0 }).tryAlign p

/-- The receiver of port `p` loses alignment (R239): its bring-up ends, with the reads on their way. ERROR stays: only RESTART or an EN cycle ends it (R238). -/
def State.rxLos (s : State) (p : Nat) : State :=
  let x := s.port p
  if x.aligned = false then s
  else
  let s := s.putPort p { x with aligned := false, good := 0, steady := 0, lost := true }
  if s.works (lnkBlock p) then
    let s := (s.set1 (Reg.LNK_ALRM_LOS p)).endStages p
    if s.lstate p = lError then s else s.wr (Reg.LNK_STAT_LSTATE p) lDown
  else s

/-- The longest RT that the declared fibre explains, in 0.05 ns (R238). -/
def State.rtLimit (s : State) (p : Nat) : Nat := (s.nslot p * 40 + 2 * s.rd (Reg.LNK_CFG_FIBMAX p) * 10 * 5 + 100) * 20

/-- RANGE ends (R238): the range checks, then IDCHECK. -/
def State.rangeEnd (s : State) (p : Nat) : State :=
  let n := s.rd (Reg.LNK_REACH_REACH p)
  let reached := s.reachedSlots p
  if s.lstate p ≠ lRange ∨ (s.port p).steady < 16 ∨ reached.any (fun j => !stBit (s.rd (Reg.LNK_NODE_STATUS p j)) 6) then s
  else if s.nslot p < n then (s.set1 (Reg.LNK_ALRM_COUNT p)).lnkError p
  else if s.rtLimit p < s.rd (Reg.LNK_RT_RT p) then (s.set1 (Reg.LNK_ALRM_LONG p)).lnkError p
  else
    let s := if n = s.nslot p then s else s.set1 (Reg.LNK_ALRM_COUNT p)
    let s := (s.wr (Reg.LNK_REACH_REF p) n).putPort p { s.port p with refRt := s.rd (Reg.LNK_RT_RT p), base := n, low := 0 }
    let s := reached.foldl (fun s j =>
      (s.set0 (Reg.LNK_NODE_IDOK p j)).startStage p (s.portIndex p j)) (s.endStages p)
    (s.wr (Reg.LNK_STAT_LSTATE p) lIdcheck).lnkSettle p

/-- Bring-up starts again: admission records cleared (R238). -/
def State.bringUp (s : State) (p : Nat) : State :=
  let s := (List.range (s.nslot p)).foldl (fun s j =>
    ((s.endStage p (s.portIndex p j)).set0 (Reg.LNK_NODE_IDOK p j)).set0 (Reg.LNK_NODE_ADMITTED p j)) s
  let s := s.putPort p { s.port p with good := 0, steady := 0, lost := false }
  s.wr (Reg.LNK_STAT_LSTATE p) (if s.works (lnkBlock p) && (s.port p).aligned then lAlign else lDown)

/-- EN of port `p` is set: bring-up starts, and the first frame is that of the next frame start (R238). -/
def State.linkBegin (s : State) (p : Nat) : State := (s.putPort p { s.port p with due := false, idling := true }).bringUp p

/-! ## Meanings -/

/-- LINK_FRAME_LAUNCH (R215). -/
def execLinkFrameLaunch (p : Fin 32) (bad : List (Fin 512)) (s : State) : Result := done (s.launch p (bad.map Fin.val))

/-- LINK_FRAME_RECEIVED (R212). `ret` tells how the frame was framed; what it brings is in its header. -/
def execLinkFrameReceived (p : Fin 32) (_ret : Bool) (f : List Byte) (rt : BitVec 24) (s : State) : Result :=
  done (s.linkReceive p (f.map BitVec.toNat) rt.toNat)

/-- LINK_RX_ALIGN (R206). -/
def execLinkRxAlign (p : Fin 32) (invert : Bool) (s : State) : Result := done (s.rxAlign p invert)

/-- LINK_RX_LOS (R239). -/
def execLinkRxLos (p : Fin 32) (s : State) : Result := done (s.rxLos p)

/-- LINK_RANGE_START (R238): eight frames with a correct CRC-32C in ALIGN. -/
def execLinkRangeStart (p : Fin 32) (s : State) : Result :=
  done (if s.lstate p = lAlign ∧ 8 ≤ (s.port p).good then
    (s.putPort p { s.port p with steady := 0 }).wr (Reg.LNK_STAT_LSTATE p) lRange else s)

/-- LINK_IDCHECK_START (R238). -/
def execLinkIdcheckStart (p : Fin 32) (s : State) : Result := done (s.rangeEnd p)

/-- RESTART (R238). -/
def execRestart (m : Master) (p : Fin 32) (s : State) : Result := done (s.gate m true (lnkBase p) (fun s => s.bringUp p))

/-- LINK_BREAK (R239): two consecutive frames with one REACH below that before. -/
def execLinkBreak (p : Fin 32) (s : State) : Result :=
  done (if (s.lstate p = lUp ∨ s.lstate p = lDegraded) ∧ 2 ≤ (s.port p).low then
    ((s.set1 (Reg.LNK_ALRM_BREAK p)).wr (Reg.LNK_STAT_LSTATE p) lDegraded).putPort p
      { s.port p with base := s.rd (Reg.LNK_REACH_REACH p), low := 0 }
  else s)

/-- LINK_SWAP_DETECTED (R239). -/
def execLinkSwapDetected (p : Fin 32) (s : State) : Result := done (if s.works (lnkBlock p) then s.swapError p else s)

/-- POINT_MIRROR_WRITE (R233, R234). -/
def execPointMirrorWrite (m : Master) (a : BitVec 18) (v : Word) (s : State) : Result :=
  let ad := 0x30000000 + 4 * a.toNat
  let g := a.toNat / 32
  done (s.gate m true ad (fun s =>
    if s.flag (Reg.MOD_SM_PRESENT g) = false then s.perr peState m ad
    else
      let n := s.pt g
      if 4 ≤ n.queue.length then
        ((s.set1 (Reg.LNK_ALRM_PQFULL (g / 256))).pointErr (g / 256) 3 a.toNat).perr peState m ad
      else (s.putPt g { n with queue := n.queue ++ [(a.toNat % 32, v.toNat)] }).countPend (g / 256)))

/-- POINT_REPLY_TIMEOUT (R234): four frames without a matching reply. -/
def execPointReplyTimeout (j : Fin 8192) (s : State) : Result :=
  let n := s.pt j
  done (match n.op with
    | none => s
    | some o =>
      if o.again = true ∨ o.age < 4 then s
      else if o.tries < 3 then s.putPt j { n with op := some { o with tries := o.tries + 1, again := true } }
      else
        let p := o.port
        let s := (s.putPt j { n with op := none }).set1 (Reg.LNK_ALRM_PTIMEOUT p)
        let s := (s.pointErr p 2 (j.val * 32 + o.point)).addSat (Reg.LNK_PSTAT_PTOUT p) 1
        if o.bring then
          (match (List.range (s.nslot n.owner)).find? (fun k => s.portIndex n.owner k = j.val) with
            | some k => (s.stageReply n.owner k false).lnkSettle n.owner
            | none => s)
        else s)

end Sys2Proof.Machine
end

