-- ==== Sys2Proof/Machine/Regions.lean ====
section
/-! DEFINITION. Powering, isolating and resetting a region (R16, R20, R48, R49), and clearing and setting EN of a block (R45, R46). -/

namespace Sys2Proof.Machine

/-! ## Regions -/

/-- The region whose blocks own timer `k`. -/
def timerRegion (k : Nat) : Option Region :=
  if k < 300 then some .sup
  else if k < 320 then some .acq
  else if k < 330 then some .net
  else if k < 340 then some .acq
  else if k < 350 then some .net
  else if k < 360 then some .frm
  else if k < 370 then some .mod
  else if k < 380 then some .net
  else if 400 ≤ k ∧ k < 450 then some .grd
  else if 500 ≤ k ∧ k < 560 then some .sup
  else none

/-- Set or clear a region's ON, and ISO against it (SUP_RGN_STAT). -/
def State.setOn (s : State) (r : Region) (on : Bool) : State :=
  (s.wrBit Reg.SUP_RGN_STAT_ON (regionBit r) on).wrBit Reg.SUP_RGN_STAT_ISO (regionBit r) (!on)

/-- Whether a link port belongs to LKA (`a`) or LKB. -/
def lnkSide (a : Bool) (p : Nat) : Bool := if a then decide (p < 16) else decide (16 ≤ p)

/-- The link ports and point channels of LKA (`a`) or LKB at their reset. -/
def State.lnkReset (s : State) (a : Bool) : State :=
  s.setLnk { s.lnk with ports := s.lnk.ports.filter (fun e => !lnkSide a e.1),
                        points := s.lnk.points.filter (fun e => !lnkSide a (e.1 / 256)),
                        bad := s.lnk.bad.filter (fun e => !lnkSide a (e.1 / 512)) }

/-- What the blocks of a region hold beside their registers, at reset. After a reset of SUP core 0 starts in the boot ROM (R365), and a fuse
command in progress goes on, as FUSEBUSY says; the recorder that a tamper erase has stopped stays so (R325). -/
def State.innerReset (s : State) (r : Region) : State :=
  let s := s.setClk { s.clk with timers := s.clk.timers.filter (fun e => timerRegion e.1 != some r) }
  match r with
  | .sup => (((s.setSup { Sup.reset with msiOn := s.sup.msiOn, msiOff := s.sup.msiOff, rr := s.sup.rr }).setBst Bst.reset).setMqt
      { s.mqt with staged := none }).wr (coreState 0) 1
  | .net =>
    let s := (s.setNet Net.reset).setMir { Mir.reset with list := s.mir.list, digest := s.mir.digest, held := s.mir.held, frameTick := s.mir.frameTick }
    ((s.setClk { s.clk with time := 0, inc := 4 * 2 ^ 32 }).setSup { s.sup with msiOn := false, msiOff := [] }).svUnbound
  | .acq => ((s.setAcq Acq.reset).setAng Ang.reset).setCst { Cst.reset with dead := s.cst.dead }
  | .frm => ((s.setFrm Frm.reset).setPrf []).setArm Arm.reset
  | .mod => s.setMod Mod.reset
  | .lka => s.lnkReset true
  | .lkb => s.lnkReset false
  | .grd => (s.setBrg Brg.reset).setSaf Saf.reset

/-- The links that end with NET: the PCIe link, whose loss resets master 0 (R363, R385, R388), and the mirror link, whose loss releases the
semaphores of master 6 (R388). -/
def State.linksLost (s : State) : State :=
  let s := if s.flag Reg.NET_PCIE_LINKUP then s.masterReset 0 else s
  if s.rd Reg.MIR_STAT_LANES = 0 then s else s.semMasterReset 6

/-- The registers of a region, its latched copies, its crossbar's pointer and its blocks are reset (R16). -/
def State.resetRegion (s : State) (r : Region) : State :=
  let s := (if r = .net then s.linksLost else s).regsOfRegion r
  let s := s.setSup { s.sup with rr := spSet s.sup.rr (regionCode r) 0 0 }
  (s.setLatch (s.latch.filter (fun e => domRegion (e.1 / 32) != some r))).innerReset r

/-- A region is isolated: it is not on, and its outputs and the signals that leave it are at their unpowered levels (R20), which the
reset values of its blocks give. The cores of an isolated SUP stand still. -/
def State.isolate (s : State) (r : Region) : State :=
  let s := (s.resetRegion r).setOn r false
  if r = .sup then s.wr (coreState 0) 0 else s

/-- A region is powered and comes up at its reset values (R49). -/
def State.powerUp (s : State) (r : Region) : State :=
  ((s.wrBit Reg.SUP_RGN_CTRL_PWR (regionBit r) true).resetRegion r).setOn r true

/-- A region is lost (R24, R446): it is isolated, recorded in LOST, and the error has the class of the region's loss. -/
def State.loseRegion (s : State) (r : Region) (kind detail addr : Nat) : State :=
  let s := s.errorRec (if lossIsD r then clsD else clsC) (regionCode r) 0 kind detail addr
  let s := (s.isolate r).wrBit Reg.SUP_RGN_STAT_LOST (regionBit r) true
  if lossIsD r then s.classDError (regionCode r) else s

/-! ## EN of a block (R44 to R46) -/

/-- The blocks whose EN always reads 1: a write is ignored. -/
def enFixed : Block → Bool
  | .mbx | .sem | .int | .rng | .mqt | .sec | .ptp => true
  | _ => false

/-- Whether a block may not be disabled in mode `m` (R93, R168, R199: forming modes; R284, R312 and MIR_: outside IDLE and MAINTENANCE). -/
def enHeld (b : Block) (m : Nat) : Bool :=
  match b with
  | .frm | .prf | .arm | .mod | .rsp => isForming m
  | .prt | .saf | .mir => !(m = mIdle || m = mMaintenance)
  | _ => false

/-- The channels of the DMA engine that still have work, by their bursts left. -/
def State.dmaBurstsLeft (s : State) (c : Nat) : Nat :=
  let w := 4 * (s.rd (Reg.DMA_CFG_BURST c) + 1)
  (s.rd (Reg.DMA_LEFT_LEFT c) + w - 1) / w

/-- The bursts that the STOPPED_PENDING channels have left (R380). -/
def State.dmaLeft (s : State) : Nat :=
  ((List.range 32).map (fun c => if s.rd (Reg.DMA_CSTAT_STATE c) = 4 then s.dmaBurstsLeft c else 0)).foldl (· + ·) 0

/-- REMAIN counts the remaining bursts of all channels, saturating (R380). -/
def State.dmaShow (s : State) : State := s.wr (blockRemain .dma) (min s.dmaLeft 0xFFFF)

/-- DMA channel `c` stops at a burst boundary, with bytes left (R380). -/
def State.dmaHalt (s : State) (c : Nat) : State :=
  if s.rd (Reg.DMA_CSTAT_STATE c) = 1 ∨ s.rd (Reg.DMA_CSTAT_STATE c) = 2 then
    (s.wr (Reg.DMA_CSTAT_STATE c) 4).setSup { s.sup with dmaEvt := spDel s.sup.dmaEvt c }
  else s

/-- The DMA engine has stopped: every channel with work outstanding is STOPPED_PENDING (R380). -/
def State.dmaStopped (s : State) : State :=
  let s := (List.range 32).foldl State.dmaHalt s
  (s.wr (blockState .dma) (if s.dmaLeft = 0 then stOff else stStopped)).dmaShow

/-- The records in ring `n` from byte `o` after RD on. -/
def State.countRecords (s : State) (n fuel o : Nat) : Nat :=
  match fuel with
  | 0 => 0
  | fuel + 1 =>
    if s.ringFill n < o + 16 then 0 else 1 + s.countRecords n fuel (o + recordBytes (leNat (s.ringBytes n o 2)))

/-- The transmit records that remain in the ring of port `p`; none where no ring names it as its consumer. -/
def State.txLeft (s : State) (p : Nat) : Nat :=
  let n := s.rd (Reg.NET_PCFG_TXRING p)
  if s.rd (Reg.RNG_CFG_CONSK n) = 1 ∧ s.rd (Reg.RNG_CFG_CONSI n) = p then s.countRecords n (s.ringFill n / 16) 0 else 0

/-- Whether no disabled port still sends a frame (R343). -/
def State.netQuiet (s : State) : Bool :=
  s.net.txCur.all (fun e => s.rd (blockEn .net) = 1 && s.flag (Reg.NET_PCFG_PEN e.1))

/-- The MACs have stopped (R343): the records left in the rings of the disabled ports whose last frame has ended, STOPPED_PENDING or OFF. -/
def State.netStopped (s : State) : State :=
  let off := s.rd (blockEn .net) = 0
  let n := ((List.range 8).map (fun p => if (off ∨ s.flag (Reg.NET_PCFG_PEN p) = false) ∧ spFind s.net.txCur p = none then s.txLeft p else 0)).foldl (· + ·) 0
  let s := s.wr (blockRemain .net) (min n 0xFFFF)
  if n ≠ 0 then s.wr (blockState .net) stStopped else if off then s.wr (blockState .net) stOff else s

/-- What NET_STAT reports of the disabled ports of an enabled NET_ (R343). -/
def State.netReport (s : State) : State := ((s.wr (blockState .net) stRunning).wr (blockRemain .net) 0).netStopped

/-- A block without queued work has completed its unit: it reports OFF (R45), with what its chapter says of the disabled block. -/
def State.blockOff (s : State) (b : Block) : State :=
  let s := s.wr (blockState b) stOff
  match b with
  | .ang => s.angStop
  | .frm => (s.setFrm { s.frm with out := s.frm.out.set 16 0 }).set0 Reg.FRM_STAT_FVALID
  | .prf => s.prfHold
  | .saf => s.allOutsOff
  | .lnk n => s.wr (Reg.LNK_STAT_LSTATE n) lDown
  | .lbr | .prt => s.pairsOff
  | _ => s

end Sys2Proof.Machine
end

