-- ==== Sys2Proof/Machine/Ride.lean ====
section
/-! DEFINITION. Ride-through exit, islands, black start and resynchronisation (04, R124 to R142), and the Pointing pulse that closes the
breaker. -/

namespace Sys2Proof.Machine

/-! ## Breaker and island (R124, R128) -/

/-- The level on the breaker's GPIO that shows it closed (`closed`) or open, by BRKPOL. -/
def State.breakerShown (s : State) (closed : Bool) : State :=
  s.setPins { s.pins with
    gpioIn := putBit s.pins.gpioIn (s.lrd Reg.FRM_SEQCTRL_BRKGPIO) (closed != (s.lrd Reg.FRM_SEQCTRL_BRKPOL = 1)) }

/-- Whether the breaker input is in use, as latched (R35, R128). -/
def State.brkEn (s : State) : Bool := s.lrd Reg.FRM_SEQCTRL_BRKEN = 1

/-- The exit of RIDE_THROUGH (R124). -/
def State.rtExit (s : State) : State :=
  if s.mode = mRideThrough ∧ s.timerOn tmRt then (s.expire tmRt (ticksMs (s.lrd Reg.FRM_RTCFG_TEXIT))).setMode s.frm.rtFrom else s

/-- FORM_GRID becomes FORM_ISLAND (R128). -/
def State.toIsland (s : State) : State := (s.setMode mFormIsland).set1 Reg.FRM_SEQSTAT_ISLANDED

/-- FORM_GRID is entered from an island: ISLANDED is cleared (R128). -/
def State.toGrid (s : State) : State := (s.setMode mFormGrid).set0 Reg.FRM_SEQSTAT_ISLANDED

/-- A condition of R128 has held for its time. -/
def State.islandDetect (s : State) (why : IslandCause) : State :=
  match why with
  | .breaker =>
    if s.brkEn = false then s
    else
      let s := s.breakerShown false
      if s.mode = mFormGrid then s.toIsland else s
  | .angle => if s.mode = mFormGrid ∧ s.timerOn tmIsAngle then (s.expire tmIsAngle (ticksMs 20)).toIsland else s
  | .deadGrid => if s.mode = mFormGrid ∧ s.timerOn tmIsDead then (s.expire tmIsDead (ticksMs 20)).toIsland else s

/-- The ticks from the pulse start to the end of R140's wait: LEAD + 100 ms. -/
def State.closeWait (s : State) : Nat :=
  ticksUs (min (s.lrd (Reg.ANG_ACPLEAD_LEAD (s.lrd Reg.FRM_SEQCTRL_RSYACP))) 500000) + ticksMs 100

/-- The breaker input has shown closed for 2 ms (R128, R140). -/
def State.breakerClosed (s : State) : State :=
  if s.brkEn = false then s
  else
    let s := s.breakerShown true
    if s.mode = mFormIsland then s.toGrid
    else if s.mode = mResync ∧ s.frm.fired ∧ s.timerOn tmClose ∧ s.timerAge tmClose ≤ s.closeWait then s.toGrid
    else s

/-- LEAD + 100 ms have passed after the pulse start (R140). -/
def State.closeTimeout (s : State) : State :=
  if s.mode = mResync ∧ s.frm.fired ∧ s.timerOn tmClose then
    let s := s.expire tmClose s.closeWait
    if s.brkEn then
      (((s.set1 Reg.FRM_SEQSTAT_CLOSEFAIL).setFrm { s.frm with fired := false }).setSub 8).startTimer tmNoArm
    else s.toGrid
  else s

/-- The grid side has been unusable for 200 ms in RESYNC (R138). -/
def State.gridTimeout (s : State) : State :=
  if s.mode = mResync ∧ s.timerOn tmGrid then (s.expire tmGrid (ticksMs 200)).setMode mFormIsland else s

/-! ## The claim logic (R129 to R136) -/

/-- Whether the bus is dead by the tracker's amplitude (R129). -/
def State.busDead (s : State) : Bool := decide (s.rd Reg.ANG_AMP_AMP * 1000 < s.lrd Reg.FRM_DEAD_DEADV * 16384)

/-- A right rotation of a 32-bit word. -/
def ror32 (w n : Nat) : Nat := (w / 2 ^ (n % 32) + w * 2 ^ (32 - n % 32)) % 2 ^ 32

/-- The slot index of the present attempt (R131). -/
def State.claimSlot (s : State) : Nat :=
  ror32 (s.rd Reg.FRM_UNIT_UNITID) (4 * s.rd Reg.FRM_SEQSTAT_ATTEMPT) % max 1 (s.lrd Reg.FRM_CLAIM_NSLOT)

/-- Whether the claim logic runs, with BSARM as latched (R35, R129). -/
def State.claims (s : State) : Bool := s.mode = mReady && s.lrd Reg.FRM_SEQCTRL_BSARM = 1 && s.worksNow .frm

/-- The device enters BLACK_START in a sub-state (R132, R133). -/
def State.blackStart (s : State) (sub : Nat) : State :=
  let s := s.setFrm { s.frm with rampN := 0, claim := sub = 4, joinMax := 0 }
  (s.setMode mBlackStart).setSub sub

/-- Whether the join conditions of R133 hold. -/
def State.joinOk (s : State) : Bool :=
  s.flag Reg.ANG_STAT_VALID && s.rd Reg.ANG_STAT_METHOD = 2
    && decide (((s.ang.outHz - fxMul s.omegaStar s.fbase).natAbs : Int) ≤ s.dfreq)

/-- A write of FRM_SEQCTRL: BSARM starts the claim logic in READY, or ends it (R129, R130). -/
def State.seqctrlWrite (s : State) (v : Nat) : State :=
  let was := s.flag Reg.FRM_SEQCTRL_BSARM
  let s := (s.wr Reg.FRM_SEQCTRL_BRKPOL (v / 2 ^ 23)).wr Reg.FRM_SEQCTRL_BRKEN (v / 2 ^ 22)
  let s := (s.wr Reg.FRM_SEQCTRL_BRKGPIO (v / 2 ^ 18)).wr Reg.FRM_SEQCTRL_RSYACP (v / 2 ^ 16)
  let s := (s.wr Reg.FRM_SEQCTRL_NOCLAIM (v / 2)).wr Reg.FRM_SEQCTRL_BSARM v
  if s.mode ≠ mReady ∨ was = s.flag Reg.FRM_SEQCTRL_BSARM then s
  else if was then ((s.stopTimer tmDeadBus).stopTimer tmSlot).setSub 0
  else (s.wr Reg.FRM_SEQSTAT_ATTEMPT 0).claimStart

/-- DEADT of consecutive dead frames have passed (R130, R131). -/
def State.deadExpiry (s : State) : State :=
  if s.claims ∧ s.rd Reg.FRM_SEQSTAT_SUB = 1 ∧ s.timerOn tmDeadBus then
    ((s.expire tmDeadBus (ticksMs (s.lrd Reg.FRM_DEAD_DEADT))).wr Reg.FRM_SEQSTAT_SLOT s.claimSlot).setSub 2
  else s

/-- The ticks of the wait in WAIT_SLOT (R131). -/
def State.slotWait (s : State) : Nat := 25000 * (s.claimSlot * s.lrd Reg.FRM_CLAIM_SLOTLEN)

/-- The slot wait ends (R131): time passes to its end. The claim is made at the first frame start at or after it (R132, `claimFrame`). -/
def State.slotExpiry (s : State) : State :=
  if s.claims ∧ s.rd Reg.FRM_SEQSTAT_SUB = 2 then
    match spFind s.clk.timers tmSlot with
    | some t => s.elapseTo (t + s.slotWait)
    | none => s
  else s

/-- 100 ms of Vm near V3 in JOIN (R134). -/
def State.joinSettle (s : State) : State :=
  if s.mode = mBlackStart ∧ s.rd Reg.FRM_SEQSTAT_SUB = 5 ∧ s.timerOn tmJoin then (s.expire tmJoin (ticksMs 100)).setSub 6 else s

/-! ## The closing pulse (R87, R140) -/

/-- A Pointing channel fires; the closing sequence notes the start of its own channel's pulse. -/
def State.acpStarts (s : State) (n : Nat) : State :=
  let closes := s.mode = mResync ∧ s.rd Reg.FRM_SEQSTAT_SUB = 9 ∧ s.lrd Reg.FRM_SEQCTRL_RSYACP = n ∧ s.acpReady n
  let s := s.acpFire n
  if closes then (s.setFrm { s.frm with fired := true }).startTimer tmClose else s

/-! ## Replacements of parameters (R108, R125) -/

/-- The replacements of VEXIT and HEXIT in use. -/
def State.rtReplaced (s : State) : Option Int × Option Int :=
  (if s.vexit = s.par Reg.FRM_RTV_VEXIT 1000 then none else some s.vexit,
   if s.hexit = s.par Reg.FRM_RTH_HEXIT 1000 then none else some s.hexit)

/-- The value to which the upper field of a pair is raised for use, where it lies below the lower (R108). -/
def State.raised (s : State) (lo hi : Fld) : Option Int := if s.lrd hi < s.lrd lo then some (s.lrd lo : Nat) else none

/-- The replacements of parameters in use: of VEXIT and HEXIT (R125), and of the upper fields of the pairs of R108. -/
def State.replaced (s : State) : List (Option Int) :=
  [s.rtReplaced.1, s.rtReplaced.2, s.raised Reg.FRM_FLIM_FMIN Reg.FRM_FLIM_FMAX, s.raised Reg.FRM_ELIM_EMIN Reg.FRM_ELIM_EMAX,
    s.raised Reg.FRM_ILIM_ILIM1 Reg.FRM_ILIM_ILIM2]

/-- At a frame start: PCLAMP where a replacement comes into use that was not in use before, another value counting as another replacement
(R108, R125, log 85); `old` is the state before the registers were latched. -/
def State.clampNote (s : State) (old : State) : State :=
  if (s.replaced.zip old.replaced).any (fun x => x.1.isSome && x.1 != x.2) then s.set1 Reg.FRM_ALRM_PCLAMP else s

/-! ## Meanings -/

/-- RIDE_THROUGH_EXIT (R124). -/
def execRideThroughExit (s : State) : Result := done s.rtExit

/-- ISLAND_DETECT (R128). -/
def execIslandDetect (why : IslandCause) (s : State) : Result := done (s.islandDetect why)

/-- BREAKER_CLOSED_DETECT (R128, R140). -/
def execBreakerClosedDetect (s : State) : Result := done s.breakerClosed

/-- BSARM_WRITE (R129). -/
def execBsarmWrite (m : Master) (v : Word) (s : State) : Result := done (s.gate m true 0x430000AC (fun s => s.seqctrlWrite v.toNat))

/-- WAIT_DEAD_EXPIRY (R130). -/
def execWaitDeadExpiry (s : State) : Result := done s.deadExpiry

/-- CLAIM_SLOT_EXPIRY (R132). -/
def execClaimSlotExpiry (s : State) : Result := done s.slotExpiry

/-- JOIN_SETTLE (R134). -/
def execJoinSettle (s : State) : Result := done s.joinSettle

/-- RESYNC_CLOSE_TIMEOUT (R140). -/
def execResyncCloseTimeout (s : State) : Result := done s.closeTimeout

/-- RESYNC_GRID_TIMEOUT (R138). -/
def execResyncGridTimeout (s : State) : Result := done s.gridTimeout

/-- ACP_FIRE (R87, R140). -/
def execAcpFire (n : Fin 4) (s : State) : Result := done (s.acpStarts n)

end Sys2Proof.Machine
end

