-- ==== Sys2Proof/Machine/Maquette.lean ====
section
/-! DEFINITION. The loader at work (14): boot loads, writing the sections, region reload, live update, fuse commands, tamper inputs and the
JTAG instruction. -/

namespace Sys2Proof.Machine

/-! ## Sources (R402, R403) -/

/-- The byte at offset `o` of the flash; an unlisted byte reads as `memDefault`. -/
def State.flashByte (s : State) (o : Nat) : Nat := (spGet s.flash o memDefault).toNat

/-- The words of SUP SRAM that `n` bytes from `a` on stand in. -/
def sramWords (a n : Nat) : List Nat := (List.range ((n + 3) / 4)).map (fun i => a / 4 * 4 + 4 * i)

/-- Whether every word of SUP SRAM from `a` on for `n` bytes can be read (R441). -/
def State.sramReads (s : State) (a n : Nat) : Bool := (sramWords a n).all (s.wordReadable 0)

/-- The loader reads `n` bytes of SUP SRAM from `a` on, through their code (R440, R441). -/
def State.sramSeen (s : State) (a n : Nat) : State := (sramWords a n).foldl (State.wordSeen 0) s

/-- `n` bytes from an address of SUP SRAM or of the flash window. -/
def State.bytesAt (s : State) (a n : Nat) : List Nat :=
  (List.range n).map (fun i => if 0x60000000 ≤ a + i then s.flashByte (a + i - 0x60000000) else (s.memByte (a + i)).toNat)

/-- The address of each place an image is read from: the two flash offsets of R402, and SUP SRAM (R403). -/
def placeAddr (place : Nat) : Nat := if place = 0 then 0x60000000 else if place = 1 then 0x60800000 else 0x10000000

/-- The limits on IMGLEN (R395). -/
def imgLimit (place : Nat) : Nat := if place ≤ 1 then 0x1000000 else 0x300000

/-- The image at an address: as many bytes as its IMGLEN says, within a limit. -/
def State.imageAt (s : State) (a limit : Nat) : List Nat :=
  let n := leNat (s.bytesAt (a + 8) 4)
  s.bytesAt a (if n ≤ limit then max n 128 else 128)

/-- The boot source by BOOT0 to BOOT2 (R402). -/
def State.bootSrc (s : State) : Nat := if 5 ≤ s.ctl.bootPins then 0 else s.ctl.bootPins

/-! ## Checking (R404) -/

/-- The firmware digest (R401). -/
def State.firmwareFail (s : State) (l : List Nat) : Option ImgFail :=
  let fw := imU l 0x20 4
  if fw = 0 ∨ sha256 (s.bytesAt (imU l 0x1C 4) fw) = beNat (imSlice l 0x28 32) then none else some ⟨0x0C, 0, 0x28⟩

/-- Every check of a full image but its source, in the order of R404. -/
def State.fullFail (s : State) (l : List Nat) (place : Nat) : Option ImgFail :=
  let closed : Bool := s.fuses.secMode = 1
  [headerFail l (imgLimit place) closed, tableFail l false, bodyFail l, signatureFail s.fuses l,
   (if imU l 0x10 4 < s.fuses.arb then some ⟨0x0B, 0, 0x10⟩ else none),
   (if structDigest l = headStruct l then none else some ⟨7, 0, 0x48⟩),
   s.firmwareFail l,
   sectionsFail l].foldl orFail none

/-- Record a failed check (R424): phase 0 BOOT, 1 LIVE, 2 RELOAD. -/
def State.mqtFail (s : State) (phase : Nat) (f : ImgFail) : State :=
  (((s.wr Reg.MQT_ERR_CODE f.code).wr Reg.MQT_ERR_TYPE f.typ).wr Reg.MQT_ERR_PHASE phase).wr Reg.MQT_ERROFS_OFS f.ofs

/-! ## Writing the sections (R404, R407 to R416) -/

/-- Section 0x01 (R408). -/
def State.loadPins (s : State) (b : List Nat) : State :=
  s.setPins { s.pins with spi0 := b.getD 4 0, uarts := b.getD 5 0,
                          gpioCfg := (List.range 16).foldl (fun m g => spSet m g (b.getD (8 + g) 0) 0) [] }

/-- Section 0x02 (R409, R355): the frame trigger and the increment. -/
def State.loadClocks (s : State) (b : List Nat) : State :=
  let s := ((s.set1 (Reg.PTP_TRGCFG_EN 0)).wr (Reg.PTP_TRGCFG_PERIOD 0) (imU b 4 2 * 125)).wr (Reg.PTP_TRGNEXT_NEXT 0) (imU b 8 4)
  ((s.wr Reg.PTP_INC_INC 4).wr Reg.PTP_INCF_INCF (imU b 12 4)).commitInc s.mode (4 * 2 ^ 32 + imU b 12 4)

/-- The port registers of section 0x04, with the latency mode and the identities of the records (R411). -/
def State.loadPort (t : Nat) (b : List Nat) (s : State) (p : Nat) : State :=
  let w := topoPort b p
  let base := lnkBase p
  let s := ((s.loadWord (base + 0x10) (w.getD 0 0)).wr (Reg.LNK_CFG_LAT p) (latMode b t)).loadWord (base + 0x14) (w.getD 1 0)
  let s := s.loadWord (base + 0x20) (w.getD 2 0)
  let sms := topoSms b
  (List.range (topoSlots b p)).foldl (fun s j =>
    let g := topoIndex b p j
    let s := s.wr (Reg.LNK_NODE_INDEX p j) g
    match sms.find? (fun x => imU x 0 2 = g) with
    | some x => (s.wr (Reg.LNK_IDLO_IDLO p j) (imU x 4 4)).wr (Reg.LNK_IDHI_IDHI p j) (imU x 8 4)
    | none => s) s

/-- The end that a member drives of every chain (R243): member 0 the A end, member 1 the B end. -/
def State.pairEnds (s : State) : State :=
  (List.range 32).foldl (fun s p =>
    if s.paired && s.rd (Reg.LNK_CFG_TOPO p) = 2 then s.wr (Reg.LNK_CFG_END p) (s.rd Reg.MIR_CFG_MEMBER) else s) s

/-- The ports of LKA (`a`) or LKB. -/
def State.loadPorts (t : Nat) (b : List Nat) (a : Bool) (s : State) : State :=
  (((List.range 32).filter (lnkSide a)).foldl (State.loadPort t b) s).pairEnds

/-- The arms and the submodules of section 0x04 (R200, R411); a value outside its range is held to it. -/
def State.loadArms (b : List Nat) (s : State) : State :=
  let s := (List.range 12).foldl (fun s a => (armRegs b a).foldl (fun s e =>
    (fieldsAt e.1).foldl (fun s f => s.wr (f.at_ e.1) (heldValue e.1 f.lo (e.2 / 2 ^ f.lo % 2 ^ f.wid)).1) s) s) s
  let s := (topoSms b).foldl (fun s x =>
    let g := imU x 0 2
    ((s.set1 (Reg.MOD_SM_PRESENT g)).wr (Reg.MOD_SM_ARM g) (x.getD 2 0)).wr (Reg.MOD_SM_TYPE g) (x.getD 3 0)) s
  (List.range 12).foldl State.cpsStored s

/-- Section 0x05 (R173): programs, data words, routes, limits. -/
def State.loadGraph (b : List Nat) (s : State) : State :=
  let ts := (graphRead b).getD []
  let routes := (graphRoutes b).foldl (fun m r =>
    let k := 4 * r.getD 0 0 + r.getD 1 0
    spPut m k (spGet m k [] ++ [8 * r.getD 2 0 + r.getD 3 0])) ([] : Sparse (List Nat))
  let place (width : Nat) (f : GraphTile → List Nat) : Sparse Nat :=
    ts.foldl (fun m t => (List.range (f t).length).foldl (fun m i => spSet m (width * t.tile + i) ((f t).getD i 0) 0) m) []
  let s := s.setArm { s.arm with routes := routes, prog := place 256 GraphTile.instrs, dat := place 1024 GraphTile.dat, shadow := [] }
  let s := s.setUpset (s.upset.filter (fun e => e.1 / 2 ^ 32 != 4 && e.1 / 2 ^ 32 != 5))
  let s := ts.foldl (fun s t => s.wrBit (Reg.ARM_TILEUSE_USE (t.tile / 32)) (t.tile % 32) true) s
  (s.wr Reg.ARM_OVR_OVRLIM (b.getD 12 0)).wr Reg.ARM_CTRL_ACLR (b.getD 13 0 % 2)

/-- Write a register image (R412). -/
def State.loadImage (b : List Nat) (s : State) : State := (regImage b).foldl (fun s e => s.loadWord e.1 e.2) s

/-- IBASE in mA is SBASE in kVA over 1.5 times VBASE in mV (R94), to the nearest unit. -/
def State.loadIbase (s : State) : State :=
  let v : Int := (s.rd Reg.FRM_VBASE_VBASE : Nat)
  if v = 0 then s else s.wr Reg.FRM_IBASE_IBASE (min 0xFFFFFFFF (rhe ((s.rd Reg.FRM_SBASE_SBASE : Nat) * 2000000000) (v * 3)).toNat)

/-- Section 0x06 in a load: the registers, and IBASE. -/
def State.loadForm (b : List Nat) (s : State) : State := (s.loadImage b).loadIbase

/-- Section 0x08 (R316): the registers, TYPE of the network input (R315), CRC2, and SAF_CTRL.EN. -/
def State.loadSafe (b : List Nat) (s : State) : State :=
  let s := (safeRegs b).foldl (fun s e => s.loadWord e.1 e.2) s
  let s := s.wr (Reg.SAF_INCFG_TYPE 8) (if s.rd Reg.SAF_NETCFG_NETID = 0 then 0 else 1)
  ((s.setSaf { s.saf with crc2 := imU b 0x4C 4 }).blockStart .saf).safStart

/-- Section 0x09 (R413): the tail, MIR_CFG with W, the lease, the snapshot period, the mirror list with its digest (R264). -/
def State.loadNet (b topo graph : List Nat) (s : State) : State :=
  let s := s.loadImage (netTail b)
  let s := ((s.wr Reg.MIR_CFG_PAIR (b.getD 4 0)).wr Reg.MIR_CFG_MEMBER (b.getD 5 0)).wr Reg.MIR_CFG_HBEN (b.getD 6 0)
  let s := (s.wr Reg.MIR_CFG_AUTORUN (b.getD 6 0 / 2)).wr Reg.MIR_CFG_W (mirW (imU topo 4 2) b)
  let s := ((s.wr Reg.MIR_LEASE_LEASE (imU b 8 2)).wr Reg.MIR_LEASE_SKEW (imU b 10 2)).wr Reg.MIR_SNAP_PERIOD (imU b 12 2)
  let s := s.setMqt { s.mqt with ssvid := imU b 16 2, ssid := imU b 18 2 }
  (s.setMir { s.mir with list := (mirList b).map leNat, digest := sha256 (topo ++ graph ++ imSlice b 24 (4 * imU b 14 2)) }).pairEnds.svUnbound

/-- Section 0x0B (R414). -/
def State.loadMbx (b : List Nat) (s : State) : State :=
  (List.range 32).foldl (fun s c => s.loadWord (0x40011000 + 0x100 * c) (imU b (4 * c) 4)) s

/-- Section 0x0C (R415). -/
def State.loadPolicy (b : List Nat) (s : State) : State :=
  s.setPolicy { access := (List.range 9).foldl (fun m k => spSet m k (imU b (4 + 4 * k) 4) 0) [], armProg := imU b 0x28 2,
                secMask := imU b 0x2A 2, dbgLvl := b.getD 0x2C 0 % 4, tamp0 := b.getD 0x2D 0, tamp1 := b.getD 0x2E 0, pflags := b.getD 0x2F 0 }

/-- Step 1 of a load: the regions of section 0x03 are powered, and NET only then stays powered (R403, R404). -/
def State.loadRegions (pwr : Nat) (s : State) : State :=
  [Region.net, .acq, .frm, .mod, .lka, .lkb, .grd].foldl (fun s r =>
    let want := bitAt pwr (regionBit r)
    if want ∧ s.regionOn r = false then s.powerUp r
    else if want = false ∧ s.regionOn r then (s.wrBit Reg.SUP_RGN_CTRL_PWR (regionBit r) false).isolate r
    else s) s

/-- What a load records of the running image. -/
def State.loadRecord (s : State) (l : List Nat) (place : Nat) : State :=
  let sects := imSects l
  let m := { s.mqt with ready := none, place := place, version := imU l 0x10 4, entry := imU l 0x18 4, digest := headStruct l, staged := none,
                        key := (imFind l 15).map (fun x => (imSlice l x.ofs 1).getD 0 0),
                        places := sects.foldl (fun p x => spPut p x.typ (x.ofs, x.len)) [],
                        digests := structTypes.foldl (fun p t => spPut p t (sha256 (imBody l t))) [],
                        form := imBody l 6, prot := imBody l 7, retBad := 0 }
  let s := s.setMqt m
  let s := (s.wr Reg.MQT_VER_VERSION (imU l 0x10 4)).wr Reg.SEC_STAT_KEYIDX (m.key.getD 0)
  let s := if m.key.isNone then s.set1 Reg.MQT_ALRM_UNSIGNED else s
  (List.range 4).foldl (fun s i => s.wr (Reg.MQT_BUILD_BUILD i) (imU l (0x68 + 4 * i) 4)) s

/-! ## Tamper inputs (R418) -/

/-- The erasure of R418: zero over SUP SRAM, capture SRAM, the point mirror and every tile data memory; every segment of the recorder is
free (R325). -/
def State.erase (s : State) : State :=
  let s := (s.setMem []).setArm { s.arm with dat := [], shadow := [] }
  let s := (s.setUpset (s.upset.filter (fun e => !([0, 2, 3, 5].contains (e.1 / 2 ^ 32))))).setSup { s.sup with resv := [] }
  let s := s.setRegs (s.regs.filter (fun e => !(decide (0x42024000 ≤ e.1 / 32) && decide (e.1 / 32 < 0x42028000))))
  ((s.wr Reg.CST_DONE_NDONE 0).setCst { s.cst with dead := true, cast := none, meas := [], await := false }).setMqt { s.mqt with erase := false }

/-- The configuration byte of a tamper input: before the policy loads, enabled, active low, logging only (R418). -/
def State.tamperCfg (s : State) (n : Nat) : Nat :=
  if s.mode = mBoot then 3 else if n = 0 then s.policy.tamp0 else s.policy.tamp1

/-- A tamper input is judged by its stable level and its configuration in force (R418): an activation is logged, and acts as the configuration
says. -/
def State.tamperSee (s : State) (n : Nat) : State :=
  let c := s.tamperCfg n
  let act := bitAt c 0 && (bitAt s.mqt.tamper (2 + n) = bitAt c 1)
  let was := bitAt s.mqt.tamper n
  let s := s.setMqt { s.mqt with tamper := putBit s.mqt.tamper n act }
  if !act || was then s
  else
    let s := (s.set1 (if n = 0 then Reg.SEC_ALRM_TAMP0 else Reg.SEC_ALRM_TAMP1)).wr (Reg.SEC_TAMPTIME_TIME n) s.now
    let s := if bitAt c 2 then s.setCtl { s.ctl with dbgClosed := true } else s
    let s := if bitAt c 3 || bitAt c 4 then s.lockDue 3 0 else s
    if bitAt c 4 then s.setMqt { s.mqt with erase := true } else s

/-- The erasure that is due is carried out, the device being in LOCKOUT (R418). -/
def State.eraseDue (s : State) : State := if s.mqt.erase ∧ s.mode = mLockout then s.erase else s

/-! ## Loading (R404) -/

/-- A full image that has passed every check is written, in the order of R404, and the device enters IDLE with core 0 at ENTRY; the tamper
inputs are judged by the policy from then on (R418). -/
def State.loadAll (s : State) (l : List Nat) (place : Nat) : State :=
  let b (t : Nat) := imBody l t
  let per := imU (b 2) 4 2 * 500
  let s := (s.loadRecord l place).loadRegions ((b 3).getD 4 0)
  let s := (s.loadPins (b 1)).loadClocks (b 2)
  let s := ((s.loadPorts per (b 4) true).loadPorts per (b 4) false).loadArms (b 4)
  let s := ((s.loadGraph (b 5)).loadForm (b 6)).loadImage (b 7)
  let s := (((s.loadNet (b 9) (b 4) (b 5)).loadImage (b 10)).loadMbx (b 11)).loadPolicy (b 12)
  let s := s.loadSafe (b 8)
  let s := if bitAt s.policy.pflags 0 then s.setFuses { s.fuses with arb := max s.fuses.arb (min 64 (imU l 0x10 4)) } else s
  let s := ((s.setMode mIdle).tamperSee 0).tamperSee 1
  (s.wr (coreState 0) 1).setSup { s.sup with coreStart := spSet s.sup.coreStart 0 (imU l 0x18 4) 0 }

/-! ## Boot (R402 to R405) -/

/-- Try the image at a place: the state with the failure recorded, or the device loaded; and whether it loaded. -/
def State.tryLoad (s : State) (place n : Nat) (readable : Bool) : State × Bool :=
  if readable = false then (s.mqtFail 0 ⟨1, 0, 0⟩, false)
  else
    let a := placeAddr place
    let l := if place ≤ 1 then s.imageAt a (imgLimit place) else s.bytesAt a n
    match s.fullFail l place with
    | some f => (s.mqtFail 0 f, false)
    | none => (s.loadAll l place, true)

/-- The boot source reported (R402): the sampled value, or PCIe and UART0 for an image that came that way where the value names none. -/
def State.setSrc (s : State) (host uart : Bool) : State :=
  let p := s.bootSrc
  s.wr Reg.MQT_STAT_SRC (if host ∧ p ≠ 2 ∧ p ≠ 4 then 2 else if uart ∧ p ≠ 3 then 3 else p)

/-- A load has failed for good (R405): the device stays in BOOT with SUP and NET powered. -/
def State.loadStays (s : State) : State :=
  let s := s.setMqt { s.mqt with ready := none, failed := true }
  if s.regionOn .net then s else s.powerUp .net

/-- Whether the loader can work: BOOT, out of the CHIP reset. -/
def State.loaderUp (s : State) : Bool := s.mode = mBoot && !s.ctl.rstLow && s.ctl.railsOk && s.ctl.pwrEn && s.regionOn .sup

/-- The load of the image that waits in SUP SRAM (R403). -/
def State.loadStagedImage (s : State) (n : Nat) : State :=
  let uart := s.mqt.uart
  let fallback := s.bootSrc = 4 ∧ s.mqt.failed
  let s := s.setSrc (!uart) uart
  let s := if fallback then s.set1 Reg.MQT_STAT_FALLBACK else s
  let s := s.sramSeen 0x10000000 (min n 0x300000)
  let r := s.tryLoad 2 n (decide (n ≤ 0x300000) && s.sramReads 0x10000000 n)
  if r.2 then r.1 else r.1.loadStays

/-- The load from flash, with the fallback image of source 0 (R402, R405). -/
def State.loadFlash (s : State) (ok okFallback : Bool) : State :=
  let s := s.setSrc false false
  let r := s.tryLoad 0 0 ok
  if r.2 then r.1
  else if s.bootSrc = 0 then
    let q := (r.1.set1 Reg.MQT_STAT_FALLBACK).tryLoad 1 0 okFallback
    if q.2 then q.1 else q.1.loadStays
  else r.1.loadStays

/-- A boot load (R404): of the image that waits in SUP SRAM, or from flash where the boot source names it and no load has failed yet. -/
def State.bootLoad (s : State) (ok okFallback : Bool) : State :=
  if s.loaderUp = false then s
  else
    match s.mqt.ready with
    | some n => s.loadStagedImage n
    | none => if s.mqt.failed ∨ s.bootSrc = 2 ∨ s.bootSrc = 3 then s else s.loadFlash ok okFallback

/-- MAQUETTE_LOAD (R404). -/
def execMaquetteLoad (ok okFallback : Bool) (s : State) : Result := done (s.bootLoad ok okFallback)

/-- A length that no source may have fails the load with SRC_READ (R403). -/
def State.srcFail (s : State) : State := (s.mqtFail 0 ⟨1, 0, 0⟩).loadStays

/-- An image of `n` bytes has arrived in SUP SRAM by PCIe or UART0, and the load starts (R403). -/
def State.imageArrived (s : State) (n : Nat) (uart : Bool) : State :=
  if n ≤ 0x300000 then s.setMqt { s.mqt with ready := some n, uart := uart } else s.srcFail

/-- MQT_HOSTGO (R403): outside BOOT the write is refused with BUSY_MODE. -/
def execMqtHostgo (m : Master) (len : Word) (s : State) : Result :=
  done (s.gate m true 0x40060034 (fun s =>
    if s.mode ≠ mBoot then s.perr peBusyMode m 0x40060034 else s.imageArrived len.toNat false))

/-- UART_IMAGE_RECEIVED (R403): the bytes lie from 0x1000_0000 on. -/
def execUartImageReceived (bytes : List Byte) (s : State) : Result :=
  done (if s.loaderUp = false ∨ (s.bootSrc ≠ 3 ∧ s.mqt.failed = false) then s
  else
    let n := bytes.length
    let s := if n ≤ 0x300000 then
        (s.memBytes 0x10000000 (bytes.map BitVec.toNat)).setUpset
          (s.upset.filter (fun e => !(decide (e.1 < 2 ^ 32) && decide (e.1 < (n + 3) / 4))))
      else s
    s.imageArrived n true)

/-- UART_IMAGE_GAP_TIMEOUT (R403). -/
def execUartImageGapTimeout (s : State) : Result :=
  done (if s.loaderUp = false ∨ (s.bootSrc ≠ 3 ∧ s.mqt.failed = false) then s else s.srcFail)

/-! ## Region reload (R407) -/

/-- The structure sections that hold a region's registers. -/
def regionSections : Region → List Nat
  | .sup => [1, 10, 11, 12]
  | .net => [2, 4, 5, 9]
  | .acq => []
  | .frm => [5]
  | .mod => [4]
  | .lka | .lkb => [2, 4]
  | .grd => [8]

/-- A body of the running image, read again from where it was loaded. -/
def State.reread (s : State) (t : Nat) : List Nat :=
  match spFind s.mqt.places t with
  | some x => s.bytesAt (placeAddr s.mqt.place + x.1) x.2
  | none => []

/-- The registers of a region are written again (R407), its live sections from the bodies last committed. -/
def State.rewrite (s : State) (r : Region) : State :=
  match r with
  | .sup => ((s.loadPins (s.reread 1)).loadImage (s.reread 10)).loadMbx (s.reread 11)
  | .net => (s.loadClocks (s.reread 2)).loadNet (s.reread 9) (s.reread 4) (s.reread 5)
  | .acq => s
  | .frm => (s.loadGraph (s.reread 5)).loadForm s.mqt.form
  | .mod => s.loadArms (s.reread 4)
  | .lka => s.loadPorts (imU (s.reread 2) 4 2 * 500) (s.reread 4) true
  | .lkb => s.loadPorts (imU (s.reread 2) 4 2 * 500) (s.reread 4) false
  | .grd => (s.loadImage s.mqt.prot).loadSafe (s.reread 8)

/-- The first structure section of a region whose re-read body differs from what was recorded at boot (R407), or the live body
that the retention memory has lost (R440). -/
def State.reloadFail (s : State) (r : Region) : Option ImgFail :=
  firstFail ((match r with
    | .frm => [(s.mqt.retBad % 2 = 0, ⟨0x30, 6, 0⟩)]
    | .grd => [(s.mqt.retBad < 2, ⟨0x30, 7, 0⟩)]
    | _ => []) ++ (regionSections r).map (fun t =>
    (decide (sha256 (s.reread t) = spGet s.mqt.digests t 0), ⟨0x30, t, (spGet s.mqt.places t (0, 0)).1⟩)))

/-- The reload of a region that has been reset (R407): rewritten and on, or RELOADERR and isolated as a lost region. Where it sets BSARM in READY,
the claim logic starts afresh (R130). -/
def State.reloadRegion (s : State) (r : Region) : State :=
  match s.reloadFail r with
  | some f => ((s.mqtFail 2 f).set1 Reg.MQT_ALRM_RELOADERR).loseRegion r kCheck 0 0
  | none =>
    let t := (s.setOn r true).rewrite r
    if r = .frm ∧ s.mode = mReady ∧ t.flag Reg.FRM_SEQCTRL_BSARM = true then (t.wr Reg.FRM_SEQSTAT_ATTEMPT 0).claimStart else t

/-! ## Live update (R420 to R423) -/

/-- LSTAGE. -/
def lsNone : Nat := 0
def lsChecking : Nat := 1
def lsStaged : Nat := 2
def lsCommitting : Nat := 3

def State.putLstage (s : State) (n : Nat) : State := s.wr Reg.MQT_STAT_LSTAGE n

/-- STAGE and COMMIT are discarded in BOOT and LOCKOUT (R423). -/
def State.liveMode (s : State) : Bool := s.mode != mBoot && s.mode != mLockout && s.mode != mHibernate

/-- A staged image is discarded (R423). -/
def State.liveAbort (s : State) : State :=
  if s.rd Reg.MQT_STAT_LSTAGE = lsNone then s
  else (((s.setMqt { s.mqt with staged := none }).putLstage lsNone).mqtFail 1 ⟨0x2F, 0, 0⟩).set1 Reg.MQT_ALRM_LIVEERR

/-- A region reset hits the region of a section that the staged image holds (R423). -/
def State.liveAbortFor (s : State) (r : Region) : State :=
  match s.mqt.staged with
  | some x => if (r = .frm ∧ x.form.isSome) ∨ (r = .grd ∧ x.prot.isSome) then s.liveAbort else s
  | none => s

/-- STAGE (R421): an earlier image is discarded and the check starts. -/
def execStage (m : Master) (s : State) : Result :=
  done (s.gate m true 0x40060024 (fun s =>
    if s.liveMode = false then s.perr peBusyMode m 0x40060024
    else if s.rd Reg.MQT_STAT_LSTAGE = lsCommitting then s.perr peState m 0x40060024
    else (s.setMqt { s.mqt with staged := none }).putLstage lsChecking))

/-- The bases that a live section 0x06 may not change (R420). -/
def State.basesKept (s : State) (b : List Nat) : Bool :=
  [0x43000010, 0x43000014, 0x4300001C].all (fun a => imageGet (regImage b) a 0 = imageGet (regImage s.mqt.form) a 0)

/-- The checks of a live image (R421): those of R395 to R401, with R420, and the sections by R412. -/
def State.liveFail (s : State) (l : List Nat) : Option ImgFail :=
  let closed : Bool := s.fuses.secMode = 1
  let live (t : Nat) : Option ImgFail := match imFind l t with | some x => imageFail t x.ofs (imBody l t) | none => none
  [headerFail l 0x10000 closed, tableFail l true, bodyFail l, signatureFail s.fuses l,
   (if imU l 0x10 4 < s.fuses.arb then some ⟨0x0B, 0, 0x10⟩ else none),
   (if headStruct l = s.mqt.digest then none else some ⟨0x2D, 0, 0x48⟩),
   s.firmwareFail l,
   live 6, (if (imFind l 6).isNone ∨ s.basesKept (imBody l 6) then none else some ⟨0x2E, 6, imOfs l 6⟩), live 7].foldl orFail none

/-- The check of a live image ends (R421): staged, or LIVEERR. -/
def State.liveChecked (s : State) : State :=
  if s.rd Reg.MQT_STAT_LSTAGE ≠ lsChecking then s
  else
    let a := s.rd Reg.MQT_LADDR_ADDR / 4 * 4
    let n := leNat (s.bytesAt (a + 8) 4)
    let inside := decide (0x10000000 ≤ a) && decide (a + min (max n 128) 0x10000 ≤ 0x10400000)
    let s := if inside then s.sramSeen a (min (max n 128) 0x10000) else s
    let fails (f : ImgFail) := ((s.mqtFail 1 f).set1 Reg.MQT_ALRM_LIVEERR).putLstage lsNone
    if inside = false ∨ s.sramReads a (min (max n 128) 0x10000) = false then fails ⟨1, 0, 0⟩
    else
      let l := s.imageAt a 0x10000
      match s.liveFail l with
      | some f => fails f
      | none =>
        let body (t : Nat) : Option (List Nat) := (imFind l t).map (fun _ => imBody l t)
        let s := s.setMqt { s.mqt with staged := some { form := body 6, prot := body 7, version := imU l 0x10 4, frame := none, late := false } }
        (if (imFind l 15).isNone then s.set1 Reg.MQT_ALRM_UNSIGNED else s).putLstage lsStaged

/-- STAGE_CHECK_COMPLETE (R421). -/
def execStageCheckComplete (s : State) : Result := done s.liveChecked

/-- COMMIT is accepted (R422): the frame it takes effect at and whether that is past are judged now, by MQT_LFRAMEAT and MQT_LFRAME.NOW as the
write finds them (log 72). -/
def State.commitAsked (s : State) : State :=
  let frame := s.rd Reg.MQT_LFRAMEAT_FRAME
  let late := s.flag Reg.MQT_LFRAMEAT_AT && decide (2 ^ 15 ≤ (frame + 2 ^ 16 - s.rd Reg.MQT_LFRAME_NOW) % 2 ^ 16)
  let waits := s.flag Reg.MQT_LFRAMEAT_AT && !late
  (s.setMqt { s.mqt with staged := s.mqt.staged.map (fun x => { x with frame := if waits then some frame else none, late := late }) }).putLstage
    lsCommitting

/-- COMMIT (R422). -/
def execCommit (m : Master) (s : State) : Result :=
  done (s.gate m true 0x40060024 (fun s =>
    if s.liveMode = false then s.perr peBusyMode m 0x40060024
    else if s.rd Reg.MQT_STAT_LSTAGE ≠ lsStaged then s.perr peState m 0x40060024
    else s.commitAsked))

/-- CANCEL (R421): an image being checked or staged is discarded. -/
def execCancel (m : Master) (s : State) : Result :=
  done (s.gate m true 0x40060024 (fun s =>
    if s.rd Reg.MQT_STAT_LSTAGE = lsCommitting then s.perr peState m 0x40060024
    else (s.setMqt { s.mqt with staged := none }).putLstage lsNone))

/-- Write the registers of a live body: of FRM_CTRL only LCOMP, VMODE and DREF (R109); BSARM of FRM_SEQCTRL starts or ends the claim logic as any
write of it does (R129, R130). -/
def State.liveWrite (s : State) (b : List Nat) : State :=
  (regImage b).foldl (fun s e =>
    if e.1 = 0x43000000 then
      (fieldsAt e.1).foldl (fun s f => if f.lo = 0 then s else s.wr (f.at_ e.1) (e.2 / 2 ^ f.lo)) s
    else if e.1 = 0x430000AC then s.seqctrlWrite e.2
    else s.loadWord e.1 e.2) s

/-- The commit at this frame start (R422): a staged image takes effect at the next frame start, or at that of its frame. -/
def State.liveCommit (s : State) : State :=
  match s.mqt.staged with
  | none => s
  | some x =>
    if s.rd Reg.MQT_STAT_LSTAGE ≠ lsCommitting then s
    else
      let now := s.rd Reg.MQT_LFRAME_NOW
      if x.frame.isSome && x.frame != some now then s
      else
        let s := if x.late then s.set1 Reg.MQT_ALRM_LCLATE else s
        let s := match x.form with | some b => (if s.regionOn .frm then s.liveWrite b else s) | none => s
        let s := match x.prot with
          | some b => (if s.regionOn .grd then (s.liveWrite b).protNew s else s)
          | none => s
        let bad := (if x.form.isSome then 0 else s.mqt.retBad % 2) + (if x.prot.isSome then 0 else s.mqt.retBad / 2 * 2)
        let s := s.setMqt { s.mqt with staged := none, form := x.form.getD s.mqt.form, prot := x.prot.getD s.mqt.prot, retBad := bad }
        ((s.wr Reg.MQT_LDONE_FRAME now).wr Reg.MQT_LVER_VERSION x.version).putLstage lsNone

/-! ## Fuses (R419) -/

/-- A fuse command is accepted in IDLE and MAINTENANCE while none runs, and then judged by `ok`; it runs until its read-back. -/
def State.fuseCmd (s : State) (m : Master) (cmd arg : Nat) (ok : State → Bool) : State :=
  s.gate m true 0x40070010 (fun s =>
    if s.idleOrMaint = false ∨ s.flag Reg.SEC_STAT_FUSEBUSY then s.perr peBusyMode m 0x40070010
    else if ok s = false then s.perr peState m 0x40070010
    else (s.setMqt { s.mqt with fuse := some (cmd, arg) }).set1 Reg.SEC_STAT_FUSEBUSY)

/-- ARB_COMMIT (R419). -/
def execArbCommit (m : Master) (s : State) : Result := done (s.fuseCmd m 1 0 (fun _ => true))

/-- KEY_REVOKE (R419): not the running image's slot, and another slot stays usable. -/
def execKeyRevoke (m : Master) (slot : Fin 4) (s : State) : Result :=
  done (s.fuseCmd m 2 slot (fun s =>
    s.mqt.key != some slot.val && (List.range 4).any (fun k => k != slot.val && s.fuses.usable k)))

/-- KEY_PROGRAM (R419): not a slot already programmed. -/
def execKeyProgram (m : Master) (slot : Fin 4) (s : State) : Result :=
  done (s.fuseCmd m 3 slot (fun s => !bitAt s.fuses.keyProg slot))

/-- CLOSE (R419): some slot is usable. -/
def execClose (m : Master) (s : State) : Result := done (s.fuseCmd m 4 0 (fun s => (List.range 4).any s.fuses.usable))

/-- The number of bits set among the low `n` of `w`. -/
def popCount (n w : Nat) : Nat := ((List.range n).filter (bitAt w)).length

/-- What a fuse command programs, without the bits in `bad` (R419): the counter gains a bit each; the hash bits and, as bit 256, the
programmed mark; the revoke bit; SECMODE. A bit that is set stays set. The second component says whether a bit that was to be programmed
failed. -/
def State.fuseProgram (s : State) (cmd arg bad : Nat) : Fuses × Bool :=
  let f := s.fuses
  match cmd with
  | 1 =>
    let n := min 64 s.mqt.version - f.arb
    ({ f with arb := f.arb + (n - popCount n bad) }, popCount n bad != 0)
  | 2 => if bitAt bad 0 then (f, true) else ({ f with keyRev := putBit f.keyRev arg true }, false)
  | 3 =>
    let word (i : Nat) := s.rd (Reg.SEC_KEYSTAGE_HASH i)
    let old (i : Nat) := spGet f.keyHash (8 * arg + i) 0
    let lost (i : Nat) := (word i &&& (bad / 2 ^ (32 * i) % 2 ^ 32)) &&& (old i ^^^ (2 ^ 32 - 1))
    let hash := (List.range 8).foldl (fun h i => spSet h (8 * arg + i) (old i ||| (word i ^^^ lost i)) 0) f.keyHash
    ({ f with keyHash := hash, keyProg := if bitAt bad 256 then f.keyProg else putBit f.keyProg arg true },
      bitAt bad 256 || (List.range 8).any (fun i => lost i != 0))
  | _ => if bitAt bad 0 then (f, true) else ({ f with secMode := 1 }, false)

/-- FUSE_COMMAND_COMPLETE (R419). -/
def execFuseCommandComplete (bad : BitVec 257) (s : State) : Result :=
  done (match s.mqt.fuse with
  | none => s
  | some c =>
    let r := s.fuseProgram c.1 c.2 bad.toNat
    let s := ((s.setFuses r.1).setMqt { s.mqt with fuse := none }).set0 Reg.SEC_STAT_FUSEBUSY
    if r.2 then s.set1 Reg.SEC_ALRM_FUSEERR else s)

/-! ## Tamper inputs and JTAG (R417, R418) -/

/-- The level of a tamper input has been stable for 10 µs, while SUP is powered (R418). -/
def State.tamperLevel (s : State) (n : Nat) (level : Bool) : State :=
  if s.regionOn .sup = false then s else ((s.setMqt { s.mqt with tamper := putBit s.mqt.tamper (2 + n) (!level) }).tamperSee n).eraseDue

/-- TAMPER_ACTIVE (R418). -/
def execTamperActive (n : Fin 2) (level : Bool) (s : State) : Result := done (s.tamperLevel n level)

/-- What the instruction register IDCODE shifts out (R417). -/
def jtagIdcode : Nat := 0x112960B3

/-- Whether the debug level lets an instruction load (R417). -/
def State.jtagAllows (s : State) (i : Jtag) : Bool :=
  match i with
  | .bypass | .idcode | .sample => true
  | .access => decide (s.debugLevel ≤ 1)
  | .debug _ => s.debugLevel = 0
  | .extest _ | .intest _ => s.debugLevel = 0 && s.mode = mBoot

/-- The JTAG instruction in force: one that the debug level no longer allows has fallen back to BYPASS (R417). -/
def State.tapNow (s : State) : Jtag := if s.jtagAllows s.pins.tap then s.pins.tap else .bypass

/-- Whether protection entry `i` is locked against a change of its address too: by itself, or by a locked TOR entry above it (log 92). -/
def CoreProt.locked (p : CoreProt) (i : Nat) : Bool :=
  bitAt (p.cfg.getD i 0) 7 || (bitAt (p.cfg.getD (i + 1) 0) 7 && p.cfg.getD (i + 1) 0 / 8 % 4 = 1)

/-- What External Debug does with a core (R370). Mode and entries are set while the core is halted; a step leaves it halted, and what the
stepped instruction accesses is a row of its own (log 92). -/
def State.coreDebug (s : State) (op : DebugOp) : State :=
  let prot (c : Nat) : CoreProt := spGet s.sup.prot c CoreProt.reset
  let put (c : Nat) (p : CoreProt) : State :=
    if s.rd (coreState c) = 2 then s.setSup { s.sup with prot := spSet s.sup.prot c p CoreProt.reset } else s
  match op with
  | .halt c =>
    let s := s.setSup { s.sup with dbgHalt := spPut s.sup.dbgHalt c 1 }
    if s.rd (coreState c) = 0 then s else s.wr (coreState c) 2
  | .resume c =>
    let s := s.setSup { s.sup with dbgHalt := spDel s.sup.dbgHalt c }
    if s.rd (coreState c) = 2 then s.wr (coreState c) (s.runState c) else s
  | .step _ => s
  | .setMode c u => put c { prot c with user := u }
  | .setPmp c i cfg a =>
    let p := prot c
    put c { p with cfg := if bitAt (p.cfg.getD i 0) 7 then p.cfg else p.cfg.set i cfg.toNat,
                   addr := if p.locked i then p.addr else p.addr.set i a.toNat }
  | .inspect c i => s.answer 7 ((prot c).addr.getD i 0)

/-- JTAG_INSTRUCTION (R417, R370). -/
def execJtagInstruction (i : Jtag) (s : State) : Result :=
  let t := s.setPins { s.pins with tap := if s.jtagAllows i then i else .bypass }
  done (match i with
    | .debug op => if s.jtagAllows i then t.coreDebug op else t
    | _ => t)

end Sys2Proof.Machine
end

