-- ==== Sys2Proof/Machine/Power.lean ====
section
/-! DEFINITION. Mode requests (R427 to R432), LOCKOUT (R436), the CHIP reset (R437), power-on, HIBERNATE and wake (R433 to R435), and the
losses of clocks and PLL lock (R42, R43). -/

namespace Sys2Proof.Machine

def tmHib : Nat := 500
def tmOff : Nat := 501

/-! ## Requests (R427 to R429) -/

def rcTransition : Nat := 1
def rcInhibit : Nat := 2
def rcBlocks : Nat := 3
def rcLinks : Nat := 4
def rcTracker : Nat := 5
def rcMallet : Nat := 6
def rcGridside : Nat := 7
def rcPending : Nat := 8

/-- The address of SUP_MODEREQ. -/
def modeReqAddr : Nat := 0x40000304

/-- A request is refused (R427): REFUSED, RTARGET, RCAUSE, and BUSY_MODE. -/
def State.refuse (s : State) (m target cause : Nat) : State :=
  (((s.set1 Reg.SUP_MODESTAT_REFUSED).wr Reg.SUP_MODESTAT_RTARGET target).wr Reg.SUP_MODESTAT_RCAUSE cause).perr peBusyMode m modeReqAddr

/-- A write of TARGET with GO (R427): LOCKOUT is always taken after BOOT; a request in BOOT or LOCKOUT, or while another waits, is refused. -/
def State.modeRequest (s : State) (m target : Nat) : State :=
  let s := s.wr Reg.SUP_MODEREQ_TARGET target
  if s.mode = mBoot ∨ s.mode = mHibernate then s.refuse m target rcTransition
  else if target = mLockout then (if s.mode = mLockout then s else s.lockDue 4 0)
  else if s.mode = mLockout then s.refuse m target rcTransition
  else if s.flag Reg.SUP_MODESTAT_PEND then s.refuse m target rcPending
  else (s.set1 Reg.SUP_MODESTAT_PEND).setCtl { s.ctl with req := some (target + 16 * m) }

/-- MODE_REQUEST (R427). -/
def execModeRequest (m : Master) (target : Fin 16) (s : State) : Result :=
  done (s.gate m true modeReqAddr (fun s => s.modeRequest m target))

/-- Row 2 of R429: every port with slots reports UP or DEGRADED. -/
def State.linksUp (s : State) : Bool :=
  (List.range 32).all (fun p => s.nslot p = 0 || s.rd (Reg.LNK_STAT_LSTATE p) = lUp || s.rd (Reg.LNK_STAT_LSTATE p) = lDegraded)

/-- Row 4 of R429; a region of NET or ACQ that has failed its logic test refuses it too (R458). -/
def State.pathRunning (s : State) : Bool :=
  [Block.frm, .prf, .arm, .mod, .rsp, .prt, .saf].all s.running
    && [Region.net, .acq].all (fun r => s.regionOn r || !s.rdBit Reg.BST_RESULT_LFAIL (regionBit r))

/-- Row 5 of R429. -/
def State.trackerReady (s : State) : Bool :=
  s.flag Reg.ANG_STAT_VALID && (s.rd Reg.ANG_STAT_METHOD = 2 || s.rd Reg.ANG_STAT_METHOD = 3)
    && decide (s.vexit ≤ fxFrom 14 (s.rd Reg.ANG_AMP_AMP : Nat))

/-- The first of the first `n` rows of R429 that fails, by its cause; 0 where all hold. -/
def State.leaveCause (s : State) (n : Nat) : Nat :=
  if s.mir.holds = false then rcMallet
  else if s.linksUp = false then rcLinks
  else if 3 ≤ n ∧ s.flag Reg.SAF_STAT_INH then rcInhibit
  else if 4 ≤ n ∧ s.pathRunning = false then rcBlocks
  else if 5 ≤ n ∧ s.trackerReady = false then rcTracker
  else 0

/-! ## The claim logic at a frame start (R130 to R133) -/

/-- Whether the device may leave READY by the claim logic: rows 1 to 4 of R429 hold (R428). -/
def State.mayLeave (s : State) : Bool := s.leaveCause 4 = 0

/-- The claim logic's judgement of a frame (R130 to R133, R428): a claim at the first frame start at or after the end of the slot wait, whose
frames were all dead, and no claim with NOCLAIM (R136); a frame that is itself live abandons the slot (log 86). -/
def State.claimFrame (s : State) : State :=
  if s.claims = false then s
  else
    match s.rd Reg.FRM_SEQSTAT_SUB with
    | 1 => if s.busDead then s.timeWhile tmDeadBus true else (s.stopTimer tmDeadBus).setSub 3
    | 2 =>
      if s.busDead = false then (s.stopTimer tmSlot).setSub 3
      else
        let s := s.timeWhile tmSlot true
        if s.slotWait ≤ s.timerAge tmSlot ∧ s.lrd Reg.FRM_SEQCTRL_NOCLAIM = 0 ∧ s.mayLeave then (s.stopTimer tmSlot).blackStart 4 else s
    | 3 =>
      if s.busDead then s.claimStart.startTimer tmDeadBus
      else if s.joinOk ∧ s.mayLeave then s.blackStart 5 else s
    | _ => s

/-- What R428 says of a request for `t` in the present mode: the cause of a refusal, or 0. A request of READY from a forming mode is a
trip, and taken. -/
def State.requestCause (s : State) (t : Nat) : Nat :=
  let m := s.mode
  if m = mIdle ∧ (t = mPrecharge ∨ t = mMaintenance) then 0
  else if (m = mMaintenance ∨ m = mPrecharge ∨ m = mReady ∨ m = mShadow) ∧ t = mIdle then
    (if m = mReady ∧ s.flag Reg.SAF_STAT_INH then rcInhibit else 0)
  else if m = mPrecharge ∧ t = mReady then s.leaveCause 2
  else if m = mReady ∧ t = mFormGrid then s.leaveCause 5
  else if m = mReady ∧ t = mFormIsland then s.leaveCause 4
  else if m = mFormIsland ∧ t = mResync then
    (if s.flag Reg.FRM_SEQSTAT_GRIDOK && decide (s.vexit ≤ fxFrom 14 (s.rd Reg.FRM_VG_VG : Nat)) then 0 else rcGridside)
  else if isForming m ∧ t = mReady then 0
  else rcTransition

/-- A request has been judged: it no longer waits. -/
def State.requestDone (s : State) : State :=
  (s.set0 Reg.SUP_MODESTAT_PEND).setCtl { s.ctl with req := none, reqWait := false, shadowDue := false }

/-- A trip that waits enters READY at the frame start (R430): sequences end, BSARM is cleared, and the Pointing channel named in RSYACP is
disarmed unless its pulse has started. -/
def State.tripEntry (s : State) : State :=
  if s.ctl.tripPend = false then s
  else
    let s := s.setCtl { s.ctl with tripPend := false }
    if (s.mode = mPrecharge ∨ isForming s.mode) = false then s
    else
      let c := s.lrd Reg.FRM_SEQCTRL_RSYACP
      let s := if (spFind s.ang.acpOn c).isSome then s else s.set0 (Reg.ANG_ACPCFG_ARMED c)
      (s.set0 Reg.FRM_SEQCTRL_BSARM).setMode mReady

/-- A request of READY that has waited for this frame start in a forming mode is a trip (R430). -/
def State.readyTrip (s : State) : State :=
  match s.ctl.req with
  | none => s
  | some r =>
    if r % 16 = mReady ∧ isForming s.mode = true ∧ s.rd Reg.BST_STAT_RUN = 0 then (s.trip Reg.SUP_TRIP_COMMAND).requestDone else s

/-- An accepted request for `t` changes the mode (R428, R432). A pair member asked for PRECHARGE that does not hold the Mallet waits by
R253, and enters SHADOW where the wait has ended so; a single device that leaves IDLE claims. -/
def State.requestGrant (s : State) (t : Nat) : State :=
  if s.mode = mIdle ∧ t = mPrecharge ∧ s.paired ∧ s.mir.holds = false then
    (if s.ctl.shadowDue then ((s.requestDone).wr Reg.MIR_STAT_ROLE 2).toShadow
     else if s.ctl.reqWait then s
     else ((s.setCtl { s.ctl with reqWait := true }).setMir { s.mir with renewSeen := false }).startTimer tmIdleWait)
  else
    let s := if s.mode = mIdle ∧ s.paired = false then s.singleClaim else s
    (s.setMode t).requestDone

/-- The request that waited before the frame start is judged against the mode then in force (`old` is the state then); a forming request in
READY under the safety inhibit is a trip too (R306); where a change of
higher rank has met the same frame, an accepted request gives way (R427, R431). While a test on command runs, it goes on waiting (R460). One
that was a trip has been carried out. -/
def State.judgeRequest (s old : State) : State :=
  match old.ctl.req with
  | none => s
  | some r =>
    if s.rd Reg.BST_STAT_RUN ≠ 0 ∨ s.ctl.req ≠ some r then s
    else
    let c := old.requestCause (r % 16)
    let s := if old.mode = mReady ∧ isForming (r % 16) = true ∧ old.flag Reg.SAF_STAT_INH = true then s.trip Reg.SUP_TRIP_INHIBIT else s
    if c ≠ 0 then (s.refuse (r / 16) (r % 16) c).requestDone
    else if s.mode ≠ old.mode then s.requestDone
    else s.requestGrant (r % 16)

/-! ## LOCKOUT (R436) -/

/-- Whether the device is in a mode after BOOT. -/
def afterBoot (m : Nat) : Bool := m != mBoot && m != mHibernate

/-- LOCKOUT ends a test on command at once (R460): the region under logic test stays isolated. -/
def State.testCut (s : State) : State :=
  if s.rd Reg.BST_STAT_RUN = 0 then s
  else
    let s := s.setBst { s.bst with lbLeft := [], lbCur := none, lbOn := false, arrays := 0, abort := false }
    let s := s.setCtl { s.ctl with drain := s.ctl.drain.filter (fun e => e.2 != 3) }
    (s.wr Reg.BST_STAT_RUN 0).set1 Reg.BST_ALRM_DONE

/-- The device enters LOCKOUT for the cause that is due (R436): recorded with its time; the link ports end (R241), Pointing pins inactive
(R88), a staged live image discarded (R423), a test on command ended (R460), the local bridges off (R271), and an erasure that waits carried out (R418). -/
def State.enterLockout (s : State) : State :=
  match s.ctl.lock with
  | none => s
  | some c =>
    if afterBoot s.mode = false then s
    else
      let s := s.setCtl { s.ctl with lock := none }
      let s :=
        if s.mode = mLockout then s
        else
          let s := ((s.set1 Reg.SUP_LOCK_VALID).wr Reg.SUP_LOCK_KIND c.1).wr Reg.SUP_LOCK_REGION c.2
          ((s.wr Reg.SUP_LOCKTIME_TIME s.now).setMode mLockout).acpOff.liveAbort.testCut
      if s.mqt.erase then s.erase else s

/-- LOCKOUT_ENTRY (R436). -/
def execLockoutEntry (s : State) : Result := done s.enterLockout

/-- REFCLK_LOST (R43, R445): class D; the PLLs run on in holdover. -/
def execRefclkLost (s : State) : Result :=
  done (if s.ctl.pwrEn = false ∨ s.ctl.refLost then s
  else
    let s := s.setCtl { s.ctl with refLost := true }
    if afterBoot s.mode then (s.errorRec clsD 0 0 kClock 0 0).lockDue 2 0 else s)

/-! ## PLLs (R42) -/

/-- The bit of a PLL among the PLLs in lock. -/
def pllBit : Pll → Nat
  | .core => 0 | .ser => 1 | .time => 2 | .sup => 3

/-- The device is out of the CHIP reset. -/
def State.outOfReset (s : State) : Bool := s.ctl.pwrEn && s.ctl.railsOk && !s.ctl.rstLow

/-- PLL_LOCK (R42, R433): once all four have locked in BOOT, core 0 starts in the boot ROM. -/
def execPllLock (p : Pll) (s : State) : Result :=
  done (if s.outOfReset = false then s
  else
    let s := s.setCtl { s.ctl with pllLock := putBit s.ctl.pllLock (pllBit p) true }
    if s.ctl.pllLock = 15 ∧ s.mode = mBoot ∧ s.rd (coreState 0) = 0 then s.coreStartAt 0 else s)

/-- PLL_LOSS_OF_LOCK (R42): after BOOT, class D for PLL_CORE, PLL_SER and PLL_TIME, and a class C error of SUP for PLL_SUP. -/
def execPllLossOfLock (p : Pll) (s : State) : Result :=
  done (if bitAt s.ctl.pllLock (pllBit p) = false then s
  else
    let s := s.setCtl { s.ctl with pllLock := putBit s.ctl.pllLock (pllBit p) false }
    if afterBoot s.mode = false then s
    else if p = .sup then (if s.regionOn .sup then s.loseRegion .sup kClock 0 0 else s)
    else (s.errorRec clsD 0 0 kClock 0 0).classDError 0)

/-! ## Resets (R16, R433, R437) -/

/-- What no reset of the device touches: the queue, true time, the counter of free values, what was sent and answered, the fuses and the
flash, the nodes, and what the pins show. -/
def State.outside (s : State) : State :=
  { State.reset with
    pending := s.pending, clk := { Clk.reset with ticks := s.clk.ticks, timers := s.clk.timers.filter (fun e => e.1 = tmOff) },
    free := s.free, bus := s.bus, sent := s.sent, fuses := s.fuses, flash := s.flash, nodes := s.nodes,
    pins := { Pins.reset with gpioIn := s.pins.gpioIn, alertLow := s.pins.alertLow, condense := s.pins.condense }, mqt := { Mqt.reset with tamper := s.mqt.tamper / 4 * 4 },
    ctl := { Ctl.reset with bootPins := s.ctl.bootPins, rstLow := s.ctl.rstLow, pwrEn := s.ctl.pwrEn, wakePin := s.ctl.wakePin,
                            railsOk := s.ctl.railsOk, refLost := false } }

/-- The CHIP reset (R16): all eight regions and every register but those of the POR domain; the memories keep their contents, and that the
device has held the Mallet in this power cycle stands (R250). -/
def State.chipReset (s : State) : State :=
  (((s.outside.setRegs s.regsOfChip.regs).setMem s.mem).setUpset s.upset).setMir { Mir.reset with held := s.mir.held }

/-- The cause of the next entry to BOOT (WAK_STAT.CAUSE): 0 POR, 1 WAKE, 2 RST_N, 3 COMMAND. -/
def State.bootCause (s : State) (c : Nat) : State := s.wr Reg.WAK_STAT_CAUSE c

/-- The release of the CHIP reset (R433): the boot pins are sampled and BOOT begins; for the PCIe sources NET is powered with SUP (R403). -/
def State.release (s : State) (boot : Nat) : State :=
  let s := s.chipReset
  let s := s.setCtl { s.ctl with bootPins := boot }
  if s.bootSrc = 2 ∨ s.bootSrc = 4 then s.powerUp .net else s

/-- CHIP_RESET (R437): with the key the chip resets into BOOT; another value is discarded. -/
def execChipReset (m : Master) (key : Word) (boot : Fin 8) (s : State) : Result :=
  done (s.gate m true 0x40000320 (fun s =>
    if key.toNat = 0xA55A then (s.bootCause 3).release boot else s))

/-- RST_N_LOW (R433): low holds the CHIP reset; its release starts BOOT when the rails are in range. -/
def execRstNLow (low : Bool) (boot : Fin 8) (s : State) : Result :=
  done (if low = s.ctl.rstLow ∨ s.ctl.pwrEn = false then s.setCtl { s.ctl with rstLow := low }
  else if low then
    let s := if s.outOfReset then s.bootCause 2 else s
    let s := s.chipReset
    s.setCtl { s.ctl with rstLow := true }
  else
    let s := s.setCtl { s.ctl with rstLow := false }
    if s.ctl.railsOk then s.release boot else s)

/-- RAIL_MONITOR_RELEASE (R433, R472): the last switched rail is in range; BOOT begins unless RST_N is still low. -/
def execRailMonitorRelease (boot : Fin 8) (s : State) : Result :=
  done (if s.ctl.pwrEn = false ∨ s.ctl.railsOk then s
  else
    let s := s.setCtl { s.ctl with railsOk := true }
    if s.ctl.rstLow then s else s.release boot)

/-- POR (R16): everything, the wake domain included; the memories have lost their contents. -/
def State.porReset (s : State) : State := s.outside

/-- POWER_ON (R433): VWAKE enters its range; PWR_EN goes high; the rails rise while the board holds RST_N low. -/
def execPowerOn (s : State) : Result :=
  let s := s.porReset
  done ((s.bootCause 0).setCtl { s.ctl with pwrEn := true, railsOk := false, rstLow := true })

/-- VWAKE_LOSS (R471): POR; nothing is powered until VWAKE returns. -/
def execVwakeLoss (s : State) : Result :=
  let s := s.porReset
  done (s.setCtl { s.ctl with pwrEn := false, railsOk := false, rstLow := true })

/-! ## HIBERNATE and wake (R434, R435) -/

/-- A link port is stopped (R241): it completes the frame in flight and reports OFF. -/
def State.lnkStop (s : State) (p : Nat) : State :=
  if s.rd (blockEn (lnkBlock p)) = 0 then s
  else
    let s := (s.wr (blockEn (lnkBlock p)) 0).wr (Reg.LNK_STAT_LSTATE p) lDown
    if s.running (lnkBlock p) then s.wr (blockState (lnkBlock p)) stStopping else s

/-- Whether a write of HIB with this key is accepted: in IDLE only (R434). -/
def State.mayHibernate (s : State) (key : BitVec 16) : Bool := s.mode = mIdle && key.toNat = 0x7A3C

/-- HIB (R434): accepted in IDLE with the key; EN of every link port is cleared. -/
def execHib (m : Master) (key : BitVec 16) (s : State) : Result :=
  done (s.gate m true 0x4F000000 (fun s =>
    if s.mayHibernate key = false then s.perr peBusyMode m 0x4F000000
    else
      let s := ((List.range 32).foldl State.lnkStop s).startTimer tmHib
      s.setCtl { s.ctl with hibPend := true }))

/-- Whether every link port reports OFF. -/
def State.portsOff (s : State) : Bool := (List.range 32).all (fun p => s.rd (blockState (lnkBlock p)) != stRunning && s.rd (blockState (lnkBlock p)) != stStopping)

/-- HIBERNATE_ENTRY (R434, R428): in IDLE, when the ports are off, or 1 ms after the write, every region is isolated, HIBERNATE is entered, HIBCNT counts
and PWR_EN falls; with the rails every register outside the wake domain is lost. -/
def execHibernateEntry (s : State) : Result :=
  done (if s.ctl.hibPend = false ∨ s.mode ≠ mIdle then s
  else
    let s := if s.portsOff then s else s.expire tmHib (ticksMs 1)
    let cnt := s.rd Reg.WAK_STAT_HIBCNT
    let wpol := s.rd Reg.WAK_CTRL_WPOL
    let cause := s.rd Reg.WAK_STAT_CAUSE
    let live := s.rd Reg.WAK_STAT_WLIVE
    let s := s.outside
    let s := (((s.wr Reg.WAK_STAT_HIBCNT (min (cnt + 1) 0xFFFF)).wr Reg.WAK_CTRL_WPOL wpol).wr Reg.WAK_STAT_CAUSE cause).wr Reg.WAK_STAT_WLIVE live
    let s := ((s.wr Reg.SUP_MODE_MODE mHibernate).wr Reg.SUP_RGN_STAT_ON 0).wr Reg.SUP_RGN_STAT_ISO 0xFF
    (s.setCtl { s.ctl with pwrEn := false, railsOk := false, rstLow := true }).startTimer tmOff)

/-- WAKE (R435): the level of the pin; in HIBERNATE an active level drives PWR_EN high, no earlier than 10 ms after it fell. -/
def execWake (level : Bool) (s : State) : Result :=
  let s := s.setCtl { s.ctl with wakePin := level }
  let active := level != s.flag Reg.WAK_CTRL_WPOL
  let s := s.wr Reg.WAK_STAT_WLIVE (if active then 1 else 0)
  done (if (active && s.mode = mHibernate && !s.ctl.pwrEn) = false then s
  else
    let s := if s.timerAge tmOff < ticksMs 10 then s.expire tmOff (ticksMs 10) else s.stopTimer tmOff
    (s.setCtl { s.ctl with pwrEn := true }).bootCause 1)

end Sys2Proof.Machine
end

