-- ==== Sys2Proof/Machine/Blocks.lean ====
section
/-! DEFINITION. Enabling and disabling blocks (R44 to R47), and powering, draining, resetting, reloading and losing regions (R48 to R50,
R407, R446). -/

namespace Sys2Proof.Machine

/-! ## EN of a block -/

/-- Whether a sequence of ADC conversions is in progress. -/
def State.seqRuns (s : State) : Bool := (List.range 4).any (fun n => spGet s.acq.seqPhase n 0 != 0)

/-- Whether a pair is in its two-step sequence (R283). -/
def State.twoStepRuns (s : State) : Bool := (List.range 12).any (fun p => (s.pair p).two != 0)

/-- EN of a block is cleared (R45): what is in progress completes first, and the block stops at once where nothing is. A block that does
not run keeps its state: a fenced one stays FENCED (R19). -/
def State.enClear (s : State) (b : Block) : State :=
  if s.rd (blockEn b) = 0 then s
  else
    let s := s.wr (blockEn b) 0
    let s := match b with | .lnk n => s.wr (Reg.LNK_STAT_LSTATE n) lDown | _ => s
    if b = .net ∧ s.rd (blockState .net) = stStopped then s.netStopped
    else if s.running b = false then s
    else
      match b with
      | .dma => if s.sup.dmaCur.isSome then s.wr (blockState .dma) stStopping else s.dmaStopped
      | .net => if s.netQuiet then s.netStopped else s.wr (blockState .net) stStopping
      | .cst => s.castStop
      | .lnk _ => s.wr (blockState b) stStopping
      | .lbr => if s.twoStepRuns then s.pairsOff.wr (blockState .lbr) stStopping else s.blockOff .lbr
      | .acq => if s.seqRuns then s else s.blockOff .acq
      | .arm => if s.flag Reg.ARM_STAT_RUN then s else s.blockOff .arm
      | .ang | .frm | .prf | .mod | .rsp => s
      | _ => s.blockOff b

/-- The unit in progress of a block with EN cleared has completed (R45). The recorder stops by its own casts (R337). -/
def State.unitComplete (s : State) (b : Block) : State :=
  let st := s.rd (blockState b)
  if b = .net ∧ s.rd (blockEn .net) = 1 ∧ (s.running .net ∨ s.rd (blockState .net) = stStopped) then s.netReport
  else if s.rd (blockEn b) = 1 ∨ (st ≠ stRunning ∧ st ≠ stStopping) ∨ s.regionOn (blockRegion b) = false then s
  else
    match b with
    | .dma => if s.sup.dmaCur.isSome then s else s.dmaStopped
    | .net => if s.netQuiet then s.netStopped else s
    | .cst => if s.cst.cast.isNone ∧ s.cst.meas = [] then s.cstStopped else s
    | .lbr => if s.twoStepRuns then s else s.blockOff .lbr
    | .acq => if s.seqRuns then s else s.blockOff .acq
    | .arm => if s.flag Reg.ARM_STAT_RUN then s else s.blockOff .arm
    | _ => s.blockOff b

/-- A stopped DMA channel waits for its next burst again, as the engine resumes with the outstanding work (R46, log 81). -/
def State.dmaGoOn (s : State) (c : Nat) : State :=
  if s.rd (Reg.DMA_CSTAT_STATE c) = 4 then s.wr (Reg.DMA_CSTAT_STATE c) 1 else s

/-- What a block does when it is enabled: from STOPPED_PENDING (`resume`) the outstanding work goes on, else it starts afresh (R46). -/
def State.blockBegin (s : State) (b : Block) (resume : Bool) : State :=
  match b with
  | .ang => s.angStart
  | .cst => (s.blockStart .cst).castStart resume
  | .saf => (s.blockStart .saf).safStart
  | .lnk n => (s.blockStart b).linkBegin n
  | .dma =>
    let s := s.blockStart .dma
    (if resume then (List.range 32).foldl State.dmaGoOn s else s).dmaShow
  | .net => ((s.blockStart .net).wr (blockRemain .net) 0).netStopped
  | _ => s.blockStart b

/-- Whether a write of a control register that leaves EN at `en` has no effect on the block at all, and the kind reported: EN = 1 before the
block has stopped (R46), and EN = 0 where the block's chapter refuses the write in the present mode (R93, R168, R199, R284, R312). -/
def State.ctrlRefused (s : State) (b : Block) (en : Bool) : Option Nat :=
  if enFixed b then none
  else if en then
    (if s.rd (blockEn b) = 0 ∧ (s.rd (blockState b) = stRunning ∨ s.rd (blockState b) = stStopping) then some peState else none)
  else if b ≠ .mir ∧ enHeld b s.mode then some peBusyMode else none

/-- A write of EN = 1 that is not refused by R46: MIR_ is enabled in IDLE and MAINTENANCE only (MIR_CTRL), a
fenced SAF_ stays fenced (R311), and the recorder refuses a configuration by R323. -/
def State.enSet (s : State) (m : Master) (b : Block) : State :=
  let st := s.rd (blockState b)
  if enFixed b ∨ s.rd (blockEn b) = 1 ∧ (b ≠ .bst ∨ st ≠ stOff) then s
  else if b = .mir ∧ s.idleOrMaint = false then s.perr peBusyMode m (blockBase b)
  else if b = .saf ∧ st = stFenced then s.wr (blockEn b) 1
  else if b = .cst ∧ s.cstRefused then (s.set1 Reg.CST_ALRM_CFGERR).perr peState m (blockBase b)
  else s.blockBegin b (decide (st = stStopped))

/-- A write of EN = 0 that the block's chapter does not refuse (R45): ignored where EN always reads 1; MIR_ is disabled in IDLE and
MAINTENANCE only (MIR_CTRL). -/
def State.enUnset (s : State) (m : Master) (b : Block) : State :=
  if enFixed b ∨ s.rd (blockEn b) = 0 then s
  else if b = .mir ∧ s.idleOrMaint = false then s.perr peBusyMode m (blockBase b)
  else s.enClear b

/-- A write of a control register, past the gate: refused whole, or carried out by `k`. -/
def State.ctrlWrite (s : State) (m : Master) (b : Block) (en : Bool) (k : State → State) : State :=
  match s.ctrlRefused b en with
  | some e => s.perr e m (blockBase b)
  | none => k s

/-- BLOCK_EN_CLEAR (R45). -/
def execBlockEnClear (m : Master) (b : Block) (s : State) : Result := 
  done (s.gate m true (blockBase b) (fun s => s.ctrlWrite m b false (fun s => s.enUnset m b)))

/-- BLOCK_EN_SET (R46). -/
def execBlockEnSet (m : Master) (b : Block) (s : State) : Result := 
  done (s.gate m true (blockBase b) (fun s => s.ctrlWrite m b true (fun s => s.enSet m b)))

/-- BLOCK_UNIT_COMPLETE (R45). -/
def execBlockUnitComplete (b : Block) (s : State) : Result := done (s.unitComplete b)

/-! ## Regions -/

def tmDrain (r : Region) : Nat := 560 + regionCode r
def tmLbist : Nat := 520
def tmMbist : Nat := 521

/-- What follows a drain: power-down, reset, logic test. -/
def drPower : Nat := 1
def drReset : Nat := 2
def drTest : Nat := 3

/-- The blocks of a region. -/
def regionBlocks : Region → List Block
  | .sup => [.mbx, .sem, .int, .dma, .rng, .mqt, .sec, .pat, .bst]
  | .net => [.net, .ptp, .svs, .mir]
  | .acq => [.acq, .ang, .cst]
  | .frm => [.frm, .prf, .arm]
  | .mod => [.mod, .rsp]
  | .lka => (List.range 16).map (fun n => .lnk (Fin.ofNat 32 n))
  | .lkb => (List.range 16).map (fun n => .lnk (Fin.ofNat 32 (n + 16)))
  | .grd => [.lbr, .prt, .saf]

/-- EN is cleared in every block of a region that has one, and the wait of up to 1 ms begins (R48). -/
def State.drainStart (s : State) (r : Region) (next : Nat) : State :=
  let s := ((regionBlocks r).filter (fun b => !enFixed b)).foldl State.enClear s
  (s.setCtl { s.ctl with drain := spPut s.ctl.drain (regionCode r) next }).startTimer (tmDrain r)

/-- Whether every block of a region reports OFF, STOPPED_PENDING or FENCED; the blocks whose EN always reads 1 are not waited for. -/
def State.drained (s : State) (r : Region) : Bool :=
  ((regionBlocks r).filter (fun b => !enFixed b)).all (fun b =>
    s.rd (blockState b) != stRunning && s.rd (blockState b) != stStopping)

/-- The wait of R48 ends: by its blocks, or by its limit of 1 ms, which records STUCK where a block still reports STOPPING. Then the
region is isolated and loses its power, is reset for its reload, or is isolated for its logic test. -/
def State.drainEnd (s : State) (r : Region) : State :=
  match spFind s.ctl.drain (regionCode r) with
  | none => s
  | some next =>
    let s :=
      if s.drained r then s.stopTimer (tmDrain r)
      else
        let s := s.expire (tmDrain r) (ticksMs 1)
        if (regionBlocks r).any (fun b => s.rd (blockState b) = stStopping) then s.wrBit Reg.SUP_RGN_STAT_STUCK (regionBit r) true else s
    let s := s.setCtl { s.ctl with drain := spDel s.ctl.drain (regionCode r) }
    if next = drPower then
      let s := s.isolate r
      if s.rdBit Reg.SUP_RGN_CTRL_PWR (regionBit r) then s.powerUp r else s
    else if next = drReset then
      let s := ((s.liveAbortFor r).resetRegion r).wrBit Reg.SUP_RGN_STAT_ON (regionBit r) false
      s.setCtl { s.ctl with reload := spPut s.ctl.reload (regionCode r) 1 }
    else ((s.isolate r).setBst { s.bst with lbOn := true }).startTimer tmLbist

/-- The address of SUP_RGN_CTRL. -/
def rgnCtrlAddr : Nat := 0x40000100

/-- A write of 0 to a region's power bit (R48, R49, R460). -/
def State.regionDown (s : State) (m : Master) (r : Region) : State :=
  if r = .sup ∨ s.rdBit Reg.SUP_RGN_CTRL_PWR (regionBit r) = false then s
  else if s.idleOrMaint = false then s.perr peBusyMode m rgnCtrlAddr
  else if s.rd Reg.BST_STAT_RUN ≠ 0 then s.perr peState m rgnCtrlAddr
  else (s.wrBit Reg.SUP_RGN_CTRL_PWR (regionBit r) false).drainStart r drPower

/-- A write of 1 to a region's power bit (R49, R460). One that comes while the region still drains takes effect when the drain ends. -/
def State.regionUp (s : State) (m : Master) (r : Region) : State :=
  if s.rdBit Reg.SUP_RGN_CTRL_PWR (regionBit r) then s
  else if s.idleOrMaint = false then s.perr peBusyMode m rgnCtrlAddr
  else if s.rd Reg.BST_STAT_RUN ≠ 0 then s.perr peState m rgnCtrlAddr
  else if (spFind s.ctl.drain (regionCode r)).isSome then s.wrBit Reg.SUP_RGN_CTRL_PWR (regionBit r) true
  else s.powerUp r

/-- The regions that own a RAM array (R440). -/
def arrayRegions : Nat → List Region
  | 0 | 1 | 10 => [.sup]
  | 2 | 6 => [.acq]
  | 4 | 5 => [.frm]
  | 7 => [.mod]
  | 3 | 8 => [.lka, .lkb]
  | 9 => [.net]
  | _ => []

/-- The region whose part of an array holds word `w`: of the point mirror and of the link buffers, LKA and LKB hold a half each (R440; log 95). -/
def wordRegions (a w : Nat) : List Region :=
  match a with
  | 3 => if w < 131072 then [.lka] else [.lkb]
  | 8 => if w < 32768 then [.lka] else [.lkb]
  | _ => arrayRegions a

/-- The regions that own an array of a mask. -/
def maskRegions (mask : Nat) : List Region :=
  [Region.sup, .net, .acq, .frm, .mod, .lka, .lkb, .grd].filter (fun r => (List.range 11).any (fun a => bitAt mask a && (arrayRegions a).contains r))

/-- Whether a test of R458 or R459 that runs has a region under test. -/
def State.underTest (s : State) (r : Region) : Bool :=
  s.rd Reg.BST_STAT_RUN != 0
    && (s.bst.lbCur = some (regionCode r) || s.bst.lbLeft.contains (regionCode r) || (maskRegions s.bst.arrays).contains r && s.regionOn r)

/-- A write of 1 to a region's reset bit (R50): the mode and the test are judged before the power (log 91). -/
def State.regionReset (s : State) (m : Master) (r : Region) : State :=
  let modes := if lossIsD r then s.idleOrMaint else s.mode != mBoot && s.mode != mHibernate
  if modes = false then s.perr peBusyMode m rgnCtrlAddr
  else if s.underTest r then s.perr peState m rgnCtrlAddr
  else if s.rdBit Reg.SUP_RGN_CTRL_PWR (regionBit r) = false then s
  else s.drainStart r drReset

/-- The loader rewrites a region that has been reset (R407). -/
def State.regionReload (s : State) (r : Region) : State :=
  if (spFind s.ctl.reload (regionCode r)).isSome then
    (s.setCtl { s.ctl with reload := spDel s.ctl.reload (regionCode r) }).reloadRegion r
  else s

/-- REGION_POWER_DOWN (R48). -/
def execRegionPowerDown (m : Master) (r : Region) (s : State) : Result := done (s.gate m true rgnCtrlAddr (fun s => s.regionDown m r))

/-- REGION_DRAIN_END (R48). -/
def execRegionDrainEnd (r : Region) (s : State) : Result := done (s.drainEnd r)

/-- REGION_POWER_UP (R49). -/
def execRegionPowerUp (m : Master) (r : Region) (s : State) : Result := done (s.gate m true rgnCtrlAddr (fun s => s.regionUp m r))

/-- REGION_RESET (R50). -/
def execRegionReset (m : Master) (r : Region) (s : State) : Result := done (s.gate m true rgnCtrlAddr (fun s => s.regionReset m r))

/-- REGION_RELOAD (R407). -/
def execRegionReload (r : Region) (s : State) : Result := done (s.regionReload r)

/-- The KIND of a region loss (R449). -/
def lossKindCode : LossKind → Nat
  | .supply => kSupply
  | .clock => kClock
  | .xbar => kXbar

/-- REGION_LOST (R446): a region that is on is lost. -/
def execRegionLost (r : Region) (k : LossKind) (s : State) : Result :=
  done (if s.regionOn r then s.loseRegion r (lossKindCode k) 0 0 else s)

end Sys2Proof.Machine
end

