-- ==== Sys2Proof/Machine/Dma.lean ====
section
/-! DEFINITION. The DMA engine's commands and its grants (R374 to R378, R380), and the device halt (R370, R285). The moves of a burst are in
Burst.lean. -/

namespace Sys2Proof.Machine

/-! ## States and codes (R380) -/

def dsWait : Nat := 1
def dsBurst : Nat := 2
def dsDone : Nat := 3
def dsStopped : Nat := 4
def dsError : Nat := 5

def deConfig : Nat := 1
def deZero : Nat := 2
def deMisalign : Nat := 3
def deOverlap : Nat := 4
def deBuserr : Nat := 5

/-- The address of a channel's command register. -/
def dmaCmdAddr (c : Nat) : Nat := 0x40040110 + 0x20 * c

/-- The state of channel `c`. -/
def State.dmaState (s : State) (c : Nat) : Nat := s.rd (Reg.DMA_CSTAT_STATE c)

/-- The bytes of a whole burst. -/
def State.dmaBurstBytes (s : State) (c : Nat) : Nat := 4 * (s.rd (Reg.DMA_CFG_BURST c) + 1)

/-- A channel is refused or halted with a code (R375, R379). -/
def State.dmaError (s : State) (c code : Nat) : State :=
  (((s.wr (Reg.DMA_CSTAT_STATE c) dsError).wr (Reg.DMA_CSTAT_ERR c) code).wrBit Reg.DMA_ERRCH_ERR c true).dmaShow

/-! ## START (R375) -/

/-- Whether the source and destination ranges of a channel share a byte; a fixed address is 4 bytes, a ring destination its buffer. -/
def State.dmaOverlap (s : State) (c : Nat) : Bool :=
  let count := s.rd (Reg.DMA_COUNT_COUNT c)
  let src := s.rd (Reg.DMA_SRC_SRC c)
  let sLen := if s.flag (Reg.DMA_CFG_SINC c) then count else 4
  let ring := s.rd (Reg.DMA_CFG_RING c)
  let d : Nat × Nat :=
    if s.flag (Reg.DMA_CFG_RINGDST c) then (s.rd (Reg.RNG_BASE_BASE ring), s.ringSize ring)
    else (s.rd (Reg.DMA_DST_DST c), if s.flag (Reg.DMA_CFG_DINC c) then count else 4)
  decide (src < d.1 + d.2) && decide (d.1 < src + sLen)

/-- The code with which START refuses a channel's configuration, in the order of R375; 0 where it is right. -/
def State.dmaRefusal (s : State) (c : Nat) : Nat :=
  let req := s.rd (Reg.DMA_CFG_REQ c)
  let ringDst := s.flag (Reg.DMA_CFG_RINGDST c)
  let ring := s.rd (Reg.DMA_CFG_RING c)
  let reserved := (decide (7 ≤ req) && decide (req ≤ 15)) || decide (32 ≤ req)
  let foreign := ringDst && !(s.rd (Reg.RNG_CFG_PRODK ring) = 2 && s.rd (Reg.RNG_CFG_PRODI ring) = c)
  let straddles := ringDst && s.ringSize ring % s.dmaBurstBytes c != 0
  if reserved ∨ foreign ∨ straddles then deConfig
  else if s.rd (Reg.DMA_COUNT_COUNT c) = 0 then deZero
  else if s.rd (Reg.DMA_SRC_SRC c) % 4 ≠ 0 ∨ s.rd (Reg.DMA_COUNT_COUNT c) % 4 ≠ 0
      ∨ ringDst = false ∧ s.rd (Reg.DMA_DST_DST c) % 4 ≠ 0 then deMisalign
  else if s.flag (Reg.DMA_CFG_ASCOVL c) = false ∧ s.dmaOverlap c then deOverlap
  else 0

/-- A channel begins afresh from its registers, or is refused (R375, R380). -/
def State.dmaFresh (s : State) (m c : Nat) : State :=
  let e := s.dmaRefusal c
  if e = 0 then
    let s := ((s.wr (Reg.DMA_CSTAT_STATE c) dsWait).wr (Reg.DMA_CSTAT_ERR c) 0).wr (Reg.DMA_LEFT_LEFT c) (s.rd (Reg.DMA_COUNT_COUNT c))
    (s.setSup { s.sup with
      dmaSrc := spPut s.sup.dmaSrc c (s.rd (Reg.DMA_SRC_SRC c)), dmaDst := spPut s.sup.dmaDst c (s.rd (Reg.DMA_DST_DST c))
      dmaEvt := spDel s.sup.dmaEvt c, dmaStop := spDel s.sup.dmaStop c }).dmaShow
  else (if e = deMisalign then s.perr peMisalign m (dmaCmdAddr c) else s).dmaError c e

/-- A write of START: it acts at once, or at the end of the channel's burst in progress (log 36). What a burst leaves to do is kept as 4 times
the master, plus 1 for a stop, 2 for a start, and 3 for a start and then a stop. -/
def State.dmaStart (s : State) (m c : Nat) : State :=
  if s.dmaState c = dsBurst then s.setSup { s.sup with dmaStop := spPut s.sup.dmaStop c (4 * m + 2) } else s.dmaFresh m c

/-- DMA_START (R375). -/
def execDmaStart (m : Master) (c : Fin 32) (s : State) : Result := done (s.gate m true (dmaCmdAddr c) (fun s => s.dmaStart m c))

/-! ## STOP, KICK, RESUME (R376, R380) -/

/-- A write of STOP: at once between bursts, after the burst within one. -/
def State.dmaStop (s : State) (c : Nat) : State :=
  if s.dmaState c = dsBurst then
    let k := spGet s.sup.dmaStop c 0
    s.setSup { s.sup with dmaStop := spPut s.sup.dmaStop c (if k % 4 = 2 then k + 1 else k - k % 4 + max 1 (k % 4)) }
  else (s.dmaHalt c).dmaShow

/-- DMA_STOP (R380). -/
def execDmaStop (m : Master) (c : Fin 32) (s : State) : Result := done (s.gate m true (dmaCmdAddr c) (fun s => s.dmaStop c))

/-- DMA_KICK (R376): an event for a SOFT channel. -/
def execDmaKick (m : Master) (c : Fin 32) (s : State) : Result :=
  done (s.gate m true (dmaCmdAddr c) (fun s => if s.rd (Reg.DMA_CFG_REQ c) = 1 then s.dmaPost c else s))

/-- DMA_RESUME (R380): a STOPPED_PENDING channel goes on; in another state the write is discarded. -/
def execDmaResume (m : Master) (c : Fin 32) (s : State) : Result :=
  done (s.gate m true (dmaCmdAddr c) (fun s =>
    if s.dmaState c = dsStopped ∧ s.works .dma = true then (s.wr (Reg.DMA_CSTAT_STATE c) dsWait).dmaShow else s.perr peState m (dmaCmdAddr c)))

/-! ## Grants (R376 to R378) -/

/-- Whether the request of a waiting channel is present. A level request is sampled again 40 ns after the channel's last burst. -/
def State.dmaRequest (s : State) (c : Nat) : Bool :=
  let req := s.rd (Reg.DMA_CFG_REQ c)
  let rested := match spFind s.sup.dmaLast c with | some t => decide (t + 10 ≤ s.clk.ticks) | none => true
  if req = 0 then true
  else if 2 ≤ req ∧ req ≤ 5 then rested && decide (s.queueWm (req - 2) ≤ s.rd (Reg.ACQ_QSTAT_FILL (req - 2)))
  else if req = 6 then rested && decide (max 1 (s.rd Reg.CST_DONE_DONEWM) ≤ s.rd Reg.CST_DONE_NDONE)
  else spGet s.sup.dmaEvt c 0 = 1

/-- The bytes of channel `c`'s next burst. -/
def State.dmaNextBytes (s : State) (c : Nat) : Nat := min (s.dmaBurstBytes c) (s.rd (Reg.DMA_LEFT_LEFT c))

/-- Whether channel `c` has a burst ready: it waits, its request is present and a destination ring has room (R377). -/
def State.dmaReady (s : State) (c : Nat) : Bool :=
  s.dmaState c = dsWait && s.dmaRequest c
    && (!s.flag (Reg.DMA_CFG_RINGDST c)
      || decide (s.dmaNextBytes c ≤ s.ringSize (s.rd (Reg.DMA_CFG_RING c)) - s.ringFill (s.rd (Reg.DMA_CFG_RING c))))

/-- The next channel with a burst ready, in round robin by channel number (R378). -/
def State.dmaPick (s : State) : Option Nat := ((List.range 32).map (fun i => (s.sup.dmaNext + i) % 32)).find? s.dmaReady

/-- A channel is granted: its burst runs, and an event request is consumed. -/
def State.dmaGrant (s : State) : State :=
  if s.works .dma = false ∨ s.sup.dmaCur.isSome ∨ s.flag Reg.SUP_DBG_HALTED then s
  else
    let s := if s.dmaPick.isNone ∧ (s.elapse 10).dmaPick.isSome then s.elapse 10 else s
    match s.dmaPick with
    | none => s
    | some c => (s.wr (Reg.DMA_CSTAT_STATE c) dsBurst).setSup { s.sup with dmaCur := some c, dmaEvt := spDel s.sup.dmaEvt c }

/-- DMA_BURST_START (R378). -/
def execDmaBurstStart (s : State) : Result := done s.dmaGrant

/-! ## Device halt (R370, R285) -/

/-- The address of SUP_DBG. -/
def dbgAddr : Nat := 0x40000280

/-- HALTREQ = 1: the cores halt, the DMA channels stop at burst ends, and the pairs freeze. -/
def State.deviceHalt (s : State) (m : Nat) : State :=
  if m ≠ 7 then (s.answerError m).perr pePolicy m dbgAddr
  else if (s.mode = mIdle ∨ s.mode = mPrecharge ∨ s.mode = mReady ∨ s.mode = mMaintenance) = false then s.perr peBusyMode m dbgAddr
  else if s.flag Reg.SUP_DBG_HALTED then s
  else
    let s := (s.set1 Reg.SUP_DBG_HALTREQ).set1 Reg.SUP_DBG_HALTED
    let s := (List.range 4).foldl (fun s c => if s.rd (coreState c) = 1 ∨ s.rd (coreState c) = 3 then s.wr (coreState c) 2 else s) s
    s.haltPairs

/-- DEVICE_HALT (R370). -/
def execDeviceHalt (m : Master) (s : State) : Result := done (s.gate m true dbgAddr (fun s => s.deviceHalt m))

/-- DEVICE_HALT_END (R370): HALTREQ = 0. -/
def execDeviceHaltEnd (m : Master) (s : State) : Result :=
  done (s.gate m true dbgAddr (fun s => if m.val ≠ 7 then (s.answerError m).perr pePolicy m dbgAddr else s.endHalt))

end Sys2Proof.Machine
end

