-- ==== Sys2Proof/Machine/Integrity.lean ====
section
/-! DEFINITION. Scrubbing (R442, R443, R454), the tests on command (R458 to R460), the transparent test (R461), and the junction
temperature and condensation (R477). -/

namespace Sys2Proof.Machine

/-- An event that recurs every `d` ticks of timer `k`: time passes to its instant and the timer starts anew. -/
def State.recur (s : State) (k d : Nat) : State := (s.expire k d).startTimer k

def tmScrub (a : Nat) : Nat := 530 + a
def tmTj : Nat := 547

/-! ## Scrubbing -/

/-- The address of word `w` of array `a`; 0 where the words have no address. -/
def wordAddr (a w : Nat) : Nat :=
  if a = 0 ∨ a = 2 ∨ a = 3 then arrayBase a + 4 * w else if a = 1 then 4 * w
  else if a = 4 then tileProgAddr (w / 256) (w % 256) else if a = 5 then tileDataAddr (w / 1024) (w % 1024) else 0

/-- The data of a word whose correction differs from what was stored by the bits `v`. -/
def State.scrubData (s : State) (a w v : Nat) : State :=
  if v = 0 then s
  else if a = 0 ∨ a = 2 ∨ a = 3 then s.memWrite (wordAddr a w) 4 (s.memRead (wordAddr a w) 4 ^^^ v)
  else if a = 4 then s.setArm { s.arm with prog := spSet s.arm.prog w (spGet s.arm.prog w 0 ^^^ v) 0 }
  else if a = 5 then s.setArm { s.arm with dat := spSet s.arm.dat w (spGet s.arm.dat w 0 ^^^ v % 65536) 0 }
  else s

/-- The live body that holds word `w` of the retention memory: section 0x06 from word 0, section 0x07 after it (log 31). -/
def State.retBody (s : State) (w : Nat) : Nat := if 4 * w < s.mqt.form.length then 1 else 2

/-- What the owner does about an uncorrectable word (R440) that the scrubber or the transparent test reads: a tile faults, ACQ_, MOD_, RSP_
or MIR_ fences, the retention memory marks the body. SUP SRAM, capture SRAM, the point mirror and the buffers of the ports keep the word for
the master, the slot, the frame or the ASDU that reads it. -/
def State.ownerActs (s : State) (a w kind : Nat) : State :=
  match a with
  | 4 => s.armFault (w / 256) (w % 256) fkEccProg (wordAddr a w)
  | 5 => s.armFault (w / 1024) 0 fkEccData (wordAddr a w)
  | 6 => s.acqEcc kind
  | 7 => s.modEcc (if w / 8192 = 3 then .rsp else .mod) kind
  | 9 => if wordBlock 9 w = .mir then (s.errorB .mir kind a 0).wr (blockState .mir) stFenced else s.errorB (wordBlock 9 w) kind a 0
  | 10 => (s.errorB .mqt kind a 0).setMqt { s.mqt with retBad := s.mqt.retBad ||| s.retBody w }
  | _ => s.errorB (wordBlock a w) kind a (wordAddr a w)

/-- Count a correction in array `a`; in a tile memory in ARM_ECCCNT too (R145, R441). -/
def State.countCorrIn (s : State) (a : Nat) : State :=
  let s := s.countCorr a
  if a = 4 ∨ a = 5 then s.addSat Reg.ARM_ECCCNT_COUNT 1 else s

/-- A correction at bit `pos` of a word: the same bit corrected by the pass before is hard, and counted once (R442). -/
def State.scrubHard (s : State) (a key pos : Nat) (old : Sparse Nat) : State :=
  match spFind old key with
  | none => s.setBst { s.bst with scrub := spPut s.bst.scrub key (2 * pos) }
  | some x =>
    if x / 2 ≠ pos then s.setBst { s.bst with scrub := spPut s.bst.scrub key (2 * pos) }
    else
      let s := s.setBst { s.bst with scrub := spPut s.bst.scrub key (2 * pos + 1) }
      if x % 2 = 1 then s else (s.addSat (Reg.BST_ECC_HARD a) 1).set1 Reg.BST_ALRM_HARD

/-- The scrubber reads one upset word (R443): a single-bit error is corrected and written back, but for array 1, where it is only
counted. -/
def State.scrubWord (a : Nat) (old : Sparse Nat) (s : State) (w : Nat) : State :=
  let p := s.upsetOf a w
  match eccRead (arrayBits a) p with
  | .good _ => s
  | .corrected v =>
    if a = 1 then s.countCorr a
    else (((s.scrubData a w v).putUpset a w 0).countCorrIn a).scrubHard a (upsetKey a w) p.log2 old
  | .bad => (s.addSat (Reg.BST_ECC_UNCORR a) 1).ownerActs a w kEcc

/-- The scrub interval after an interval in which `rise` corrections were counted (R454). An SI above SILOAD is not doubled (log 62). -/
def State.scrubAdjust (s : State) (a rise : Nat) : State :=
  if (s.flag Reg.PAT_CTRL_PLANSCR && s.works .pat) = false then s
  else
    let si := s.rd (Reg.BST_SCR_SI a)
    let quiet := if rise = 0 then spGet s.bst.quiet a 0 + 1 else 0
    let s := s.setBst { s.bst with quiet := spSet s.bst.quiet a (if quiet = 16 then 0 else quiet) 0 }
    if s.rd (Reg.BST_CTHR_CTHR a) ≤ rise then s.wr (Reg.BST_SCR_SI a) (max 10 (si / 2))
    else if quiet = 16 then s.wr (Reg.BST_SCR_SI a) (max si (min (s.rd (Reg.BST_SCR_SILOAD a)) (2 * si)))
    else s

/-- A strike before a pass over array `a`. -/
def State.strike (a : Nat) (s : State) (x : Strike) : State :=
  match x with
  | .bits w b => s.putUpset a (w % 2 ^ 32) (s.upsetOf a (w % 2 ^ 32) ^^^ b % 2 ^ (arrayBits a + hammingBits (arrayBits a) + 1))
  | .bus m => s.setSup { s.sup with busBad := spPut s.sup.busBad m.val 1 }
  | .fence prt => s.fenceD (if prt then .prt else .ptp)

/-- A scrub pass over the words of array `a` whose region is on (R443). The corrections counted since the pass before, by the blocks that
read the array and by this pass, are the rise of R454; they are counted apart from CORR, which saturates and can be written. -/
def State.scrubPass (s : State) (a : Nat) (struck : List Strike) (late : Bool) : State :=
  let s := struck.foldl (State.strike a) s
  if s.flag Reg.BST_CTRL_EN = false ∨ (arrayRegions a).any s.regionOn = false ∨ bitAt s.bst.arrays a then s
  else
    let s := s.recur (tmScrub a) (ticksMs (100 * s.rd (Reg.BST_SCR_SI a)))
    let s := if late then s.set1 Reg.BST_ALRM_SCRLATE else s
    let old := s.bst.scrub
    let s := s.setBst { s.bst with scrub := s.bst.scrub.filter (fun e => e.1 / 2 ^ 32 != a) }
    let s := ((s.upsetWords a).filter (fun w => (wordRegions a w).all s.regionOn)).foldl (State.scrubWord a old) s
    (s.setBst { s.bst with corr := spDel s.bst.corr a }).scrubAdjust a (spGet s.bst.corr a 0)

/-- SCRUB_PASS (R443). -/
def execScrubPass (a : Fin 11) (struck : List Strike) (late : Bool) (s : State) : Result := done (s.scrubPass a struck late)

/-! ## Tests on command -/

/-- The address of BST_CMD. -/
def bstCmdAddr : Nat := 0x4009000C

/-- A test on command is accepted in IDLE and MAINTENANCE (R438), with EN = 1 and no test running. -/
def State.testGate (s : State) (m : Master) (k : State → State) : State :=
  if s.idleOrMaint = false then s.perr peBusyMode m bstCmdAddr
  else if s.flag Reg.BST_CTRL_EN = false ∨ s.fenced .bst ∨ s.rd Reg.BST_STAT_RUN ≠ 0 then s.perr peState m bstCmdAddr
  else k s

/-- A test on command has ended. -/
def State.testOver (s : State) : State :=
  let s := s.setBst { s.bst with lbLeft := [], lbCur := none, lbOn := false, arrays := 0, abort := false }
  (s.wr Reg.BST_STAT_RUN 0).set1 Reg.BST_ALRM_DONE

/-- The next region of a logic test starts its drain, or the test ends (R458). -/
def State.lbNext (s : State) : State :=
  match s.bst.lbLeft with
  | [] => s.testOver
  | c :: rest =>
    let s := s.setBst { s.bst with lbLeft := rest, lbCur := some c, lbOn := false }
    match regionOf c with
    | some r => s.drainStart r drTest
    | none => s

/-- LBIST (R458): the regions of RMASK in ascending reset code, but for SUP and for those without power. -/
def execLbist (m : Master) (rmask : BitVec 8) (s : State) : Result :=
  done (s.gate m true bstCmdAddr (fun s =>
    let s := s.wr Reg.BST_CMD_RMASK rmask.toNat
    s.testGate m (fun s =>
      let l := [2, 3, 4, 5, 6, 7, 8].filter (fun c => bitAt rmask.toNat (c - 1) && s.rdBit Reg.SUP_RGN_CTRL_PWR (c - 1))
      ((s.wr Reg.BST_STAT_RUN 1).setBst { s.bst with lbLeft := l, abort := false }).lbNext)))

/-- A region is reset after a test and the loader rewrites it (R407). -/
def State.resetReload (s : State) (r : Region) : State := ((s.liveAbortFor r).resetRegion r).reloadRegion r

/-- The patterns of the region under test have ended (R458): a match resets it, a mismatch leaves it isolated and LOST; after an ABORT it
is reset without a verdict and the test ends (R460). -/
def State.lbDone (s : State) (sig : Nat) (good : Bool) : State :=
  match s.bst.lbCur.bind regionOf with
  | none => s
  | some r =>
    if s.bst.lbOn = false then s
    else
      let c := regionCode r
      let s := s.expire tmLbist (ticksMs 25)
      if s.bst.abort then (s.resetReload r).testOver
      else
        let s := s.wr (Reg.BST_LSIG_SIG (c - 1)) sig
        if good then ((s.wrBit Reg.BST_RESULT_LPASS (c - 1) true).wrBit Reg.BST_RESULT_LFAIL (c - 1) false).resetReload r |>.lbNext
        else
          let s := (s.wrBit Reg.BST_RESULT_LFAIL (c - 1) true).wrBit Reg.BST_RESULT_LPASS (c - 1) false
          let s := (s.set1 Reg.BST_ALRM_LBFAIL).errorRec clsC c 0 kLbist 0 0
          (s.wrBit Reg.SUP_RGN_STAT_LOST (regionBit r) true).lbNext

/-- LBIST_REGION_DONE (R458). -/
def execLbistRegionDone (sig : Word) (good : Bool) (s : State) : Result := done (s.lbDone sig.toNat good)

/-- The contents of an array are lost by the memory test, which ends with zeros (log 32), but for the half of a region that is not on; the
boot ROM is only read. -/
def State.wipeArray (s : State) (a : Nat) : State :=
  let on (w : Nat) : Bool := (wordRegions a w).all s.regionOn
  let s := if a = 1 then s else s.cleanWords a on
  match a with
  | 2 => s.setMem (s.mem.filter (fun c => !(decide (0x20000000 ≤ c.1) && decide (c.1 < 0x20C00000))))
  | 3 => s.setMem (s.mem.filter (fun c => !(decide (0x30000000 ≤ c.1) && decide (c.1 < 0x30100000) && on ((c.1 - 0x30000000) / 4))))
  | 4 => s.setArm { s.arm with prog := [] }
  | 5 => s.setArm { s.arm with dat := [] }
  | _ => s

/-- MBIST (R459): the arrays of AMASK but 0 and 10; an array none of whose regions is on has no power to be tested. -/
def execMbist (m : Master) (amask : BitVec 16) (s : State) : Result :=
  done (s.gate m true bstCmdAddr (fun s =>
    let s := s.wr Reg.BST_CMD_AMASK amask.toNat
    s.testGate m (fun s =>
      let l := [1, 2, 3, 4, 5, 6, 7, 8, 9].filter (fun a => bitAt amask.toNat a && (arrayRegions a).any s.regionOn)
      let s := (s.wr Reg.BST_STAT_RUN 2).setBst { s.bst with arrays := (l.map (2 ^ ·)).foldl (· + ·) 0, abort := false }
      (l.foldl State.wipeArray s).startTimer tmMbist)))

/-- The block that the first failing address of array `a` accuses. -/
def failBlock (a addr : Nat) : Block := wordBlock a (if a = 3 then (addr - arrayBase 3) / 4 else addr / 4)

/-- The place of a block's error among those of one cycle: region reset code first, then block window offset (R448). -/
def errorKey (b : Block) : Nat := 64 * regionCode (blockRegion b) + blockIndex b

/-- Insert a failing array, with its first failing address, into a list in the order of R448. -/
def failInsert (e : Nat × Nat) (l : List (Nat × Nat)) : List (Nat × Nat) :=
  match l with
  | [] => [e]
  | x :: r => if errorKey (failBlock x.1 x.2) ≤ errorKey (failBlock e.1 e.2) then x :: failInsert e r else e :: x :: r

/-- The memory test has ended (R459): the regions that own the tested arrays are reset, and a failing array sets MFAIL and a class B error
with its first failing address, the errors of this one cycle in the order of R448. After an ABORT there is no verdict (R460). -/
def State.mbDone (s : State) (failed : List (Nat × Nat)) : State :=
  if s.rd Reg.BST_STAT_RUN ≠ 2 then s
  else
    let s := s.stopTimer tmMbist
    let tested := s.bst.arrays
    let verdict := !s.bst.abort
    let on := (maskRegions tested).filter s.regionOn
    let s := (List.range 11).foldl (fun s a => if bitAt tested a then s.wipeArray a else s) (on.foldl State.resetReload s)
    let s := if verdict then (List.range 11).foldl (fun s a => if bitAt tested a then s.wrBit Reg.BST_RESULT_MFAIL a false else s) s else s
    let s := ((failed.filter (fun e => verdict && bitAt tested e.1)).foldl (fun l e => failInsert e l) []).foldl (fun s e =>
      ((s.wrBit Reg.BST_RESULT_MFAIL e.1 true).set1 Reg.BST_ALRM_MBFAIL).errorB (failBlock e.1 e.2) kMbist e.1 e.2) s
    s.testOver

/-- MBIST_DONE (R459). -/
def execMbistDone (failed : List (Fin 11 × Word)) (s : State) : Result :=
  done (s.mbDone (failed.map (fun e => (e.1.val, e.2.toNat))))

/-- ABORT (R460): the test ends at the end of the present region or array; without a test it has no effect. -/
def execAbort (m : Master) (s : State) : Result :=
  done (s.gate m true bstCmdAddr (fun s => if s.rd Reg.BST_STAT_RUN = 0 then s else s.setBst { s.bst with abort := true, lbLeft := [] }))

/-! ## Transparent test (R461) -/

/-- Whether array `a` can be tested: the test enabled, a region of it on, and no destructive test of it. -/
def State.tbArray (s : State) (a : Nat) : Bool :=
  s.flag Reg.BST_CTRL_TBEN && s.flag Reg.BST_CTRL_EN && a != 1 && (arrayRegions a).any s.regionOn && !bitAt s.bst.arrays a

/-- Whether it is array `a`'s turn: none is under test, or this one, or that one can no longer be tested (R461: one array at a time). -/
def State.tbTurn (s : State) (a : Nat) : Bool :=
  match s.bst.tb with
  | none => true
  | some b => a = b || !s.tbArray b

/-- Whether port `p` sends a frame now: a byte a LINK cycle from its launch (R207). -/
def State.portBusy (s : State) (p : Nat) : Bool :=
  let d := diff32 s.now (s.rd (Reg.LNK_LAUNCH_TIME p))
  s.works (lnkBlock p) && decide (0 ≤ d) && decide (d < (4 * (36 + 12 * s.nslot p) : Nat))

/-- Whether the transparent test may hold word `w` of array `a` now: its turn, its region on, and its quiet window. -/
def State.tbQuiet (s : State) (a w : Nat) : Bool :=
  s.tbArray a && s.tbTurn a && (wordRegions a w).all s.regionOn &&
  (match a with
  | 2 =>
    let g := 4 * w / (1024 * s.rd Reg.CST_SEGCFG_SEGSZ)
    !(s.segState g = sgArmed || s.segState g = sgPost || s.segState g = sgMeas)
  | 4 => !(s.flag Reg.ARM_STAT_RUN && (spFind s.arm.tiles (w / 256)).isSome)
  | 5 => !(s.flag Reg.ARM_STAT_RUN && (spFind s.arm.tiles (w / 1024)).isSome)
  | 6 | 7 => decide (4500 ≤ diff32 s.now s.frm.t0) || decide (diff32 s.now s.frm.t0 < 0)
  | 8 => !s.portBusy (w / 2048)
  | _ => true)

/-- The transparent test runs through one word: the read corrects it (R441), the original value is restored; a read-back that differs
sets TBFAIL and an error of kind MBIST, and the owner of arrays 4 to 8 acts as on an uncorrectable error; the port sends the slot of the word in
array 8 in its next frame as R38 lays down. -/
def State.tbWord (s : State) (a w : Nat) (differs last : Bool) : State :=
  if s.tbQuiet a w = false then s
  else
    let p := s.upsetOf a w
    let s := s.setBst { s.bst with tb := if last then none else some a }
    let s :=
      match eccRead (arrayBits a) p with
      | .good _ => s
      | .corrected v => ((s.scrubData a w v).putUpset a w 0).countCorrIn a
      | .bad => (s.addSat (Reg.BST_ECC_UNCORR a) 1).ownerActs a w kEcc
    let s :=
      if differs then
        let s := s.set1 Reg.BST_ALRM_TBFAIL
        if a = 4 then ((s.errorB .arm kMbist a (tileProgAddr (w / 256) (w % 256))).armRecord (w / 256) (w % 256) fkEccProg).armStop
        else if a = 5 then ((s.errorB .arm kMbist a (tileDataAddr (w / 1024) (w % 1024))).armRecord (w / 1024) 0 fkEccData).armStop
        else if a = 6 ∨ a = 7 then s.ownerActs a w kMbist
        else if a = 8 then (s.errorB (wordBlock a w) kMbist a 0).setLnk { s.lnk with bad := spPut s.lnk.bad (w / 4) 1 }
        else s.errorB (wordBlock a w) kMbist a (wordAddr a w)
      else s
    if last then s.addWrap (Reg.BST_TB_PASSES a) 1 else s

/-- TRANSPARENT_TEST_WORD (R461). -/
def execTransparentTestWord (a : Fin 11) (w : Nat) (differs last : Bool) (s : State) : Result := done (s.tbWord a w differs last)

/-! ## Junction temperature and condensation (R477) -/

/-- TJ_MEASURE (R477): every 1 ms; TJHI when TJ reaches TJLIM. -/
def execTjMeasure (tj : BitVec 16) (s : State) : Result :=
  done (if s.regionOn .sup then
    let s := (s.recur tmTj (ticksMs 1)).wr Reg.PWR_ENV_TJ tj.toNat
    if (16 * s.rd Reg.PWR_ENV_TJLIM : Nat) ≤ signed 16 tj.toNat then s.set1 Reg.PWR_ENV_TJHI else s
  else s)

/-- While CEN is 1, the filtered level of CONDENSE is sampled: CLIVE shows whether it is the active level of CPOL, and COND is set when it becomes
so (R477). With CEN = 0 both stay (log 65). -/
def State.condenseSee (s : State) : State :=
  if s.regionOn .sup && s.flag Reg.PWR_ENV_CEN then
    let active := s.pins.condense != s.flag Reg.PWR_ENV_CPOL
    let s := if active && !s.flag Reg.PWR_ENV_CLIVE then s.set1 Reg.PWR_ENV_COND else s
    s.wr Reg.PWR_ENV_CLIVE (if active then 1 else 0)
  else s

/-- CONDENSE_CHANGE (R477): the level of CONDENSE has changed and stood for the 1 ms of the deglitch filter. -/
def execCondenseChange (level : Bool) (s : State) : Result := done (s.setPins { s.pins with condense := level }).condenseSee

end Sys2Proof.Machine
end

