-- ==== Sys2Proof/Machine/Patina.lean ====
section
/-! DEFINITION. Patina, the ageing monitor (R451 to R455, R457), and the PMBus master that sets the core voltage (R456). -/

namespace Sys2Proof.Machine

def tmJudge : Nat := 541
def tmEye : Nat := 542
def tmRef : Nat := 543
def tmOsc : Nat := 544
def tmSupLow : Nat := 545
def tmPmb : Nat := 546

/-! ## PMBus (R456) -/

/-- The exponent of VOUT_MODE. -/
def State.voutExp (s : State) : Int := signed 5 s.bst.vexp

/-- A READ_VOUT word in units of 2^-16 mV, exact for exponents from -16. -/
def State.voutFine (s : State) (w : Nat) : Int :=
  (w : Int) * 1000 * (2 ^ (16 + s.voutExp).toNat : Nat)

/-- A READ_VOUT word in mV; the rounding of a fraction of a millivolt is free (log 33). -/
def State.voutMv (s : State) (w : Nat) : State × Nat :=
  let f := (s.voutFine w).toNat
  if f % 65536 = 0 then (s, f / 65536) else (s.drawn, f / 65536 + s.freeUpTo 1)

/-- The set point is written to the regulator: PAGE when PAGEN is 1, then VOUT_COMMAND in LINEAR16, whose rounding, where the
set point is not exact in it, is free (log 33). It is
read back after 1 ms. -/
def State.voutCommand (s : State) : State :=
  let addr := s.rd Reg.PWR_CFG_ADDR
  let s := if s.flag Reg.PWR_CFG_PAGEN then s.emit (.pmbus addr 0x00 (s.rd Reg.PWR_CFG_PAGE)) else s
  let n := s.rd Reg.PWR_VSET_VSET * 65536
  let d := 1000 * 2 ^ (16 + s.voutExp).toNat
  let q := (n / d + (if n % d = 0 then 0 else s.freeUpTo 1)) % 65536
  ((s.drawn.emit (.pmbus addr 0x21 q)).set1 Reg.PWR_STAT_BUSY).startTimer tmPmb

/-- A new set point (R452, R456). -/
def State.putVset (s : State) (v : Nat) : State :=
  if v = s.rd Reg.PWR_VSET_VSET then s
  else ((s.wr Reg.PWR_VSET_VSET v).setBst { s.bst with tries := 0 }).voutCommand

/-- While PMB_ALERT is low, STATUS_WORD is read and ALERT set (R456). -/
def State.pmbusAlert (s : State) (status : Nat) : State :=
  if s.pins.alertLow && s.regionOn .sup && s.flag Reg.PWR_CFG_EN then (s.wr Reg.PWR_STAT_STATUS status).set1 Reg.PWR_STAT_ALERT else s

/-- PWR_CFG.EN is set: VOUT_MODE and READ_VOUT are read, and READ_VOUT is the present set point (R456). A PMB_ALERT that is low already is seen
too; the STATUS_WORD then read is a free value. -/
def State.pmbusStart (s : State) (mode vout : Nat) : State :=
  let s := (s.setBst { s.bst with vexp := mode, tries := 0 }).stopTimer tmPmb
  let r := s.voutMv vout
  let s := ((r.1.wr Reg.PWR_VSET_VREAD r.2).wr Reg.PWR_VSET_VSET r.2).set0 Reg.PWR_STAT_BUSY
  if s.pins.alertLow then (s.pmbusAlert (s.freeUpTo 65535)).drawn else s

/-- PMBUS_ENABLE (R456): PWR_CFG is written only in IDLE and MAINTENANCE. -/
def execPmbusEnable (m : Master) (pagen : Bool) (page : Byte) (addr : BitVec 7) (mode : BitVec 5) (vout : BitVec 16) (s : State) : Result :=
  done (s.gate m true 0x400A0000 (fun s =>
    if s.idleOrMaint = false then s.perr peBusyMode m 0x400A0000
    else
      let was := s.flag Reg.PWR_CFG_EN
      let s := ((s.set1 Reg.PWR_CFG_EN).wr Reg.PWR_CFG_PAGEN (if pagen then 1 else 0)).wr Reg.PWR_CFG_PAGE page.toNat
      let s := s.wr Reg.PWR_CFG_ADDR addr.toNat
      if was then s else s.pmbusStart mode.toNat vout.toNat))

/-- 1 ms after a VOUT_COMMAND the read-back confirms the set point within 10 mV, or the write is repeated up to 3 times, and then AVSFAIL
and PLANSTOP are set (R456). -/
def execPmbusConfirm (vout : BitVec 16) (s : State) : Result :=
  done (if s.regionOn .sup && s.flag Reg.PWR_CFG_EN && s.timerOn tmPmb then
    let s := s.expire tmPmb (ticksMs 1)
    let off := s.voutFine vout.toNat - (s.rd Reg.PWR_VSET_VSET : Int) * 65536
    let r := s.voutMv vout.toNat
    let s := r.1.wr Reg.PWR_VSET_VREAD r.2
    if off.natAbs ≤ 655360 then s.set0 Reg.PWR_STAT_BUSY
    else if s.bst.tries < 3 then (s.setBst { s.bst with tries := s.bst.tries + 1 }).voutCommand
    else ((s.set0 Reg.PWR_STAT_BUSY).set1 Reg.PWR_STAT_AVSFAIL).set1 Reg.PAT_STAT_PLANSTOP
  else s)

/-- PMBUS_ALERT (R456): PMB_ALERT falls or rises; while it is low, STATUS_WORD is read and ALERT set. -/
def execPmbusAlert (low : Bool) (status : BitVec 16) (s : State) : Result :=
  done ((s.setPins { s.pins with alertLow := low }).pmbusAlert status.toNat)

/-! ## Judgement (R452, R453) -/

/-- Set the core voltage by the worst slack `sl` in ps (R452): while a set point awaits its confirmation Patina does not judge, and after
PLANSTOP, or without a regulator to command, vset stays (log 34). -/
def State.judgeVolt (s : State) (sl : Int) : State :=
  if s.flag Reg.PWR_STAT_BUSY then s
  else
    let vmax := s.rd Reg.PAT_VCFG_VMAXSET
    let vstep := s.rd Reg.PAT_VCFG_VSTEP
    let v := s.rd Reg.PWR_VSET_VSET
    let lo : Int := (5 * s.rd Reg.PAT_SCFG_SLKLO : Nat)
    let hi : Int := (5 * s.rd Reg.PAT_SCFG_SLKHI : Nat)
    let may := s.flag Reg.PWR_CFG_EN && !s.flag Reg.PAT_STAT_PLANSTOP
    let run := if hi < sl then min 10 (s.bst.hiRun + 1) else 0
    let s := s.setBst { s.bst with hiRun := run }
    let s := if sl < lo ∧ v = vmax then s.set1 Reg.PAT_ALRM_EXHAUST else s
    let s := if lo ≤ sl ∧ sl ≤ hi then s.wr Reg.PAT_VREQ_VREQ v else s
    if sl < (5 * s.rd Reg.PAT_SCFG_SLKCRIT : Nat) then
      let s := s.set1 Reg.PAT_ALRM_SLKLOW
      if may then s.putVset (min vmax (v + 2 * vstep)) else s
    else if sl < lo then (if may then s.putVset (min vmax (v + vstep)) else s)
    else if run = 10 ∧ (s.mode = mIdle ∨ s.mode = mMaintenance ∨ s.mode = mReady) ∧ may = true then
      s.putVset (max (s.rd Reg.PAT_VCFG_VMINSET) (v - vstep))
    else s

/-- The worst slacks are reported, the condition of R453 is timed, and with PLANV = 1 the voltage is judged. -/
def State.judge (s : State) (core sup : Nat) : State :=
  let s := (s.wr Reg.PAT_SLACK_CORE core).wr Reg.PAT_SLACK_SUP sup
  let supLow := decide (signed 16 sup < (5 * s.rd Reg.PAT_SCFG_SLKLO : Nat)) && s.rd Reg.PWR_VSET_VSET = s.rd Reg.PAT_VCFG_VMAXSET
  let s := if supLow then (if s.timerOn tmSupLow then s else s.startTimer tmSupLow) else s.stopTimer tmSupLow
  if s.flag Reg.PAT_CTRL_PLANV then s.judgeVolt (min (signed 16 core) (signed 16 sup)) else s

/-- PATINA_JUDGEMENT (R452): every 100 ms while EN is 1. -/
def execPatinaJudgement (core sup : BitVec 16) (s : State) : Result :=
  done (if s.works .pat then (s.recur tmJudge (ticksMs 100)).judge core.toNat sup.toNat else s)

/-- LATE_TRANSITION (R452): TIMEERR, a class A error, and a judgement at once. -/
def execLateTransition (core sup : BitVec 16) (s : State) : Result :=
  done (if s.works .pat then ((s.set1 Reg.PAT_ALRM_TIMEERR).errorA).judge core.toNat sup.toNat else s)

/-- PATINA_SUP_DERATE (R453): with PLANCLK = 1, after 1 s of low SUP slack at VMAXSET, one step down to 500 MHz at the least. -/
def execPatinaSupDerate (s : State) : Result :=
  done (if s.works .pat && s.flag Reg.PAT_CTRL_PLANCLK && s.timerOn tmSupLow && decide (s.rd Reg.PAT_STAT_SUPSTEP < 2) then
    (((s.expire tmSupLow (ticksMs 1000)).addWrap Reg.PAT_STAT_SUPSTEP 1).set1 Reg.PAT_ALRM_DERATE).startTimer tmSupLow
  else s)

/-- RESTORE (R453): in IDLE or MAINTENANCE PLL_SUP returns to 600 MHz. -/
def execRestore (m : Master) (s : State) : Result :=
  done (s.gate m true 0x40080000 (fun s =>
    if s.idleOrMaint then s.wr Reg.PAT_STAT_SUPSTEP 0 else s.perr peBusyMode m 0x40080000))

/-! ## Measurements and alarms (R451, R455) -/

/-- Whether the port of lane `l` is enabled (R451). -/
def State.laneOn (s : State) (l : Nat) : Bool :=
  if l < 32 then s.rd (blockEn (.lnk (Fin.ofNat 32 l))) = 1
  else if l < 40 then s.flag (Reg.NET_PCFG_PEN (l - 32))
  else if l < 42 then s.rd (blockEn .mir) = 1
  else s.flag Reg.NET_PCIE_LINKUP

/-- The next enabled lane from `l` on, among `fuel` lanes. -/
def State.nextLane (s : State) (fuel l : Nat) : Option Nat :=
  match fuel with
  | 0 => none
  | fuel + 1 => if s.laneOn (l % 44) then some (l % 44) else s.nextLane fuel (l + 1)

/-- Record whether the last measurement `k` met its alarm condition. -/
def State.putLive (s : State) (k : Nat) (b : Bool) : State := s.setBst { s.bst with live := putBit s.bst.live k b }

/-- The margins of the lane whose turn it is. -/
def State.eyeMeasured (s : State) (h v : Nat) : State :=
  match s.nextLane 44 s.bst.lane with
  | none => s
  | some l =>
    let s := s.setBst { s.bst with lane := (l + 1) % 44 }
    let s := (s.wr (Reg.PAT_EYE_H l) h).wr (Reg.PAT_EYE_V l) v
    let bad := decide (h < s.rd Reg.PAT_EYECFG_EYEH) || decide (v < s.rd Reg.PAT_EYECFG_EYEV)
      || decide (h + s.rd Reg.PAT_EYECFG_EYEDROP < s.rd (Reg.PAT_EYE_BASEH l))
    let s := s.putLive l bad
    if bad then (s.set1 Reg.PAT_ALRM_EYE).wrBit (Reg.PAT_EYEALRM_LANE (l / 32)) (l % 32) true else s

/-- A measurement of R451 completes, and its alarm is judged (R455). -/
def State.patMeasure (s : State) (x : PatMeas) : State :=
  match x with
  | .sram mv =>
    if s.bst.sramAge < 24 then s
    else
      let s := (s.wr Reg.PAT_SRAM_VMIN mv.toNat).setBst { s.bst with sramAge := 0 }
      let bad := decide (790 < mv.toNat)
      (if bad then s.set1 Reg.PAT_ALRM_VMIN else s).putLive 44 bad
  | .eye h v => (s.recur tmEye (ticksMs 10000)).eyeMeasured h.toNat v.toNat
  | .ref d =>
    let s := (s.recur tmRef (ticksMs 1000)).wr Reg.PAT_REF_REFDRIFT d.toNat
    let bad := decide (200 < (signed 16 d.toNat).natAbs)
    (if bad then s.set1 Reg.PAT_ALRM_DRIFT else s).putLive 45 bad
  | .osc d =>
    let s := (s.recur tmOsc (ticksMs 1000)).wr Reg.PAT_REF_OSCSHIFT d.toNat
    let bad := decide (500 < (signed 16 d.toNat).natAbs)
    (if bad then s.set1 Reg.PAT_ALRM_DRIFT else s).putLive 46 bad

/-- PATINA_MEASUREMENT (R451). -/
def execPatinaMeasurement (x : PatMeas) (s : State) : Result := done (if s.works .pat then s.patMeasure x else s)

/-- BASECAP (R455). -/
def execBasecap (m : Master) (s : State) : Result :=
  done (s.gate m true 0x40080000 (fun s =>
    let s := (List.range 44).foldl (fun s l => if s.laneOn l then s.wr (Reg.PAT_EYE_BASEH l) (s.rd (Reg.PAT_EYE_H l)) else s) s
    s.wr Reg.PAT_VREQ_VREQ0 (s.rd Reg.PAT_VREQ_VREQ)))

/-! ## Remaining margin and the log (R457) -/

/-- The rational `n / d`, of 0 or more, rounded half to even. -/
def rheRatio (n d : Nat) : Nat :=
  let q := n / d
  let r := 2 * (n % d)
  if d < r then q + 1 else if r < d then q else q + q % 2

/-- RM: (VMAXSET - VREQ) / (VMAXSET - VREQ0) held to 0 to 1, Q1.15; of a denominator 0 it is free (log 35). -/
def State.margin (s : State) : State :=
  let vmax : Int := s.rd Reg.PAT_VCFG_VMAXSET
  let n := vmax - s.rd Reg.PAT_VREQ_VREQ
  let d := vmax - s.rd Reg.PAT_VREQ_VREQ0
  if d = 0 then (s.wr Reg.PAT_MARGIN_RM (s.freeUpTo 0x7FFF)).drawn
  else
    let n' := if d < 0 then -n else n
    s.wr Reg.PAT_MARGIN_RM (if n' ≤ 0 then 0 else min 0x7FFF (rheRatio (n'.toNat * 32768) d.natAbs))

/-- The valid entries of the log: HOURS and VREQ. -/
def State.logEntries (s : State) : List (Int × Int) :=
  ((List.range 16).filter (fun k => s.rd (Reg.PAT_LOG0_HOURS k) != 0)).map (fun k =>
    ((s.rd (Reg.PAT_LOG0_HOURS k) : Int), (s.rd (Reg.PAT_LOG1_VREQ k) : Int)))

/-- TTE from the least-squares slope of VREQ against HOURS; free where the entries share one HOURS value or VREQ lies above VMAXSET
(log 35). -/
def State.timeToEnd (s : State) : State :=
  let l := s.logEntries
  let n : Int := l.length
  let sx := sumInt (l.map Prod.fst)
  let sy := sumInt (l.map Prod.snd)
  let num := n * sumInt (l.map (fun e => e.1 * e.2)) - sx * sy
  let den := n * sumInt (l.map (fun e => e.1 * e.1)) - sx * sx
  let left : Int := (s.rd Reg.PAT_VCFG_VMAXSET : Int) - s.rd Reg.PAT_VREQ_VREQ
  if n < 4 then s.wr Reg.PAT_MARGIN_TTE 0xFFFF
  else if den = 0 then (s.wr Reg.PAT_MARGIN_TTE (s.freeUpTo 0xFFFF)).drawn
  else if num ≤ 0 then s.wr Reg.PAT_MARGIN_TTE 0xFFFF
  else if left < 0 then (s.wr Reg.PAT_MARGIN_TTE (s.freeUpTo 0xFFFE)).drawn
  else s.wr Reg.PAT_MARGIN_TTE (min 0xFFFE (left * den / (num * 24)).toNat)

/-- The worst H of the enabled lanes; 0 where none is enabled. -/
def State.worstEye (s : State) : Nat :=
  match ((List.range 44).filter s.laneOn).map (fun l => s.rd (Reg.PAT_EYE_H l)) with
  | [] => 0
  | h :: r => r.foldl min h

/-- PATINA_LOG_WRITE (R457): every LOGPER hours, of which 0 counts as 1. -/
def execPatinaLogWrite (s : State) : Result :=
  done (if s.works .pat && decide (max 1 (s.rd Reg.PAT_LOGCFG_LOGPER) ≤ s.bst.logAge) then
    let k := s.rd Reg.PAT_LOGCFG_LOGWR
    let s := s.setBst { s.bst with logAge := 0 }
    let s := (s.wr (Reg.PAT_LOG0_HOURS k) (s.rd Reg.PAT_HOURS_HOURS)).wr (Reg.PAT_LOG1_VREQ k) (s.rd Reg.PAT_VREQ_VREQ)
    let s := (s.wr (Reg.PAT_LOG1_CORE k) (s.rd Reg.PAT_SLACK_CORE)).wr (Reg.PAT_LOG2_VMIN k) (s.rd Reg.PAT_SRAM_VMIN)
    let s := ((s.wr (Reg.PAT_LOG2_EYEH k) s.worstEye).margin).timeToEnd
    let s := (s.wr (Reg.PAT_LOG3_RM k) (s.rd Reg.PAT_MARGIN_RM)).wr (Reg.PAT_LOG3_TTE k) (s.rd Reg.PAT_MARGIN_TTE)
    (s.wr Reg.PAT_LOGCFG_LOGWR (k + 1)).set1 Reg.PAT_ALRM_LOG
  else s)

/-- POWERED_HOUR (R457). -/
def execPoweredHour (s : State) : Result :=
  done (if s.works .pat then
    (s.addWrap Reg.PAT_HOURS_HOURS 1).setBst { s.bst with logAge := s.bst.logAge + 1, sramAge := s.bst.sramAge + 1 }
  else s)

end Sys2Proof.Machine
end

