-- ==== Sys2Proof/Machine/View.lean ====
section
/-! DEFINITION. What a master reads: registers (R12 to R15), the memories of R26, and the tile memories (R29, R171). -/

namespace Sys2Proof.Machine

/-- The index of `a` in an array of `n` registers with a stride. -/
def indexIn (base stride n a : Nat) : Option Nat :=
  if base ≤ a ∧ a < base + stride * n ∧ (a - base) % stride = 0 then some ((a - base) / stride) else none

/-- The word whose bit `i`, below `n`, is `f i`. -/
def maskOf (n : Nat) (f : Nat → Bool) : Nat := ((List.range n).map (fun i => if f i then 2 ^ i else 0)).foldl (· + ·) 0

/-- The nibble `k` of the word below is the owner of semaphore `8 * j + k` (SEM_OWNERj). -/
def State.ownerWord (s : State) (j : Nat) : Nat :=
  ((List.range 8).map (fun k => s.semOwner (8 * j + k) * 16 ^ k)).foldl (· + ·) 0

/-- The registers of SUP that show other state: mailbox and ring summaries, owners, the interrupt tree, mtime, fuses. -/
def State.viewSup (s : State) (a : Nat) : Option Nat :=
  if a = 0x40010008 then some (maskOf 32 (fun c => s.flag (Reg.MBX_CSTAT_FULL c)))
  else if a = 0x4001000C then some (maskOf 32 (fun c => s.rd (Reg.MBX_CNOTE_KIND c) != 0))
  else if a = 0x40000240 then some (s.mtime % 2 ^ 32)
  else if a = 0x40000244 then some (s.mtime / 2 ^ 32)
  else if a = 0x40030008 then some s.intSum
  else if a = 0x40050010 then some (maskOf 32 s.ringAtWm)
  else if a = 0x40050014 then some (maskOf 32 (fun n => s.ringAtWm (32 + n)))
  else if a = 0x40070004 then
    some (s.rd Reg.SEC_STAT_STATE + s.rd Reg.SEC_STAT_FUSEBUSY * 2 ^ 10 + s.rd Reg.SEC_STAT_KEYIDX * 2 ^ 11
      + s.debugLevel * 2 ^ 13 + s.fuses.secMode % 2 * 2 ^ 15)
  else if a = 0x4007000C then some (s.fuses.arb % 2 ^ 7 + s.fuses.keyProg % 16 * 2 ^ 8 + s.fuses.keyRev % 16 * 2 ^ 12)
  else if a = 0x40070050 then some (s.fuses.uidLo % 2 ^ 32)
  else if a = 0x40070054 then some (s.fuses.uidHi % 2 ^ 32)
  else
    match indexIn 0x40020010 4 8 a with
    | some j => some (s.ownerWord j)
    | none =>
      match indexIn 0x40030010 4 8 a with
      | some r => some (s.rcause r)
      | none => (indexIn 0x40030124 0x40 6 a).map s.targetPend

/-- The word a register shows, its write-only fields as 0 (R12). An eye margin of a port that is not enabled reads 0 (R451); a segment at or
above NSEG reads 0. -/
def State.viewWord (s : State) (a : Nat) : Nat :=
  match s.viewSup a with
  | some w => w
  | none =>
    if a = 0x41010010 then s.now
    else if a = 0x43010004 then
      s.rd (blockState .prf) + maskOf 8 s.prfAt * 2 ^ 8
    else if a = 0x47020004 then putBits (s.regWord a) 14 1 (if s.netSafe then 1 else 0)
    else if a = 0x4103002C then s.rd Reg.MIR_SNAP_PERIOD + s.snapAge * 2 ^ 16
    else
      match indexIn 0x40080100 4 44 a with
      | some l => if s.laneOn l then s.regWord a else s.rd (Reg.PAT_EYE_BASEH l) * 2 ^ 24
      | none =>
        match indexIn 0x42024000 4 4096 a with
        | some g => if g < s.nseg then s.regWord a else 0
        | none =>
          match indexIn 0x47000110 0x20 12 a, indexIn 0x47000114 0x20 12 a with
          | some p, _ => s.pstatWord p (s.regWord a)
          | none, some p => s.carryWord p
          | none, none => s.regWord a

/-- Whether a mailbox channel's registers at `a` are closed to master `m` (R381): every master but its sender and receiver, and but the
debug master for a read. -/
def State.mbxClosed (s : State) (m : Nat) (write : Bool) (a : Nat) : Bool :=
  decide (0x40011000 ≤ a) && decide (a < 0x40013000) && !s.mbxParty m ((a - 0x40011000) / 0x100) && (write || m != 7)

/-- The word of arrays 6 and 7 that the register at `a` shows: a latest value or its instant, the state or the key of a submodule (log 95). -/
def storeWord (a : Nat) : Option (Nat × Nat) :=
  match indexIn 0x42000400 4 64 a, indexIn 0x42000500 4 64 a, indexIn 0x44008000 4 8192 a, indexIn 0x44018000 4 8192 a with
  | some c, _, _, _ => some (6, 4096 + 2 * c)
  | none, some c, _, _ => some (6, 4097 + 2 * c)
  | none, none, some j, _ => some (7, 16384 + j)
  | none, none, none, some j => some (7, 24576 + j)
  | none, none, none, none => none

/-- A read of a register without side effect, its word read through its code where it stands in an array (R441). An uncorrectable one is its
owner's error (R440), and the spec gives the data returned no value. -/
def State.readPlain (s : State) (m : Master) (a : Nat) : State :=
  match storeWord a with
  | none => s.answer m (s.viewWord a)
  | some (r, w) =>
    let t := s.readWords r (fun x => decide (x = w))
    if t.2 = [] then t.1.answer m (t.1.viewWord a) else ((t.1.ownerActs r w kEcc).drawn).answer m (s.freeUpTo (2 ^ 32 - 1))

/-- A read of a register, past the gate (R13 to R15, R27). Reads of a result queue, a semaphore and the stamp queue act. -/
def State.readReg (s : State) (m : Master) (a size : Nat) : State :=
  if (cardAt (a / 4 * 4)).isNone then (s.answerError m).perr peUnmapped m a
  else if size ≠ 4 ∨ a % 4 ≠ 0 then (s.answer m 0).perr peWidth m a
  else if s.mbxClosed m false a then (s.answerError m).perr pePolicy m a
  else if a = 0x41010030 then s.txqRead m
  else
    match indexIn 0x42000208 0x10 4 a, indexIn 0x40020100 4 64 a with
    | some q, _ => s.queueRead m q
    | none, some n => State.semRead n (s.setBus []) m
    | none, none => s.readPlain m a

/-- Whether nothing is assigned at offset `o` of a tile: between its program and its data memory (R29). -/
def tileHole (o : Nat) : Bool := decide (0x800 ≤ o) && decide (o < 0x1000)

/-- A read of a tile memory, past the gate (R29, R171): a data word, or a half of an instruction with its check bits. An uncorrectable word is a fault of the tile (R440), and
the reading master receives an error response (log 87). -/
def State.readTile (s : State) (m : Master) (a size : Nat) : State :=
  let t := (a - 0x50000000) / 0x2000
  let o := (a - 0x50000000) % 0x2000
  if tileHole o then (s.answerError m).perr peUnmapped m a
  else if size ≠ 4 ∨ a % 4 ≠ 0 then (s.answer m 0).perr peWidth m a
  else if 0x1000 ≤ o then
    match s.armData t ((o - 0x1000) / 4) with
    | (s, .val v) => s.answer m (eccStore 20 (v + residue v * 65536))
    | (s, .bad k d) => (s.answerError m).armFault t 0 k d
  else
    match s.armFetch t (o / 8) with
    | (s, .val w) => s.answer m (if o % 8 = 0 then w % 2 ^ 32 else w / 2 ^ 32 % 2 ^ 16 + eccCheck 48 w * 2 ^ 16)
    | (s, .bad k d) => (s.answerError m).armFault t (o / 8) k d

/-- The bytes of a word that an access of `size` bytes at `a` takes. -/
def sizedData (a size w : Nat) : Nat := w / 2 ^ (8 * (a % 4)) % 2 ^ (8 * size)

/-- A read of the boot ROM, past the gate (R440, R441): corrected, and never written back. -/
def State.readRom (s : State) (m : Master) (a size : Nat) : State :=
  let w := a / 4
  let d := Config.romWord w % 2 ^ 32
  match eccRead 32 (s.upsetOf 1 w) with
  | .good _ => s.answer m (sizedData a size d)
  | .corrected v => (s.countCorr 1).answer m (sizedData a size (d ^^^ v))
  | .bad => (s.countUncorr 1 a .bst).answerError m

/-- A read of a byte memory, past the gate (R26, R441). -/
def State.readMemory (s : State) (m : Master) (array a size : Nat) : State :=
  match s.readWord array (a / 4 * 4) with
  | (s, some d) => s.answer m (sizedData a size d)
  | (s, none) => s.answerError m

/-- A read by a master (R26 to R29): the answer stands in `bus`. In the memories an access is 1, 2 or 4 bytes, aligned to its size;
another is answered as one to an address without assignment (log 12). -/
def State.readAt (s : State) (m : Master) (a size : Nat) : State :=
  s.gate m false a (fun s =>
    match addrTarget a with
    | some 13 => s.readTile m a size
    | some t =>
      if 4 ≤ t ∧ t ≠ 14 then s.readReg m a size
      else if sizeOk size a = false then (s.answerError m).perr peUnmapped m a
      else if t = 0 then s.readRom m a size
      else if t = 1 then s.sramDo m .load a size 0
      else if t = 2 then s.readMemory m 2 a size
      else if t = 3 then s.readMemory m 3 a size
      else s.answer m (((List.range size).map (fun i => s.flashByte (a - 0x60000000 + i) * 256 ^ i)).foldl (· + ·) 0)
    | none => s)

end Sys2Proof.Machine
end

