-- ==== Sys2Proof/Machine/Access.lean ====
section
/-! DEFINITION. What a write of a master does (R12 to R15, R26 to R29): field by field by access code, with what a chapter adds for a
register, and the command bits as the commands' own meanings. -/

namespace Sys2Proof.Machine

/-- The state after a meaning. -/
def State.after (s : State) (f : State → Result) : State :=
  match f s with
  | .next t => t
  | _ => s

/-! ## Flags that a write of 1 does not clear while their source is active (R12) -/

/-- Bits of PAT_ALRM whose condition the last measurement still met (R455). -/
def State.patHeld (s : State) : Nat :=
  (if s.bst.live % 2 ^ 44 ≠ 0 then 2 ^ 7 else 0) + (if bitAt s.bst.live 45 || bitAt s.bst.live 46 then 2 ^ 6 else 0)
    + (if bitAt s.bst.live 44 then 2 ^ 5 else 0)

/-- The flags of the supervisor side that stay. -/
def State.heldSup (s : State) (a : Nat) : Nat :=
  if a = 0x40000104 then s.rd Reg.SUP_RGN_STAT_ISO * 2 ^ 16
  else if a = 0x40070008 then s.mqt.tamper % 4
  else if a = 0x40080008 then s.patHeld
  else if a = 0x40080030 then s.bst.live % 2 ^ 32
  else if a = 0x40080034 then s.bst.live / 2 ^ 32 % 2 ^ 12
  else if a = 0x400A0008 then (if s.pins.alertLow then 4 else 0)
  else if a = 0x400A000C then
    s.rd Reg.PWR_ENV_CLIVE * 2 ^ 31
      + (if 16 * ((s.rd Reg.PWR_ENV_TJLIM : Int) - 5) ≤ signed 16 (s.rd Reg.PWR_ENV_TJ) then 2 ^ 29 else 0)
  else 0

/-- Whether the three channels that fields name carry VALID at present. -/
def State.selValid (s : State) (a b c : Fld) : Bool :=
  s.flag (Reg.ACQ_CHVAL_VALID (s.rd a)) && s.flag (Reg.ACQ_CHVAL_VALID (s.rd b)) && s.flag (Reg.ACQ_CHVAL_VALID (s.rd c))

/-- The flags of the real-time blocks that stay (R69, R81, R104 to R106, R181, R195, R238, R264). -/
def State.heldPath (s : State) (a : Nat) : Nat :=
  if a = 0x42000028 then maskOf 32 (fun c => spGet s.acq.openRun c 0 = 4)
  else if a = 0x4200002C then maskOf 32 (fun c => spGet s.acq.shortRun c 0 = 4)
  else if a = 0x42010210 then (if s.flag Reg.ANG_STAT_SEQREV then 4 else 0)
  else if a = 0x43000008 then
    (if s.selValid Reg.FRM_ISEL_CHA Reg.FRM_ISEL_CHB Reg.FRM_ISEL_CHC then 0 else 2 ^ 5)
      + (if s.selValid Reg.FRM_VSEL_CHA Reg.FRM_VSEL_CHB Reg.FRM_VSEL_CHC then 0 else 2 ^ 4)
      + (if s.rd Reg.FRM_CTRL_DREF = 0 ∧ s.trackerUsable = false then 2 ^ 3 else 0)
  else if a = 0x44000008 then
    (if (List.range 12).any (fun i => decide (s.rd (Reg.MOD_ARMSTAT_NAVAIL i) < s.rd (Reg.MOD_ARMRED_NREQ i))) then 2 ^ 6 else 0)
  else if a = 0x41030008 then (if s.mir.differs then 2 ^ 10 else 0)
  else
    match indexIn 0x44008000 4 8192 a with
    | some j => if spGet s.mod.faults j 0 = 1 then 2 ^ 21 else 0
    | none => if a % 0x10000 = 8 ∧ 0x45000000 ≤ a ∧ a < 0x47000000 ∧ s.rd ⟨a - 4, 8, 4, 0⟩ = lError then 2 ^ 8 else 0

/-- The flags of the local bridges and their protection that stay (R281, R287, R290, R294). -/
def State.heldGrd (s : State) (a : Nat) : Nat :=
  match indexIn 0x47000110 0x20 12 a with
  | some p =>
    (if s.rogLive p then 2 ^ 5 else 0) + (if s.faultLive p then 2 ^ 4 else 0)
      + (if (List.range 12).any (fun n => s.rdBit (Reg.PRT_ROGCFG_PAIRS n) p
          && (s.flag (Reg.PRT_ROGSTAT_OPEN n) || s.flag (Reg.PRT_ROGSTAT_SHORT n))) then 2 ^ 9 else 0)
  | none =>
    match indexIn 0x4701010C 0x10 12 a with
    | some n => (if (s.rog n).openRun = 3 then 2 ^ 27 else 0) + (if (s.rog n).shortRun = 3 then 2 ^ 26 else 0)
    | none =>
      match indexIn 0x47010304 8 4 a with
      | some n => if s.flag (Reg.PRT_FLTSTAT_LIVE n) then 2 ^ 30 else 0
      | none =>
        match indexIn 0x4701040C 0x10 2 a with
        | some c =>
          (if s.flag (Reg.PRT_OVSTAT_VLIVE c) then 2 ^ 29 else 0)
            + (if s.flag (Reg.ACQ_CHVAL_VALID (s.rd (Reg.PRT_OVCFG_CH c))) then 0 else 2 ^ 28)
        | none => 0

/-- The flags of the register at `a` that a write of 1 does not clear now. -/
def State.heldFlags (s : State) (a : Nat) : Nat :=
  if a < 0x41000000 then s.heldSup a else if a < 0x47000000 then s.heldPath a else s.heldGrd a

/-! ## Fields -/

/-- Whether the written value of an RWL field of the register at `a` differs from the stored one while it is locked (R13). -/
def State.lockedDiffers (s : State) (m a v : Nat) : Bool :=
  m != 8 && s.mode != mBoot && (fieldsAt a).any (fun f => f.acc = .rwl && s.rd (f.at_ a) != v / 2 ^ f.lo % 2 ^ f.wid)

/-- A write to one field (R12, R13, R108). -/
def State.writeField (m a v : Nat) (s : State) (f : CardFld) : State :=
  let x := v / 2 ^ f.lo % 2 ^ f.wid
  match f.acc with
  | .ro | .wo => s
  | .rw =>
    let h := heldValue a f.lo x
    let s := s.wr (f.at_ a) h.1
    if h.2 then s.set1 Reg.FRM_ALRM_PCLAMP else s
  | .rwl => if m = 8 ∨ s.mode = mBoot then s.wr (f.at_ a) x else s
  | .w1c =>
    let keep := s.heldFlags a / 2 ^ f.lo % 2 ^ f.wid
    let old := s.rd (f.at_ a)
    s.wr (f.at_ a) (old - (old &&& x) + (old &&& x &&& keep))

/-- A write to the fields of a register, but for those whose lowest bit stands in `skip`; LOCKED is reported once (R13). -/
def State.writeFields (s : State) (m a v : Nat) (skip : List Nat) : State :=
  let s := if s.lockedDiffers m a v then s.perr peLocked m a else s
  ((fieldsAt a).filter (fun f => !skip.contains f.lo)).foldl (State.writeField m a v) s

/-! ## Registers with command bits -/

/-- The block whose control register stands at `a`. -/
def blockAt (a : Nat) : Option Block :=
  ((List.range 32).map (fun n => Block.lnk (Fin.ofNat 32 n)) ++
    [Block.mbx, .sem, .int, .dma, .rng, .mqt, .sec, .pat, .bst, .net, .ptp, .svs, .mir, .acq, .ang, .cst, .frm, .prf, .arm, .mod, .rsp,
      .lbr, .prt, .saf]).find? (fun b => blockBase b = a)

/-- A write of SUP_RGN_CTRL: the power bits first, then the resets, where one write changes both (R48 to R50; log 91). -/
def State.writeRegions (s : State) (m : Master) (v : Nat) : State :=
  let l : List Region := [.sup, .net, .acq, .frm, .mod, .lka, .lkb, .grd]
  let s := l.foldl (fun s r => s.after (if bitAt v (regionBit r) then execRegionPowerUp m r else execRegionPowerDown m r)) s
  l.foldl (fun s r => if bitAt v (8 + regionBit r) then s.after (execRegionReset m r) else s) s

/-- A write of SUP_CORECTRL (R365). A RUN bit cleared takes effect at the core's next reset (log 38). -/
def State.writeCores (s : State) (m : Master) (v : Nat) : State :=
  let s := (List.range 4).foldl (fun s c =>
    if bitAt v c then s.after (execCoreRun m (Fin.ofNat 4 c)) else s.wrBit Reg.SUP_CORECTRL_RUN c false) s
  (List.range 4).foldl (fun s c => if bitAt v (4 + c) then s.after (execCoreReset m (Fin.ofNat 4 c)) else s) s

/-- The command bits beside EN of a block's control register, with `v` written. -/
def State.ctrlCommands (s : State) (m : Master) (b : Block) (v : Nat) : State :=
  match b with
  | .pat =>
    let s := if bitAt v 5 then s.after (execRestore m) else s
    if bitAt v 4 then s.after (execBasecap m) else s
  | .mir => if bitAt v 2 then s.after (execHandover m) else s
  | .acq => if bitAt v 1 then s.after (execCalStart m) else s
  | .ang => if bitAt v 4 then s.after (execIdxarm m) else s
  | .cst =>
    let s := if bitAt v 1 then s.after (execCastArm m (BitVec.ofNat 12 (v / 16)) (bitAt v 3)) else s
    if bitAt v 2 then s.after (execSwtrig m) else s
  | .arm =>
    let s := if bitAt v 1 then s.after (execPcommit m) else s
    if bitAt v 3 then s.after (execArmRun1 m (bitAt v 0)) else s
  | .lnk n => if bitAt v 8 then s.after (execRestart m n) else s
  | .prt =>
    let s := if bitAt v 1 then s.after (execFiclr m) else s
    if bitAt v 2 then s.after (execPolarityTestStart m) else s
  | .saf => if bitAt v 2 then s.after (execSafetyPtest m) else s
  | _ => s

/-- A write of a block's control register that is not refused whole (R46): its fields, EN, then its command bits. -/
def State.writeCtrl (s : State) (m : Master) (b : Block) (v : Nat) : State :=
  s.ctrlWrite m b (bitAt v 0) (fun s =>
    let s := s.writeFields m (blockBase b) v [0]
    let s :=
      if b = .ang then s.after (execAngEnableChange m (bitAt v 0))
      else s.after (if bitAt v 0 then execBlockEnSet m b else execBlockEnClear m b)
    s.ctrlCommands m b v)

/-- A write of SEC_CMD (R419). -/
def State.writeSecCmd (s : State) (m : Master) (v : Nat) : State :=
  let k := Fin.ofNat 4 (v / 2 ^ 8)
  match v % 16 with
  | 1 => s.after (execArbCommit m)
  | 2 => s.after (execKeyRevoke m k)
  | 3 => s.after (execKeyProgram m k)
  | 4 => s.after (execClose m)
  | _ => s.fuseCmd m 0 0 (fun _ => false)

/-- A write of BST_CMD (R458 to R460). -/
def State.writeBstCmd (s : State) (m : Master) (v : Nat) : State :=
  let s := s.writeFields m bstCmdAddr v []
  let s := if bitAt v 0 then s.after (execLbist m (BitVec.ofNat 8 (v / 2 ^ 8))) else s
  let s := if bitAt v 1 then s.after (execMbist m (BitVec.ofNat 16 (v / 2 ^ 16))) else s
  if bitAt v 2 then s.after (execAbort m) else s

/-- A write of PWR_CFG (R456); what the regulator answers when EN is set is free (log 39). With EN = 0 nothing is commanded. -/
def State.writePwrCfg (s : State) (m : Master) (v : Nat) : State :=
  if s.idleOrMaint = false then s.perr peBusyMode m 0x400A0000
  else
    let was := s.flag Reg.PWR_CFG_EN
    let s := s.writeFields m 0x400A0000 v []
    if s.flag Reg.PWR_CFG_EN = false then (s.stopTimer tmPmb).set0 Reg.PWR_STAT_BUSY
    else if was then s
    else (s.drawnBy 2).pmbusStart (s.freeUpTo 31) (Config.freeNat (s.free + 1) % 65536)

/-- A write of SUP_MTIMELO or SUP_MTIMEHI (R368). -/
def State.writeMtime (s : State) (hi : Bool) (v : Nat) : State :=
  let t := s.mtime
  s.setSup { s.sup with mtime := 10 * (if hi then t % 2 ^ 32 + v * 2 ^ 32 else t / 2 ^ 32 * 2 ^ 32 + v) }

/-- A write of SUP_MODEREQ: the target, then its request and a trip (R427, R430). -/
def State.writeModeReq (s : State) (m : Master) (v : Nat) : State :=
  let s := s.writeFields m modeReqAddr v []
  let s := if bitAt v 4 then s.after (execModeRequest m (Fin.ofNat 16 v)) else s
  if bitAt v 5 then s.after (execTripRequest m) else s

/-- A write of MQT_LCMD (R421). -/
def State.writeLcmd (s : State) (m : Master) (v : Nat) : State :=
  let s := if bitAt v 0 then s.after (execStage m) else s
  let s := if bitAt v 1 then s.after (execCommit m) else s
  if bitAt v 2 then s.after (execCancel m) else s

/-- A write of a register of SUP that is no block's control register. -/
def State.writeSup (s : State) (m : Master) (a v : Nat) : State :=
  if a = rgnCtrlAddr then s.writeRegions m v
  else if a = 0x40000200 then s.writeCores m v
  else if a = 0x40000240 then s.writeMtime false v
  else if a = 0x40000244 then s.writeMtime true v
  else if a = 0x40000270 then
    (List.range 4).foldl (fun s c => if bitAt v c ∧ s.rd (coreState c) = 3 then s.wr (coreState c) 1 else s) (s.writeFields m a v [])
  else if a = 0x40000310 then
    let s := s.writeFields m a v []
    if s.tripped then s else s.wr Reg.SUP_TRIP_FIRST 0x1F
  else if a = dbgAddr then s.after (if bitAt v 0 then execDeviceHalt m else execDeviceHaltEnd m)
  else if a = modeReqAddr then s.writeModeReq m v
  else if a = 0x40000320 then s.after (execChipReset m (BitVec.ofNat 32 v) (Fin.ofNat 8 s.ctl.bootPins))
  else if a = 0x4002000C then s.after (execSemForce m (Fin.ofNat 64 v))
  else if a = 0x40030304 then s.after (execIntHack m (BitVec.ofNat 8 v))
  else if a = 0x40030400 then
    (if bitAt v 31 then (((s.set0 Reg.INT_PERR_VALID).wr Reg.INT_PERR_KIND 0).wr Reg.INT_PERR_MASTER 0).wr Reg.INT_PERRADDR_ADDR 0 else s)
  else if a = 0x40030500 then
    (if bitAt v 31 then s.setRegs (s.regs.filter (fun e => e.1 / 32 != 0x40030500 && e.1 / 32 != 0x40030504 && e.1 / 32 != 0x40030508)) else s)
  else if a = 0x40060024 then s.writeLcmd m v
  else if a = 0x40060034 then s.after (execMqtHostgo m (BitVec.ofNat 32 v))
  else if a = 0x40070010 then s.writeSecCmd m v
  else if a = bstCmdAddr then s.writeBstCmd m v
  else if a = 0x400A0000 then s.writePwrCfg m v
  else if a = 0x400A000C then (s.writeFields m a v []).condenseSee
  else if (a = 0x40080038 ∨ (0x40080200 ≤ a ∧ a < 0x40080300)) ∧ s.flag Reg.PAT_CTRL_EN then s.perr peState m a
  else
    match indexIn 0x40000230 4 4 a, indexIn 0x40000220 4 4 a with
    | some c, _ => s.after (execWdtKick m (Fin.ofNat 4 c) (BitVec.ofNat 32 v))
    | none, some c => (s.writeFields m a v []).wdtWritten c (s.flag (Reg.SUP_WDT_EN c))
    | none, none =>
      match indexIn 0x40020100 4 64 a with
      | some n => s.after (execSemLockWrite m (Fin.ofNat 64 n))
      | none => s.writeFields m a v []

/-- A write of a register of a mailbox channel (R381 to R386). -/
def State.writeMbx (s : State) (m : Master) (a v : Nat) : State :=
  let c := Fin.ofNat 32 ((a - 0x40011000) / 0x100)
  let o := (a - 0x40011000) % 0x100
  if o = 4 then
    let s := if bitAt v 0 then s.after (execMbxGo m c) else s
    if bitAt v 1 then s.after (execMbxAck m c) else s
  else if o = 0xC then (if bitAt v 4 then s.after (execMbxNoteClr m c) else s)
  else if 0x40 ≤ o then s.after (execMbxDataWrite m c (Fin.ofNat 16 ((o - 0x40) / 4)) (BitVec.ofNat 32 v))
  else s.writeFields m a v []

/-- A write of a register of a DMA channel or a ring (R372, R380). -/
def State.writeMove (s : State) (m : Master) (a v : Nat) : State :=
  if 0x40040100 ≤ a ∧ a < 0x40040500 then
    let c := (a - 0x40040100) / 0x20
    let f := Fin.ofNat 32 c
    let o := a % 0x20
    if o = 0x10 then
      let s := if bitAt v 0 then s.after (execDmaStart m f) else s
      let s := if bitAt v 1 then s.after (execDmaStop m f) else s
      let s := if bitAt v 2 then s.after (execDmaKick m f) else s
      if bitAt v 3 then s.after (execDmaResume m f) else s
    else if o < 0x10 ∧ (s.dmaState c = dsWait ∨ s.dmaState c = dsBurst) then s.perr peState m a
    else s.writeFields m a v []
  else
    match indexIn 0x40050108 0x20 64 a, indexIn 0x4005010C 0x20 64 a with
    | some n, _ => s.after (execRingWrWrite m (Fin.ofNat 64 n) (BitVec.ofNat 32 v))
    | none, some n => s.after (execRingRdWrite m (Fin.ofNat 64 n) (BitVec.ofNat 32 v))
    | none, none => s.writeFields m a v []

/-- A write of a register of NET: device time, the epoch, the lost stamps, and a port's enable (R343). -/
def State.writeNet (s : State) (m : Master) (a v : Nat) : State :=
  if a = 0x41010010 then s.after (execPtpTimeWrite m (BitVec.ofNat 32 v))
  else if a = 0x41010018 then s.after (execPtpIncfWrite m (BitVec.ofNat 32 v))
  else if a = 0x41030018 then s.after (execMirEpochWrite m (BitVec.ofNat 32 v))
  else if a = 0x41010008 then
    let s := s.writeFields m a v []
    if bitAt v (Reg.PTP_ALRM_TXQOVF.lo) then s.wr Reg.PTP_TXQHEAD_LOSTCNT 0 else s
  else
    let s := s.writeFields m a v []
    if (indexIn 0x41000100 0x40 8 a).isSome ∧ s.rd (blockEn .net) = 1 ∧ (s.running .net ∨ s.rd (blockState .net) = stStopped) then
      s.netReport
    else if 0x41020400 ≤ a ∧ a < 0x41020500 then s.svUnbound
    else s

/-- A write of a register of ACQ (R60, R88, R326, R335). -/
def State.writeAcq (s : State) (m : Master) (a v : Nat) : State :=
  if a = 0x42020038 then s.after (execCstRel m (BitVec.ofNat 12 v))
  else if a = 0x4202003C then s.after (execCstHold m (BitVec.ofNat 12 v))
  else if (a = 0x42020010 ∨ a = 0x42020014 ∨ a = 0x42020018 ∨ (0x42020040 ≤ a ∧ a < 0x42020060)) ∧ s.rd (blockEn .cst) = 1 then
    s.perr peState m a
  else
    let s := s.writeFields m a v []
    match indexIn 0x42000100 0x10 4 a, indexIn 0x42010400 0x10 4 a with
    | some n, _ => if bitAt v 6 then s.after (execSeqGo m (Fin.ofNat 4 n)) else s
    | none, some n => if bitAt v 3 then s.after (execAcpArm m (Fin.ofNat 4 n)) else s.acpWritten n
    | none, none => s

/-- A write of a register of FRM or MOD (R112, R130, R165, R193). -/
def State.writePath (s : State) (m : Master) (a v : Nat) : State :=
  if a = 0x430000AC then s.after (execBsarmWrite m (BitVec.ofNat 32 v))
  else if a = 0x43020010 then s.wr Reg.ARM_SLACK_MINSLACK 0x320
  else
    match indexIn 0x43010110 0x20 8 a, indexIn 0x44000100 0x20 12 a with
    | some n, _ => if bitAt v 0 then s.after (execPrfLoad m (Fin.ofNat 8 n)) else s
    | none, some i =>
      (s.writeFields m a v []).cpsStored i
    | none, none => s.writeFields m a v []

/-- A write of a register of GRD (R277, R280, R283, R286). -/
def State.writeGrd (s : State) (m : Master) (a v : Nat) : State :=
  match indexIn 0x47000100 0x20 12 a with
  | some p =>
    let s := s.writeFields m a v [31]
    s.after (if bitAt v 31 then execPairEnable m (Fin.ofNat 12 p) else execPairDisable m (Fin.ofNat 12 p))
  | none =>
    match indexIn 0x47010400 0x10 2 a, indexIn 0x47010300 8 4 a, indexIn 0x47000110 0x20 12 a with
    | some c, _, _ => (s.writeFields m a v []).ovDisabled c
    | none, some n, _ => (s.writeFields m a v []).faultJudge n (s.faultActs n)
    | none, none, some p => (s.writeFields m a v []).cutCount p
    | none, none, none => s.writeFields m a v []

/-- A write of a register, past the gate (R13 to R15, R27). -/
def State.writeReg (s : State) (m : Master) (a size v : Nat) : State :=
  if (cardAt (a / 4 * 4)).isNone then (s.answerError m).perr peUnmapped m a
  else if size ≠ 4 ∨ a % 4 ≠ 0 then s.perr peWidth m a
  else if s.mbxClosed m true a then (s.answerError m).perr pePolicy m a
  else
    match blockAt a with
    | some b => s.writeCtrl m b v
    | none =>
      if a = 0x4F000000 then
        let key := BitVec.ofNat 16 (v / 2 ^ 16)
        if bitAt v 8 then (if s.mayHibernate key then (s.writeFields m a v []).after (execHib m key) else s.after (execHib m key))
        else s.writeFields m a v []
      else if 0x40011000 ≤ a ∧ a < 0x40013000 then s.writeMbx m a v
      else if 0x40040000 ≤ a ∧ a < 0x40060000 then s.writeMove m a v
      else if a < 0x41000000 then s.writeSup m a v
      else if a < 0x42000000 then s.writeNet m a v
      else if a < 0x43000000 then s.writeAcq m a v
      else if a < 0x45000000 then s.writePath m a v
      else if 0x47000000 ≤ a ∧ a < 0x48000000 then s.writeGrd m a v
      else s.writeFields m a v []

/-- A write of a tile memory, past the gate (R29, R171, R172). -/
def State.writeTile (s : State) (m : Master) (a size v : Nat) : State :=
  let t := Fin.ofNat 128 ((a - 0x50000000) / 0x2000)
  let o := (a - 0x50000000) % 0x2000
  if tileHole o then (s.answerError m).perr peUnmapped m a
  else if size ≠ 4 ∨ a % 4 ≠ 0 then s.perr peWidth m a
  else if 0x1000 ≤ o then s.after (execTileDataWrite m t (Fin.ofNat 1024 ((o - 0x1000) / 4)) (BitVec.ofNat 32 v))
  else
    s.after (if o % 8 = 0 then execProgramFirstWordWrite m t (Fin.ofNat 256 (o / 8)) (BitVec.ofNat 32 v)
      else execProgramSecondWordWrite m t (Fin.ofNat 256 (o / 8)) (BitVec.ofNat 32 v))

/-- A write of the point mirror, past the gate (R233): a point has one word, and a narrower write merges with the word it has; one into an
uncorrectable word is refused (R441). -/
def State.writePoint (s : State) (m : Master) (a size v : Nat) : State :=
  let wa := a / 4 * 4
  let p := BitVec.ofNat 18 ((wa - 0x30000000) / 4)
  if size = 4 then s.after (execPointMirrorWrite m p (BitVec.ofNat 32 v))
  else
    match s.readWord 3 wa with
    | (s, some d) => s.after (execPointMirrorWrite m p (BitVec.ofNat 32 (putBits d (8 * (a % 4)) (8 * size) v)))
    | (s, none) => (s.answerError m).perr peState m a

/-- A write by a master (R26 to R29): no master writes the boot ROM, the flash window (R27) or the capture SRAM (R325). -/
def State.writeAt (s : State) (m : Master) (a size v : Nat) : State :=
  s.gate m true a (fun s =>
    match addrTarget a with
    | some 13 => s.writeTile m a size v
    | some t =>
      if 4 ≤ t ∧ t ≠ 14 then s.writeReg m a size v
      else if sizeOk size a = false ∨ t = 0 ∨ t = 2 ∨ t = 14 then (s.answerError m).perr peUnmapped m a
      else if t = 1 then s.sramDo m .store a size v
      else s.writePoint m a size v
    | none => s)

/-! ## Meanings -/

/-- REGISTER_WRITE (R13). -/
def execRegisterWrite (m : Master) (a : Word) (size : Nat) (v : Word) (s : State) : Result := done (s.writeAt m a.toNat size v.toNat)

/-- UNMAPPED_ACCESS (R27): an access where nothing is assigned, a write to a read-only memory, or a refused target. -/
def execUnmappedAccess (m : Master) (write : Bool) (a : Word) (s : State) : Result :=
  done (if write then s.writeAt m a.toNat 4 0 else s.readAt m a.toNat 4)

/-- REGION_OFF_ACCESS (R28). -/
def execRegionOffAccess (m : Master) (write : Bool) (a : Word) (s : State) : Result :=
  done (if write then s.writeAt m a.toNat 4 0 else s.readAt m a.toNat 4)

/-! ## The host link (R30, R362) -/

/-- A BAR2 access byte by byte: the words it covers whole go as words. -/
def State.barBytes (write : Bool) (fuel a len : Nat) (data : List Nat) (s : State) (acc : List BusAnswer) : State × List BusAnswer :=
  match fuel with
  | 0 => (s, acc)
  | fuel + 1 =>
    if len = 0 then (s, acc)
    else
      let n := if a % 4 = 0 ∧ 4 ≤ len then 4 else 1
      let s := if write then s.writeAt 0 a n (leNat (data.take n)) else s.readAt 0 a n
      State.barBytes write fuel (a + n) (len - n) (data.drop n) s (acc ++ s.bus)

/-- A memory request of the host: BAR0 takes one doubleword or less, BAR2 1 to 256 bytes within 4 KiB; any other, and every error response, is
answered by Completer Abort. INT_PERRADDR of a refused BAR2 request, which has no device address, holds its offset (log 91). -/
def State.hostMemory (s : State) (bar2 write : Bool) (ofs len : Nat) (data : List Nat) : State :=
  if bar2 = false then
    (if 4 < len ∨ len = 0 ∨ 2 ^ 28 ≤ ofs then (s.answerError 0).perr peWidth 0 (0x40000000 + ofs)
     else if write then s.writeAt 0 (0x40000000 + ofs) len (leNat (data.take len)) else s.readAt 0 (0x40000000 + ofs) len)
  else if len = 0 ∨ 256 < len ∨ 4096 < ofs % 4096 + len then (s.answerError 0).perr peWidth 0 ofs
  else if 0x500000 ≤ ofs then (s.answerError 0).perr peUnmapped 0 ofs
  else
    let a := if ofs < 0x400000 then 0x10000000 + ofs else 0x30000000 + (ofs - 0x400000)
    let r := State.barBytes write len a len data s []
    r.1.setBus (if r.2.any (fun b => b.error) then [⟨0, 0, true⟩] else r.2)

/-- Set bit `k` of the uncorrectable error status (R361): 15 Completer Abort, 20 Unsupported Request (log 89). -/
def State.aerSet (s : State) (k : Nat) : State := s.setNet { s.net with aer := putBit s.net.aer k true }

/-- A request of the host, while the link is up (R361, R362): in D3hot a memory request is unsupported; an error response is reported as a
Completer Abort; the power state is 0 for D0 and 3 for D3hot, and its other values leave it (log 89). -/
def State.hostRequest (s : State) (dst : PcieTo) (write : Bool) (ofs len : Nat) (data : List Nat) : State :=
  if s.flag Reg.NET_PCIE_LINKUP = false then s
  else
    match dst with
    | .power =>
      let v := leNat data % 4
      if write then (s.setNet { s.net with d3 := v = 3 || (s.net.d3 && v != 0) }).answer 0 0 else s.answer 0 (if s.net.d3 then 3 else 0)
    | .aer =>
      if write then (s.setNet { s.net with aer := s.net.aer - (s.net.aer &&& leNat data) }).answer 0 0 else s.answer 0 s.net.aer
    | dst =>
      if s.net.d3 then (s.answerError 0).aerSet 20
      else
        let s := s.hostMemory (dst = .bar2) write ofs len data
        if s.bus.any (fun b => b.error) then s.aerSet 15 else s

/-- PCIE_REQUEST (R361, R362). -/
def execPcieRequest (dst : PcieTo) (write : Bool) (ofs len : Nat) (data : List Byte) (s : State) : Result :=
  done (s.hostRequest dst write ofs len (data.map BitVec.toNat))

end Sys2Proof.Machine
end

