-- ==== Sys2Proof/Machine/Burst.lean ====
section
/-! DEFINITION. The words a DMA burst moves (R374, R377 to R379). -/

namespace Sys2Proof.Machine

/-- The DMA engine as a master (R33). -/
def dmaMaster : Master := 5

/-- A word on its way through a channel (R374). -/
def dmaSwap (mode w : Nat) : Nat :=
  let b (i : Nat) : Nat := w / 256 ^ i % 256
  let word (b0 b1 b2 b3 : Nat) : Nat := b0 + b1 * 256 + b2 * 65536 + b3 * 16777216
  match mode with
  | 0 => w
  | 1 => word (b 1) (b 0) (b 3) (b 2)
  | 2 => word (b 3) (b 2) (b 1) (b 0)
  | _ => word (b 2) (b 3) (b 0) (b 1)

/-- Whether the last access was answered by an error response. -/
def State.busError (s : State) : Bool := s.bus.any (fun b => b.error)

/-- The data of the last access. -/
def State.busData (s : State) : Nat := match s.bus with | b :: _ => b.data | [] => 0

/-- A channel halts at a bus error (R379). -/
def State.dmaFail (s : State) (c a dir : Nat) : State :=
  ((s.dmaError c deBuserr).wr (Reg.DMA_FAIL_FAILADDR c) a).wr (Reg.DMA_CSTAT_DIR c) dir

/-- Where a channel writes next, `done` bytes into a burst for a ring. -/
def State.dmaDest (s : State) (c moved : Nat) : Nat :=
  if s.flag (Reg.DMA_CFG_RINGDST c) then
    let r := s.rd (Reg.DMA_CFG_RING c)
    s.ringAddr r (s.rd (Reg.RNG_WR_WR r) + moved)
  else spGet s.sup.dmaDst c 0

/-- Move `n` words of channel `c`, after `moved` bytes of the burst; false once a bus error has halted it. -/
def State.dmaWords (c : Nat) (n moved : Nat) (s : State) : State × Bool :=
  match n with
  | 0 => (s, true)
  | n + 1 =>
    let src := spGet s.sup.dmaSrc c 0
    let dst := s.dmaDest c moved
    let s := s.readAt dmaMaster src 4
    if s.busError then (s.dmaFail c src 0, false)
    else
      let s := s.writeAt dmaMaster dst 4 (dmaSwap (s.rd (Reg.DMA_CFG_SWAP c)) s.busData)
      if s.busError then (s.dmaFail c dst 1, false)
      else
        let s := s.wr (Reg.DMA_LEFT_LEFT c) (s.rd (Reg.DMA_LEFT_LEFT c) - 4)
        let step (f : Fld) (a : Nat) : Nat := if s.flag f then (a + 4) % 2 ^ 32 else a
        let s := s.setSup { s.sup with
          dmaSrc := spPut s.sup.dmaSrc c (step (Reg.DMA_CFG_SINC c) src)
          dmaDst := if s.flag (Reg.DMA_CFG_RINGDST c) then s.sup.dmaDst else spPut s.sup.dmaDst c (step (Reg.DMA_CFG_DINC c) dst) }
        State.dmaWords c n (moved + 4) s

/-- A burst has ended: a ring's WR advances, and the channel is done, stops, or waits for its next burst (R377, R380). -/
def State.dmaAfter (s : State) (c bytes : Nat) : State :=
  let s :=
    if s.flag (Reg.DMA_CFG_RINGDST c) then
      let r := s.rd (Reg.DMA_CFG_RING c)
      s.wr (Reg.RNG_WR_WR r) ((s.rd (Reg.RNG_WR_WR r) + bytes) % (2 * s.ringSize r))
    else s
  if s.rd (Reg.DMA_LEFT_LEFT c) = 0 then
    (s.wr (Reg.DMA_CSTAT_STATE c) dsDone).wrBit Reg.DMA_DONE_DONE c true
  else if spGet s.sup.dmaStop c 0 % 4 = 1 then (s.dmaHalt c).dmaShow
  else s.wr (Reg.DMA_CSTAT_STATE c) dsWait

/-- What was written during a burst of channel `c`, now at its end: a start, and a stop after it (R375, R380). -/
def State.dmaLater (s : State) (c k : Nat) : State :=
  if k % 4 = 2 then s.dmaFresh (k / 4) c else if k % 4 = 3 then ((s.dmaFresh (k / 4) c).dmaHalt c).dmaShow else s

/-- The burst in progress completes, or halts at a bus error; what was written during it acts, and an engine with EN cleared stops at this boundary (R45, R380). -/
def State.dmaBurstEnd (s : State) : State :=
  match s.sup.dmaCur with
  | none => s
  | some c =>
    let bytes := s.dmaNextBytes c
    let r := State.dmaWords c (bytes / 4) 0 s
    let s := if r.2 then r.1.dmaAfter c bytes else r.1
    let k := spGet s.sup.dmaStop c 0
    let s := s.setSup { s.sup with
      dmaCur := none, dmaNext := (c + 1) % 32, dmaStop := spDel s.sup.dmaStop c, dmaLast := spPut s.sup.dmaLast c s.clk.ticks }
    let s := s.dmaLater c k
    if s.rd (blockEn .dma) = 0 then s.dmaStopped else s

/-- DMA_BURST_END (R377). -/
def execDmaBurstEnd (s : State) : Result := done s.dmaBurstEnd

end Sys2Proof.Machine
end

