-- ==== Sys2Proof/Machine/Frame.lean ====
section
/-! DEFINITION. The frame start and the firing of the class 1 triggers (R34, R35, R354, R355). -/

namespace Sys2Proof.Machine

/-- A channel's latest value as one word: flags, sequence, residue and data (R63). -/
def State.channelWord (s : State) (c : Nat) : Nat :=
  s.rd (Reg.ACQ_CHVAL_VALID c) * 2 ^ 31 + s.rd (Reg.ACQ_CHVAL_SAT c) * 2 ^ 30 + s.rd (Reg.ACQ_CHVAL_STALE c) * 2 ^ 29
    + s.rd (Reg.ACQ_CHVAL_NOSYNC c) * 2 ^ 28 + s.rd (Reg.ACQ_CHVAL_SEQ c) * 2 ^ 20 + s.rd (Reg.ACQ_CHVAL_RES c) * 2 ^ 16
    + s.rd (Reg.ACQ_CHVAL_DATA c)

/-- The latest-value store is read through its code: an uncorrectable word fences ACQ_ and leaves its channel without VALID (R440). -/
def State.channelRead (s : State) : State :=
  if s.regionOn .acq = false then s
  else
    let t := s.readWords 6 (fun w => decide (4096 ≤ w))
    if t.2 = [] then t.1 else t.2.foldl (fun s w => s.set0 (Reg.ACQ_CHVAL_VALID ((w - 4096) / 2 % 64))) (t.1.acqEcc kEcc)

/-- The copy of all 64 channel values with their instants at the compute start (R63). -/
def State.channelSnapshot (s : State) : State :=
  let s := s.channelRead
  let copy (f : Nat → Nat) : Sparse Nat := (List.range 64).foldl (fun m c => spSet m c (f c) 0) []
  s.setAcq { s.acq with snap := copy s.channelWord, snapTime := copy (fun c => s.rd (Reg.ACQ_CHTIME_TIME c)) }

/-- `f` where no change of mode of higher rank has met the frame that `old` began (R431). -/
def State.ranked (old s : State) (f : State → State) : State := if s.mode = old.mode then f s else s

/-- The changes of mode that meet a frame start, in the order of R431: LOCKOUT, a trip, the Mallet, the claim logic, and a request; the first that
applies leaves the others to a later frame. -/
def State.frameModes (s : State) : State :=
  let t := (if s.regionOn .grd then s else s.inhibitTrip).readyTrip.enterLockout
  let t := (State.ranked s t State.tripEntry).handoverFrame
  let t := State.ranked s (State.ranked s t State.shadowModes) State.claim
  let t := State.ranked s t State.claimFrame
  let u := (t.judgeRequest s).autorun s
  u.setCtl { u.ctl with leftReady := t.mode = mReady && isForming u.mode }

/-- The blocks that finish their frame with EN cleared (R45). -/
def State.frameStops (s : State) : State :=
  [Block.frm, .prf, .mod, .rsp].foldl State.unitComplete s.angFrameEnd

/-- The registers of the frame are latched (R35), with the replacements then in use (R108, R125). -/
def State.frameLatch (s : State) : State := (s.setLatch s.regs).clampNote s

/-- The frame that starts at device time `t0`: its number, a commit that is due, the latches and copies, the changes of mode, and the first
steps of the blocks (R34, R35, R63, R97, R180, R422, R427). -/
def State.frameBody (s : State) (t0 : Nat) (x : FrameIn) : State :=
  let s := (s.wr Reg.MQT_LFRAME_NOW (s.rd Reg.MQT_LFRAME_NOW + 1)).setFrm { s.frm with t0 := t0 }
  let s := s.setAng { s.ang with resBad := x.angBad }
  let s := s.frameStops.liveCommit.frameLatch.channelSnapshot.itestFrame.partnerAge.mirFrame
  let s := s.frameModes.prfFrame.modFrameStart.armFrame.acpTargets.linkFrame.bridgeFrame
  s.tofsFrame x.tofs

/-- The firing of class 1 trigger 0: what names it starts, the sequencers of the FRAME trigger too, and a frame begins (R34, R60, R355). -/
def State.frameStart (s : State) (x : FrameIn) : State :=
  if s.flag (Reg.PTP_TRGCFG_EN 0) && s.regionOn .net then
    let next := s.rd (Reg.PTP_TRGNEXT_NEXT 0)
    let t0 := if diff32 next s.now < 0 then s.now else next
    ((s.triggerFire 0).frameBody t0 x).triggerStarts 0 |>.seqTriggers 2 none
  else s

/-- FRAME_START (R34). -/
def execFrameStart (x : FrameIn) (s : State) : Result := done (s.frameStart x)

/-- TIME_TRIGGER_FIRE (R354); trigger 0 starts a frame (R355), with the offset of the partner's time as last reported and no mismatch. -/
def execTimeTriggerFire (k : Fin 16) (s : State) : Result :=
  done (if k.val = 0 then s.frameStart ⟨signed 32 (s.rd Reg.MIR_TOFS_TOFS), none⟩
    else if s.flag (Reg.PTP_TRGCFG_EN k.val) && s.regionOn .net then (s.triggerFire k.val).triggerStarts k.val
    else s)

end Sys2Proof.Machine
end

