-- ==== Sys2Proof/Machine/Node.lean ====
section
/-! DEFINITION. The submodule nodes (07): passing, folding and repeating frames (R212 to R214), the clock (R219 to R222), the states and
the obeying rules (R224 to R229), and the points (R232, R236). Side U is 0, side D is 1. -/

namespace Sys2Proof.Machine

/-! ## What the node's design fixes -/

def nodeId (j : Nat) : Nat := 1 + Config.nodeParam j 0 % (2 ^ 64 - 1)
/-- h_out and h_ret in 0.05 ns: whole unit intervals, at most 32 ns and 8 ns (R212, R213). -/
def nodeHout (j : Nat) : Nat := 8 * (Config.nodeParam j 1 % 81)
def nodeHret (j : Nat) : Nat := 8 * (Config.nodeParam j 2 % 21)
def nodeType (j : Nat) : Nat := Config.nodeParam j 3 % 4
def nodeMaker (j : Nat) : Nat := Config.nodeParam j 4 % 65536
/-- Points 16 to 31: 0 not implemented, 1 read-only, 2 read-write. -/
def nodePointKind (j p : Nat) : Nat := Config.nodeParam j (16 + p) % 3

def nInit : Nat := 0
def nAcquire : Nat := 1
def nSyncing : Nat := 2
def nWaitAdmit : Nat := 3
def nRun : Nat := 4
def nHold : Nat := 5
def nBlocked : Nat := 6
def nFault : Nat := 7

/-- Device time in 0.05 ns units wraps here. -/
def unitsMod : Nat := 2 ^ 32 * 20

def State.node (s : State) (j : Nat) : Node := spGet s.nodes j Node.reset
def State.putNode (s : State) (j : Nat) (n : Node) : State := s.setNodes (spSet s.nodes j n Node.reset)

/-- The offset of the node's time at local count `arr`: it goes on slewing at the frequency of the last correction (R221, R222). -/
def Node.shift (n : Node) (arr : Int) : Int := n.ofs + n.slew * (arr - n.ref) / ((max 1 n.per * 20 : Nat) : Int)

/-- The node's time, in 0.05 ns units, at local count `arr`. -/
def Node.timeAt (n : Node) (arr : Int) : Int := (arr + n.shift arr) % (unitsMod : Nat)

/-- `a - b` in 0.05 ns units by the rule of R9. -/
def unitDiff (a b : Int) : Int :=
  let d := (a - b) % (unitsMod : Nat)
  if d < (unitsMod / 2 : Nat) then d else d - (unitsMod : Nat)

/-! ## The clock (R219 to R222) -/

/-- A filtered error is taken in at local count `arr`: SYNC, a step where R222 allows it, else a slew of at most 200 ppm over the
coming period. -/
def Node.steer (n : Node) (j per : Nat) (arr raw : Int) : Node :=
  let e := Config.nodeFilter j n.err raw
  let ok := if e.natAbs ≤ 80 then min (n.okRun + 1) 16 else 0
  let bad := if 160 < e.natAbs then min (n.badRun + 1) 4 else 0
  let sync := if 16 ≤ ok then true else if 4 ≤ bad then false else n.sync
  let lim : Int := (per / 250 : Nat)
  let n := { n with err := e, okRun := ok, badRun := bad, sync := sync, ofs := n.shift arr, ref := arr }
  if 20000 < e.natAbs ∧ n.st ≠ nRun ∧ n.st ≠ nHold then { n with ofs := n.ofs - e, slew := clampInt (-lim) lim n.slew, per := per }
  else { n with slew := clampInt (-lim) lim (Config.nodeSlew j e), per := per }

/-- RTT_i for a frame of end `e`: 0 where the node folds it, else the round trip last measured on the side it leaves by (R219). -/
def Node.rttFrom (n : Node) (e : Nat) : Nat := if spGet n.fold (1 - e) 0 = 1 then 0 else spGet n.rtt (1 - e) 0

/-- The arrival time by R219, in 0.05 ns units. -/
def tArrSingle (j h rtt : Nat) : Int :=
  (hApply h * 20 : Nat) - (hLead h : Nat) + ((hRt h : Int) - (rtt : Nat) - (nodeHout j : Nat) - (nodeHret j : Nat) + (hCala h : Nat)) / 2

/-- The arrival time of frame X by R220, with frame Y of the other end. -/
def tArrDual (j : Nat) (x y : NodeSeen) : Int :=
  (x.apply * 20 : Nat) - (x.lead : Nat)
    + ((x.rt : Int) - (nodeHout j : Nat) + (x.arr - y.arr) + (x.lead : Nat) - (y.lead : Nat)) / 2

/-- Whether the node times from the frame of end `e` and not of the other (R221). -/
def timesFrom (e : Nat) (mine other : Bool) : Bool := if e = 0 then mine || !other else mine && !other

/-- The clock correction of a frame with header `h` that arrived at local count `arr` (R219 to R221). The frame the node times from
corrects the clock by R219 at its own arrival where its TOPO is SINGLE, and by R220 once both frames with its APPLY are there where it is
DUAL; a DUAL frame whose pair does not come corrects nothing. -/
def Node.clock (n : Node) (j h : Nat) (arr : Int) : Node :=
  let e := hEnd h
  let me : NodeSeen := { apply := hApply h, lead := hLead h, rt := hRt h, arr := arr, active := hActive h, dual := hTopo h = 1 }
  let n' := { n with seen := spPut n.seen e me }
  let per := hPeriod h * 500
  let dual (x y : NodeSeen) : Node := n'.steer j per arr (unitDiff (n.timeAt x.arr) (tArrDual j x y))
  let single : Node :=
    { n' with timed := e }.steer j per arr (unitDiff (n.timeAt arr) (tArrSingle j h (n.rttFrom e)))
  match spFind n.seen (1 - e) with
  | none => if me.dual then n' else single
  | some y =>
    let same := decide (y.apply = me.apply)
    let near := decide ((diff32 me.apply y.apply).natAbs ≤ 2 * per)
    if near && !timesFrom e me.active y.active then (if same && y.dual then dual y me else n')
    else if me.dual then (if same then dual me y else n')
    else single

/-! ## Points (R236) -/

/-- The status word (R225), with a pending reply (value + 2^32 RERR + 2^33 TAG) if any. -/
def Node.status (n : Node) (x : NodeSense) (reply : Option Nat) : Nat :=
  let r := match reply with
    | some r => 2 ^ 15 + bitsOf r 33 1 * 2 ^ 14 + bitsOf r 32 1 * 2 ^ 13
    | none => 0
  r + (if x.warn then 2 ^ 11 else 0) + (if n.cmdErr then 2 ^ 10 else 0) + (if n.late then 2 ^ 9 else 0) + (if n.epRej then 2 ^ 8 else 0)
    + (if n.admitted then 2 ^ 7 else 0) + (if n.sync then 2 ^ 6 else 0) + (if n.byp then 2 ^ 5 else 0) + (if x.fault then 2 ^ 4 else 0) + n.st

/-- Whole frames spent in HOLD at node time `t` (in ns) since HOLD was entered at P + T (R228). -/
def Node.heldFor (n : Node) (t : Nat) : Nat :=
  match n.cur with
  | some c => if n.st = nHold then (diff32 t (c.apply + c.per)).toNat / max 1 c.per else 0
  | none => 0

/-- The count of point 5 at node time `t`. -/
def Node.holdTotal (n : Node) (t : Nat) : Nat := min (n.holdCnt + n.heldFor t) 65535

/-- HOLD ends at node time `t`. -/
def Node.leaveHold (n : Node) (t : Nat) : Node := { n with holdCnt := n.holdTotal t }

/-- The switch state `c` takes effect: it counts as a switching operation where it differs. -/
def Node.switch (n : Node) (c : Nat) : Node :=
  if n.byp ∨ n.sw = c then n else { n with sw := c, swCnt := min (n.swCnt + 1) (2 ^ 32 - 1) }

/-- The value of point `p` at node time `t` (in ns); `none` where the node does not implement it. Point 11 is RTT_i as the SINGLE frame that the
node timed from last used it (R219), of END = 0 before the first. -/
def Node.point (n : Node) (j p t : Nat) (x : NodeSense) : Option Nat :=
  match p with
  | 0 => some (nodeId j % 2 ^ 32)
  | 1 => some (nodeId j / 2 ^ 32)
  | 2 => some (1 + nodeType j * 2 ^ 4 + nodeMaker j * 2 ^ 16)
  | 3 => some (nodeHout j + nodeHret j * 2 ^ 16)
  | 4 => some (spGet n.pts 4 0)
  | 5 => some (n.st + n.cause * 2 ^ 4 + n.holdTotal t * 2 ^ 16)
  | 6 => some ((if n.admitted then 2 ^ 31 else 0) + n.csig)
  | 7 => some (spGet n.pts 7 0)
  | 8 => some (spGet n.crcCnt 0 0 + spGet n.crcCnt 1 0 * 2 ^ 16)
  | 9 => some (n.slotErr + n.cmdErrs * 2 ^ 16)
  | 10 =>
    some (pattern 16 (satInt 16 n.err) + pattern 16 (satInt 16 (if n.per = 0 then 0 else n.slew * 5000000 / (n.per : Nat))) * 2 ^ 16)
  | 11 => some (n.rttFrom n.timed % 2 ^ 24)
  | 12 => some (x.temp.toNat + x.temp2.toNat * 2 ^ 16)
  | 13 => some n.swCnt
  | 14 => some (spGet n.pts 14 0)
  | 15 => some x.cause.toNat
  | p =>
    match nodePointKind j p with
    | 0 => none
    | 1 => some (Config.nodeParam j (64 + p) % 2 ^ 32)
    | _ => some (spGet n.pts p 0)

/-- Whether a node accepts a write of point `p`. -/
def pointWritable (j p : Nat) : Bool := p = 4 || p = 6 || p = 7 || p = 14 || (decide (16 ≤ p) && nodePointKind j p = 2)

/-- The effect of a write of point `p`. -/
def Node.writePoint (n : Node) (p v : Nat) (x : NodeSense) : Node :=
  match p with
  | 4 => { n with pts := spSet n.pts 4 (v % 65536) 0 }
  | 6 =>
    let ad := bitAt v 31
    let n := { n with admitted := ad, csig := v % 65536 }
    if ad ∧ n.st = nWaitAdmit then { n with st := nRun, ran := false } else n
  | 14 =>
    let n := { n with pts := spSet n.pts 14 (v / 2 % 2 * 2) 0 }
    let n := if bitAt v 2 then { n with crcCnt := [], slotErr := 0, cmdErrs := 0 } else n
    if bitAt v 0 ∧ n.st = nFault ∧ x.fault = false then
      { n with st := if n.admitted then nRun else nWaitAdmit, ran := false }.switch 4
    else n
  | p => { n with pts := spSet n.pts p v 0 }

/-- The point operation of a frame with a correct HCRC (R232), its slot's CRC-16 right or not: executed from SYNCING on; the reply is
kept for the next frame of the same end. Before admission condition 1 is waived for point 6, and of the other points CSIG is not asked of
point 4 alone, which R238 has the port write before point 6 (DEDUCED, log 48). `t` is the node's time in ns. -/
def Node.pointOp (n : Node) (j h pop data : Nat) (slot : Bool) (t : Nat) (x : NodeSense) : Node :=
  let opc := pop / 64
  let p := pop % 32
  let first := !n.admitted
  let cond1 := (first && p = 6) || (hVer h = 1 && ((first && p = 4) || hCsig h = n.csig))
  let cond2 := hActive h && decide (n.eh ≤ hEpoch h)
  let reply (n : Node) (v : Option Nat) : Node :=
    let tag := bitsOf pop 5 1 * 2 ^ 33
    { n with reply := spPut n.reply (hEnd h) (match v with | some v => v + tag | none => 2 ^ 32 + tag) }
  if n.st = nInit ∨ n.st = nAcquire ∨ opc = 0 then n
  else if opc = 2 then
    (if (cond1 && cond2 && (slot || hAllblock h)) = false then n
     else if pointWritable j p then
      let n := n.writePoint p data x
      reply n (n.point j p t x)
     else reply n none)
  else if slot = false then n
  else reply n (if opc = 1 then n.point j p t x else none)

/-! ## Obeying (R226, R227) -/

/-- Whether the command of a slot has content that the device never writes (R227). -/
def badCommand (j w : Nat) : Bool :=
  let s0 := w % 4
  let s1 := w / 4 % 4
  let s2 := w / 16 % 4
  let half := nodeType j % 2 = 0
  s0 = 3 || s1 = 3 || s2 = 3 || decide (bitsOf w 24 16 < bitsOf w 8 16) || (bitAt w 7 && w % 128 != 0)
    || (half && (s0 = 2 || s1 = 2 || s2 = 2))

/-- Keep a command for its apply time: the highest epoch, and among equals the first (R227). -/
def keepCmd (c : NodeCmd) : List NodeCmd → List NodeCmd
  | [] => [c]
  | d :: r =>
    if d.apply = c.apply then (if d.epoch < c.epoch then c :: r else d :: r)
    else if diff32 c.apply d.apply < 0 then c :: d :: r
    else d :: keepCmd c r

/-- The node judges the command of a frame (R218, R226, R227); `slot` tells whether the slot's CRC-16 is right, `fin` is the node's
time in ns at the end of the frame and `tick` the tick. An APPLY that is in time lies after one applied a second ago or more, whatever
their low 32 bits say. -/
def Node.accept (n : Node) (j h w : Nat) (slot : Bool) (fin tick : Nat) : Node :=
  let cond1 := hVer h = 1 && hCsig h = n.csig
  let low := hActive h && decide (hEpoch h < n.eh)
  let n := if low then { n with epRej := true } else n
  if (cond1 && hActive h && !low && n.admitted && n.sync && (slot || hAllblock h)) = false then n
  else
    let margin := diff32 (hApply h) fin
    let per := hPeriod h * 500
    let after := match n.cur with | some c => decide (n.curTick + ticksMs 1000 ≤ tick) || decide (0 < diff32 (hApply h) c.apply) | none => true
    if margin < 250 then { n with late := true }
    else if after = false ∨ (2 * per : Nat) < margin then n
    else
      let bad := !hAllblock h && badCommand j w
      let bits := if hAllblock h || bad then 0x80 else w % 2 ^ 40
      let n := { n with cmds := keepCmd ⟨hApply h, hEpoch h, bits, per, hHold h + 1⟩ n.cmds }
      if bad then { n with cmdErr := true, cmdErrs := min (n.cmdErrs + 1) 65535 } else n

/-! ## A frame passes (R212, R214, R239) -/

/-- What a frame with a correct HCRC brings before its slots: the header's state changes, the clock, E_h. -/
def Node.header (n : Node) (j h : Nat) (arr : Int) (tick : Nat) : Node :=
  let n := if hActive h ∧ n.eh < hEpoch h then { n with eh := hEpoch h } else n
  if n.st = nInit then n
  else
    let n := { n with hdrTick := tick }
    let n := if n.st = nAcquire ∧ hVer h = 1 then { n with st := nSyncing } else n
    let n := n.clock j h arr
    if n.st = nSyncing ∧ n.sync = true then { n with st := nWaitAdmit } else n

/-- A processed frame: the header with HOPS and CALA, the HCRC, the slots with the own one replaced, and the CRC-32C. -/
def passedFrame (j h : Nat) (f : List Nat) (fold bad : Bool) (own : Option (Nat × List Nat)) : List Nat :=
  let h := putBits h 168 10 (hHops h + 1)
  let h := if hTopo h = 0 then putBits h 120 24 (hCala h + 2 ^ 24 + nodeHout j - nodeHret j) else h
  let h := withHcrc (if fold then putBits h 212 1 1 else h) bad
  let slots := (f.drop 32).take (f.length - 36)
  let slots := match own with
    | some (k, l) => slots.take (12 * k) ++ l ++ slots.drop (12 * k + 12)
    | none => slots
  sealFrame (leBytes 32 h ++ slots)

/-- A frame delivered by the receiver of a side, for folding (R214). -/
def Node.delivered (n : Node) (side : Nat) (ok : Bool) : Node :=
  { n with ret := spSet n.ret side (if ok then min (spGet n.ret side 0 + 1) 8 else 0) 0, noRet := spSet n.noRet side 0 0 }

/-- A node processes a frame that started with SOF_P (R212). -/
def State.nodeProcess (s : State) (j : Nat) (fromD : Bool) (f : List Nat) (arr : Nat) (x : NodeSense) : State :=
  let n := s.node j
  let h := leNat (f.take 32)
  let inn := if fromD then 1 else 0
  let down := 1 - inn
  let hc := hcrcOk h
  let crc := frameCrcOk f
  if fromD ∧ hc = true ∧ hEnd h = 0 ∧ hTopo h = 0 ∧ spGet n.side 0 0 = 0 then s.emit (.swap j)
  else
    let n := (n.delivered inn crc)
    let n := { n with noRet := spSet n.noRet down (min (spGet n.noRet down 0 + 1) 2) 0, left := spPut n.left down ((arr + nodeHout j : Nat) : Int) }
    let n := if crc then n else { n with crcCnt := spSet n.crcCnt inn (min (spGet n.crcCnt inn 0 + 1) 65535) 0 }
    let k := if hEnd h = 0 then hHops h else hNslot h - 1 - hHops h
    let mine := hc && decide (hHops h < hNslot h)
    let n := if hc then n.header j h arr s.clk.ticks else n
    let g := slotIndex h k
    let reply := spFind n.reply (hEnd h)
    let own : Option (Nat × List Nat) :=
      if mine then
        some (k, slotBytes g true false (n.status x reply + x.vcap.toNat * 2 ^ 16 + x.aux.toNat * 2 ^ 32
          + (match reply with | some r => r % 2 ^ 32 | none => 0) * 2 ^ 48))
      else none
    let slot := slotOk g false (frameSlot f k)
    let w := leNat (frameSlot f k)
    let n' : Node :=
      if mine then
        let n := { n with reply := spDel n.reply (hEnd h), cmdErr := false, late := false, epRej := false }
        let n := if slot then n else { n with slotErr := min (n.slotErr + 1) 65535 }
        let fin := (n.timeAt arr).toNat / 20 + (f.length + 3) * 4
        let n := n.accept j h w slot fin s.clk.ticks
        n.pointOp j h (bitsOf w 40 8) (bitsOf w 48 32) slot fin x
      else n
    let folded := decide (spGet n'.fold down 0 = 1)
    let s := (s.putNode j n').emit (.node j (!fromD) false (passedFrame j h f false (!hc) own))
    if folded then s.emit (.node j fromD true (passedFrame j h f true (!hc) own)) else s

/-- A node repeats a returning frame unchanged (R213) and measures RTT on that side (R219). -/
def State.nodeRepeat (s : State) (j : Nat) (fromD : Bool) (f : List Nat) (arr : Nat) : State :=
  let n := s.node j
  let side := if fromD then 1 else 0
  let crc := frameCrcOk f
  let n := n.delivered side crc
  let n := match spFind n.left side with
    | some t => { n with rtt := spSet n.rtt side ((arr : Int) - t).toNat 0 }
    | none => n
  let n := if crc then n else { n with crcCnt := spSet n.crcCnt side (min (spGet n.crcCnt side 0 + 1) 65535) 0 }
  (s.putNode j n).emit (.node j (!fromD) true f)

/-! ## Applying, holding, blocking (R217, R224, R228, R229) -/

/-- The instant of a command's phase: APPLY, t1 or t2. -/
def NodeCmd.at_ (c : NodeCmd) (phase : Nat) : Nat :=
  let t := if phase = 0 then 0 else if phase = 1 then bitsOf c.bits 8 16 else bitsOf c.bits 24 16
  (c.apply + t * c.per / 65536) % 2 ^ 32

/-- The state code of a command's phase; 4 for the blocked command. -/
def NodeCmd.code (c : NodeCmd) (phase : Nat) : Nat := if bitAt c.bits 7 then 4 else bitsOf c.bits (2 * phase) 2

/-- The node changes its submodule state as commanded (R217, R229). -/
def State.nodeApply (s : State) (j phase : Nat) : State :=
  let n := s.node j
  let live := n.st = nRun ∨ n.st = nHold ∨ n.st = nBlocked
  if phase = 0 then
    match n.cmds with
    | [] => s
    | c :: r =>
      if live then
        let s := s.elapseToDevice (c.at_ 0)
        let n := { n.leaveHold c.apply with st := nRun, cmds := r, cur := some c, curTick := s.clk.ticks, ran := true }
        let n := n.switch (c.code 0)
        s.putNode j (if bitAt c.bits 6 then { n with byp := true } else n)
      else s.putNode j { n with cmds := r }
  else
    match n.cur with
    | some c => if n.st = nRun ∧ n.ran = true then (s.elapseToDevice (c.at_ phase)).putNode j (n.switch (c.code phase)) else s
    | none => s

/-- Whether a kept command applies by device time `t`. -/
def Node.cmdBy (n : Node) (t : Nat) : Bool := n.cmds.any (fun c => decide (diff32 c.apply t ≤ 0))

/-- HOLD is entered at P + T (R228). -/
def State.nodeHold (s : State) (j : Nat) : State :=
  let n := s.node j
  match n.cur with
  | some c =>
    let t := (c.apply + c.per) % 2 ^ 32
    if n.st = nRun ∧ n.ran = true ∧ n.cmdBy t = false then (s.elapseToDevice t).putNode j { n with st := nHold } else s
  | none => s

/-- BLOCKED is entered at P + (H + 1) x T (R228). -/
def State.nodeBlock (s : State) (j : Nat) : State :=
  let n := s.node j
  match n.cur with
  | some c =>
    let t := (c.apply + (c.hold + 1) * c.per) % 2 ^ 32
    if n.st = nHold ∧ n.cmdBy t = false then
      (s.elapseToDevice t).putNode j ({ n.leaveHold t with st := nBlocked, cause := Config.nodeParam j 5 % 16 }.switch 4)
    else s
  | none => s

/-! ## Meanings -/

/-- NODE_SELF_TEST_PASS (R224). -/
def execNodeSelfTestPass (j : Fin 8192) (s : State) : Result :=
  done (if (s.node j).st = nInit then s.putNode j { s.node j with st := nAcquire, hdrTick := s.clk.ticks } else s)

/-- NODE_FRAME_PROCESS (R212). -/
def execNodeFrameProcess (j : Fin 8192) (fromD : Bool) (f : List Byte) (arr : Nat) (x : NodeSense) (s : State) : Result :=
  done (s.nodeProcess j fromD (f.map BitVec.toNat) arr x)

/-- NODE_FRAME_REPEAT (R213). -/
def execNodeFrameRepeat (j : Fin 8192) (fromD : Bool) (f : List Byte) (arr : Nat) (s : State) : Result :=
  done (s.nodeRepeat j fromD (f.map BitVec.toNat) arr)

/-- The number of a side. -/
def sideNo (d : Bool) : Nat := if d then 1 else 0

/-- NODE_FOLD (R214): the downstream receiver has no alignment, or has delivered no returning frame for two periods. -/
def execNodeFold (j : Fin 8192) (sideD : Bool) (s : State) : Result :=
  let n := s.node j
  let d := sideNo sideD
  done (if spGet n.side d 0 = 0 ∨ 2 ≤ spGet n.noRet d 0 then
    s.putNode j { n with fold := spSet n.fold d 1 0, ret := spSet n.ret d 0 0 } else s)

/-- NODE_UNFOLD (R214): eight returning frames with a correct CRC-32C in a row. -/
def execNodeUnfold (j : Fin 8192) (sideD : Bool) (s : State) : Result :=
  let n := s.node j
  let d := sideNo sideD
  done (if spGet n.fold d 0 = 1 ∧ 8 ≤ spGet n.ret d 0 then s.putNode j { n with fold := spSet n.fold d 0 0 } else s)

/-- NODE_APPLY (R217). -/
def execNodeApply (j : Fin 8192) (phase : Fin 3) (s : State) : Result := done (s.nodeApply j phase)

/-- NODE_HOLD_ENTRY (R228). -/
def execNodeHoldEntry (j : Fin 8192) (s : State) : Result := done (s.nodeHold j)

/-- NODE_BLOCK_ENTRY (R228). -/
def execNodeBlockEntry (j : Fin 8192) (s : State) : Result := done (s.nodeBlock j)

/-- NODE_ACQUIRE_TIMEOUT (R224): no header with a correct HCRC for 10 ms; admission is cleared. -/
def execNodeAcquireTimeout (j : Fin 8192) (s : State) : Result :=
  let n := s.node j
  done (if n.st = nInit ∨ n.st = nFault ∨ n.st = nAcquire then s
    else
      let s := s.elapseTo (n.hdrTick + ticksMs 10)
      s.putNode j ({ n.leaveHold s.now with st := nAcquire, admitted := false, sync := false, okRun := 0, cmds := [], ran := false }.switch 4))

/-- NODE_PROTECTION_TRIP (R224): the node enters FAULT and acts as its design defines. -/
def execNodeProtectionTrip (j : Fin 8192) (cause : Fin 16) (sw : Fin 5) (s : State) : Result :=
  let n := s.node j
  done (if n.st = nInit then s else s.putNode j ({ n.leaveHold s.now with st := nFault, cause := cause, ran := false }.switch sw))

/-- NODE_RX_ALIGN (R206): a receiver gains or loses alignment, and may have inverted its polarity. -/
def execNodeRxAlign (j : Fin 8192) (sideD aligned invert : Bool) (s : State) : Result :=
  let n := s.node j
  let d := sideNo sideD
  let n := { n with side := spSet n.side d (if aligned then 1 else 0) 0 }
  done (s.putNode j (if invert then { n with inv := spSet n.inv d (1 - spGet n.inv d 0) 0 } else n))

end Sys2Proof.Machine
end

