-- ==== Sys2Proof/Machine/Dispatch.lean ====
section
/-! DEFINITION. What every command does (opcode_table.json): one meaning per row. -/

namespace Sys2Proof.Machine

/-- The command's effect on everything but the queue. -/
def exec (i : Instr) (s : State) : Host.Outcome State Fault Refusal :=
  match i with
  | .registerWrite m a size v => Sys2Proof.Machine.execRegisterWrite m a size v s
  | .unmappedAccess m write a => Sys2Proof.Machine.execUnmappedAccess m write a s
  | .regionOffAccess m write a => Sys2Proof.Machine.execRegionOffAccess m write a s
  | .blockEnClear m b => Sys2Proof.Machine.execBlockEnClear m b s
  | .blockEnSet m b => Sys2Proof.Machine.execBlockEnSet m b s
  | .blockUnitComplete b => Sys2Proof.Machine.execBlockUnitComplete b s
  | .regionPowerDown m r => Sys2Proof.Machine.execRegionPowerDown m r s
  | .regionDrainEnd r => Sys2Proof.Machine.execRegionDrainEnd r s
  | .regionPowerUp m r => Sys2Proof.Machine.execRegionPowerUp m r s
  | .regionReset m r => Sys2Proof.Machine.execRegionReset m r s
  | .regionReload r => Sys2Proof.Machine.execRegionReload r s
  | .regionLost r k => Sys2Proof.Machine.execRegionLost r k s
  | .frameStart x => Sys2Proof.Machine.execFrameStart x s
  | .angFrameUpdate => Sys2Proof.Machine.execAngFrameUpdate s
  | .pllPersistenceExpiry => Sys2Proof.Machine.execPllPersistenceExpiry s
  | .zcEdge code => Sys2Proof.Machine.execZcEdge code s
  | .sectorDeadTimeout => Sys2Proof.Machine.execSectorDeadTimeout s
  | .idxarm m => Sys2Proof.Machine.execIdxarm m s
  | .angEnableChange m en => Sys2Proof.Machine.execAngEnableChange m en s
  | .sawWordReceived w => Sys2Proof.Machine.execSawWordReceived w s
  | .sawTimeout => Sys2Proof.Machine.execSawTimeout s
  | .acpFire n => Sys2Proof.Machine.execAcpFire n s
  | .acpPulseEnd n => Sys2Proof.Machine.execAcpPulseEnd n s
  | .acpArm m n => Sys2Proof.Machine.execAcpArm m n s
  | .seqGo m n => Sys2Proof.Machine.execSeqGo m n s
  | .seqDelayExpiry n => Sys2Proof.Machine.execSeqDelayExpiry n s
  | .adcEntryResult n e raw incoming resOk => Sys2Proof.Machine.execAdcEntryResult n e raw incoming resOk s
  | .queueRead m q => Sys2Proof.Machine.execQueueRead m q s
  | .calStart m => Sys2Proof.Machine.execCalStart m s
  | .calComplete factors => Sys2Proof.Machine.execCalComplete factors s
  | .rotSlotStart => Sys2Proof.Machine.execRotSlotStart s
  | .rotCalComplete factors => Sys2Proof.Machine.execRotCalComplete factors s
  | .rotHandoverDecision => Sys2Proof.Machine.execRotHandoverDecision s
  | .burnoutTestStart => Sys2Proof.Machine.execBurnoutTestStart s
  | .burnoutTestResult raw => Sys2Proof.Machine.execBurnoutTestResult raw s
  | .svStreamStale st => Sys2Proof.Machine.execSvStreamStale st s
  | .formingFrame frmBad prfBad => Sys2Proof.Machine.execFormingFrame frmBad prfBad s
  | .stage2End => Sys2Proof.Machine.execStage2End s
  | .iholdTrip => Sys2Proof.Machine.execIholdTrip s
  | .rideThroughExit => Sys2Proof.Machine.execRideThroughExit s
  | .islandDetect why => Sys2Proof.Machine.execIslandDetect why s
  | .breakerClosedDetect => Sys2Proof.Machine.execBreakerClosedDetect s
  | .bsarmWrite m v => Sys2Proof.Machine.execBsarmWrite m v s
  | .waitDeadExpiry => Sys2Proof.Machine.execWaitDeadExpiry s
  | .claimSlotExpiry => Sys2Proof.Machine.execClaimSlotExpiry s
  | .joinSettle => Sys2Proof.Machine.execJoinSettle s
  | .resyncCloseTimeout => Sys2Proof.Machine.execResyncCloseTimeout s
  | .resyncGridTimeout => Sys2Proof.Machine.execResyncGridTimeout s
  | .prfLoad m n => Sys2Proof.Machine.execPrfLoad m n s
  | .fabricStart => Sys2Proof.Machine.execFabricStart s
  | .armatureDeadline => Sys2Proof.Machine.execArmatureDeadline s
  | .portWordArrival t p => Sys2Proof.Machine.execPortWordArrival t p s
  | .nop t c => Sys2Proof.Machine.execNop t c s
  | .endOp t c => Sys2Proof.Machine.execEnd t c s
  | .clr t c => Sys2Proof.Machine.execClr t c s
  | .lda t c hit => Sys2Proof.Machine.execLda t c hit s
  | .mul t c hit => Sys2Proof.Machine.execMul t c hit s
  | .mac t c hit => Sys2Proof.Machine.execMac t c hit s
  | .msu t c hit => Sys2Proof.Machine.execMsu t c hit s
  | .add t c hit => Sys2Proof.Machine.execAdd t c hit s
  | .sub t c hit => Sys2Proof.Machine.execSub t c hit s
  | .adda t c hit => Sys2Proof.Machine.execAdda t c hit s
  | .suba t c hit => Sys2Proof.Machine.execSuba t c hit s
  | .sha t c hit => Sys2Proof.Machine.execSha t c hit s
  | .neg t c hit => Sys2Proof.Machine.execNeg t c hit s
  | .abs t c hit => Sys2Proof.Machine.execAbs t c hit s
  | .max t c hit => Sys2Proof.Machine.execMax t c hit s
  | .min t c hit => Sys2Proof.Machine.execMin t c hit s
  | .lim t c hit => Sys2Proof.Machine.execLim t c hit s
  | .str t c hit => Sys2Proof.Machine.execStr t c hit s
  | .mov t c hit => Sys2Proof.Machine.execMov t c hit s
  | .sel t c hit => Sys2Proof.Machine.execSel t c hit s
  | .ldx t c hit => Sys2Proof.Machine.execLdx t c hit s
  | .stx t c hit => Sys2Proof.Machine.execStx t c hit s
  | .sin t c hit => Sys2Proof.Machine.execSin t c hit s
  | .cos t c hit => Sys2Proof.Machine.execCos t c hit s
  | .atn t c hit => Sys2Proof.Machine.execAtn t c hit s
  | .sqr t c hit => Sys2Proof.Machine.execSqr t c hit s
  | .div t c hit => Sys2Proof.Machine.execDiv t c hit s
  | .mag t c hit => Sys2Proof.Machine.execMag t c hit s
  | .illegalInstruction t c => Sys2Proof.Machine.execIllegalInstruction t c s
  | .armRun1 m en => Sys2Proof.Machine.execArmRun1 m en s
  | .pcommit m => Sys2Proof.Machine.execPcommit m s
  | .tileDataWrite m t a v => Sys2Proof.Machine.execTileDataWrite m t a v s
  | .programFirstWordWrite m t slot v => Sys2Proof.Machine.execProgramFirstWordWrite m t slot v s
  | .programSecondWordWrite m t slot v => Sys2Proof.Machine.execProgramSecondWordWrite m t slot v s
  | .modulatorFrame modBad rspBad => Sys2Proof.Machine.execModulatorFrame modBad rspBad s
  | .telemetryStale j => Sys2Proof.Machine.execTelemetryStale j s
  | .linkFrameLaunch p bad => Sys2Proof.Machine.execLinkFrameLaunch p bad s
  | .linkFrameReceived p ret f rt => Sys2Proof.Machine.execLinkFrameReceived p ret f rt s
  | .linkRxAlign p invert => Sys2Proof.Machine.execLinkRxAlign p invert s
  | .linkRxLos p => Sys2Proof.Machine.execLinkRxLos p s
  | .linkRangeStart p => Sys2Proof.Machine.execLinkRangeStart p s
  | .linkIdcheckStart p => Sys2Proof.Machine.execLinkIdcheckStart p s
  | .restart m p => Sys2Proof.Machine.execRestart m p s
  | .linkBreak p => Sys2Proof.Machine.execLinkBreak p s
  | .linkSwapDetected p => Sys2Proof.Machine.execLinkSwapDetected p s
  | .pointMirrorWrite m a v => Sys2Proof.Machine.execPointMirrorWrite m a v s
  | .pointReplyTimeout j => Sys2Proof.Machine.execPointReplyTimeout j s
  | .nodeSelfTestPass j => Sys2Proof.Machine.execNodeSelfTestPass j s
  | .nodeFrameProcess j fromD f arr x => Sys2Proof.Machine.execNodeFrameProcess j fromD f arr x s
  | .nodeFrameRepeat j fromD f arr => Sys2Proof.Machine.execNodeFrameRepeat j fromD f arr s
  | .nodeFold j sideD => Sys2Proof.Machine.execNodeFold j sideD s
  | .nodeUnfold j sideD => Sys2Proof.Machine.execNodeUnfold j sideD s
  | .nodeApply j phase => Sys2Proof.Machine.execNodeApply j phase s
  | .nodeHoldEntry j => Sys2Proof.Machine.execNodeHoldEntry j s
  | .nodeBlockEntry j => Sys2Proof.Machine.execNodeBlockEntry j s
  | .nodeAcquireTimeout j => Sys2Proof.Machine.execNodeAcquireTimeout j s
  | .nodeProtectionTrip j cause sw => Sys2Proof.Machine.execNodeProtectionTrip j cause sw s
  | .renewSend => Sys2Proof.Machine.execRenewSend s
  | .leaseRenewReceived x => Sys2Proof.Machine.execLeaseRenewReceived x s
  | .leaseAckReceived x => Sys2Proof.Machine.execLeaseAckReceived x s
  | .leaseReleaseReceived x => Sys2Proof.Machine.execLeaseReleaseReceived x s
  | .leaseHandoverReceived x => Sys2Proof.Machine.execLeaseHandoverReceived x s
  | .malletClaim => Sys2Proof.Machine.execMalletClaim s
  | .pairIdleWaitEnd => Sys2Proof.Machine.execPairIdleWaitEnd s
  | .handover m => Sys2Proof.Machine.execHandover m s
  | .mirEpochWrite m v => Sys2Proof.Machine.execMirEpochWrite m v s
  | .heartbeatSend => Sys2Proof.Machine.execHeartbeatSend s
  | .hblost => Sys2Proof.Machine.execHblost s
  | .mirrorRecordSend => Sys2Proof.Machine.execMirrorRecordSend s
  | .mirrorRecordReceived r => Sys2Proof.Machine.execMirrorRecordReceived r s
  | .mirrorLaneLoss l => Sys2Proof.Machine.execMirrorLaneLoss l s
  | .snapshotSend => Sys2Proof.Machine.execSnapshotSend s
  | .snaplate => Sys2Proof.Machine.execSnaplate s
  | .pairPeriodStart p bad => Sys2Proof.Machine.execPairPeriodStart p bad s
  | .pairEnable m p => Sys2Proof.Machine.execPairEnable m p s
  | .pairDisable m p => Sys2Proof.Machine.execPairDisable m p s
  | .faultInputActive n => Sys2Proof.Machine.execFaultInputActive n s
  | .faultInputInactive n => Sys2Proof.Machine.execFaultInputInactive n s
  | .rogDetection n soft hard => Sys2Proof.Machine.execRogDetection n soft hard s
  | .rogBlankEnd n => Sys2Proof.Machine.execRogBlankEnd n s
  | .rogSoftStageStart p => Sys2Proof.Machine.execRogSoftStageStart p s
  | .rogSoftStageEnd p => Sys2Proof.Machine.execRogSoftStageEnd p s
  | .rogThresholdUpdate n => Sys2Proof.Machine.execRogThresholdUpdate n s
  | .coilCheck n vb => Sys2Proof.Machine.execCoilCheck n vb s
  | .polarityTestStart m => Sys2Proof.Machine.execPolarityTestStart m s
  | .polarityTestDone n => Sys2Proof.Machine.execPolarityTestDone n s
  | .ovControllerResult c => Sys2Proof.Machine.execOvControllerResult c s
  | .ovInvalidTimeout c => Sys2Proof.Machine.execOvInvalidTimeout c s
  | .ficlr m => Sys2Proof.Machine.execFiclr m s
  | .deviceHalt m => Sys2Proof.Machine.execDeviceHalt m s
  | .deviceHaltEnd m => Sys2Proof.Machine.execDeviceHaltEnd m s
  | .safetyInputFiltered n b level => Sys2Proof.Machine.execSafetyInputFiltered n b level s
  | .safetyScan rb => Sys2Proof.Machine.execSafetyScan rb s
  | .discrepancyTimeout n => Sys2Proof.Machine.execDiscrepancyTimeout n s
  | .testPulseStart c => Sys2Proof.Machine.execTestPulseStart c s
  | .testPulseEnd rb => Sys2Proof.Machine.execTestPulseEnd rb s
  | .readbackTimeout c high => Sys2Proof.Machine.execReadbackTimeout c high s
  | .safetyPtest m => Sys2Proof.Machine.execSafetyPtest m s
  | .safetyCopyMismatch => Sys2Proof.Machine.execSafetyCopyMismatch s
  | .safetyCfgCrcCheck => Sys2Proof.Machine.execSafetyCfgCrcCheck s
  | .safetyCompareTimeout => Sys2Proof.Machine.execSafetyCompareTimeout s
  | .safetyNetPermit => Sys2Proof.Machine.execSafetyNetPermit s
  | .safetyNetDemand => Sys2Proof.Machine.execSafetyNetDemand s
  | .safetyNetReset => Sys2Proof.Machine.execSafetyNetReset s
  | .safetyNetPtest => Sys2Proof.Machine.execSafetyNetPtest s
  | .nettmo => Sys2Proof.Machine.execNettmo s
  | .cstRow bad => Sys2Proof.Machine.execCstRow bad s
  | .castRearm => Sys2Proof.Machine.execCastRearm s
  | .measurementComplete => Sys2Proof.Machine.execMeasurementComplete s
  | .castArm m ncast ovw => Sys2Proof.Machine.execCastArm m ncast ovw s
  | .swtrig m => Sys2Proof.Machine.execSwtrig m s
  | .cstHold m seg => Sys2Proof.Machine.execCstHold m seg s
  | .cstRel m seg => Sys2Proof.Machine.execCstRel m seg s
  | .ethFrameReceived p f fcsOk hb bad => Sys2Proof.Machine.execEthFrameReceived p f fcsOk hb bad s
  | .ethTxRecord p => Sys2Proof.Machine.execEthTxRecord p s
  | .ethFrameSent p => Sys2Proof.Machine.execEthFrameSent p s
  | .launchTimeReached p => Sys2Proof.Machine.execLaunchTimeReached p s
  | .ethLinkChange p up => Sys2Proof.Machine.execEthLinkChange p up s
  | .txqheadRead m => Sys2Proof.Machine.execTxqheadRead m s
  | .ptpIncfWrite m v => Sys2Proof.Machine.execPtpIncfWrite m v s
  | .ptpTimeWrite m v => Sys2Proof.Machine.execPtpTimeWrite m v s
  | .deviceTimeWrap => Sys2Proof.Machine.execDeviceTimeWrap s
  | .secondBoundary => Sys2Proof.Machine.execSecondBoundary s
  | .ppsPulseEnd => Sys2Proof.Machine.execPpsPulseEnd s
  | .ppsInEdge rising => Sys2Proof.Machine.execPpsInEdge rising s
  | .timeTriggerFire k => Sys2Proof.Machine.execTimeTriggerFire k s
  | .pcieRequest dst write ofs len data => Sys2Proof.Machine.execPcieRequest dst write ofs len data s
  | .pcieLinkLoss => Sys2Proof.Machine.execPcieLinkLoss s
  | .coreRun m c => Sys2Proof.Machine.execCoreRun m c s
  | .coreReset m c => Sys2Proof.Machine.execCoreReset m c s
  | .wdtKick m c v => Sys2Proof.Machine.execWdtKick m c v s
  | .wdtTimeout c => Sys2Proof.Machine.execWdtTimeout c s
  | .mtimeCompareMatch c => Sys2Proof.Machine.execMtimeCompareMatch c s
  | .ringWrWrite m n v => Sys2Proof.Machine.execRingWrWrite m n v s
  | .ringRdWrite m n v => Sys2Proof.Machine.execRingRdWrite m n v s
  | .dmaStart m c => Sys2Proof.Machine.execDmaStart m c s
  | .dmaStop m c => Sys2Proof.Machine.execDmaStop m c s
  | .dmaKick m c => Sys2Proof.Machine.execDmaKick m c s
  | .dmaResume m c => Sys2Proof.Machine.execDmaResume m c s
  | .dmaBurstStart => Sys2Proof.Machine.execDmaBurstStart s
  | .dmaBurstEnd => Sys2Proof.Machine.execDmaBurstEnd s
  | .mbxDataWrite m c j v => Sys2Proof.Machine.execMbxDataWrite m c j v s
  | .mbxGo m c => Sys2Proof.Machine.execMbxGo m c s
  | .mbxAck m c => Sys2Proof.Machine.execMbxAck m c s
  | .mbxExpiry c => Sys2Proof.Machine.execMbxExpiry c s
  | .mbxNoteClr m c => Sys2Proof.Machine.execMbxNoteClr m c s
  | .semLockRead ms n => Sys2Proof.Machine.execSemLockRead ms n s
  | .semLockWrite m n => Sys2Proof.Machine.execSemLockWrite m n s
  | .semForce m n => Sys2Proof.Machine.execSemForce m n s
  | .intHack m v => Sys2Proof.Machine.execIntHack m v s
  | .maquetteLoad ok okFallback => Sys2Proof.Machine.execMaquetteLoad ok okFallback s
  | .mqtHostgo m len => Sys2Proof.Machine.execMqtHostgo m len s
  | .uartImageReceived bytes => Sys2Proof.Machine.execUartImageReceived bytes s
  | .uartImageGapTimeout => Sys2Proof.Machine.execUartImageGapTimeout s
  | .stage m => Sys2Proof.Machine.execStage m s
  | .stageCheckComplete => Sys2Proof.Machine.execStageCheckComplete s
  | .commit m => Sys2Proof.Machine.execCommit m s
  | .cancel m => Sys2Proof.Machine.execCancel m s
  | .arbCommit m => Sys2Proof.Machine.execArbCommit m s
  | .keyRevoke m slot => Sys2Proof.Machine.execKeyRevoke m slot s
  | .keyProgram m slot => Sys2Proof.Machine.execKeyProgram m slot s
  | .close m => Sys2Proof.Machine.execClose m s
  | .fuseCommandComplete bad => Sys2Proof.Machine.execFuseCommandComplete bad s
  | .tamperActive n level => Sys2Proof.Machine.execTamperActive n level s
  | .modeRequest m target => Sys2Proof.Machine.execModeRequest m target s
  | .tripRequest m => Sys2Proof.Machine.execTripRequest m s
  | .lockoutEntry => Sys2Proof.Machine.execLockoutEntry s
  | .refclkLost => Sys2Proof.Machine.execRefclkLost s
  | .pllLock p => Sys2Proof.Machine.execPllLock p s
  | .pllLossOfLock p => Sys2Proof.Machine.execPllLossOfLock p s
  | .chipReset m key boot => Sys2Proof.Machine.execChipReset m key boot s
  | .rstNLow low boot => Sys2Proof.Machine.execRstNLow low boot s
  | .powerOn => Sys2Proof.Machine.execPowerOn s
  | .hib m key => Sys2Proof.Machine.execHib m key s
  | .hibernateEntry => Sys2Proof.Machine.execHibernateEntry s
  | .wake level => Sys2Proof.Machine.execWake level s
  | .scrubPass a struck late => Sys2Proof.Machine.execScrubPass a struck late s
  | .lbist m rmask => Sys2Proof.Machine.execLbist m rmask s
  | .lbistRegionDone sig good => Sys2Proof.Machine.execLbistRegionDone sig good s
  | .mbist m amask => Sys2Proof.Machine.execMbist m amask s
  | .mbistDone failed => Sys2Proof.Machine.execMbistDone failed s
  | .abort m => Sys2Proof.Machine.execAbort m s
  | .transparentTestWord a w differs last => Sys2Proof.Machine.execTransparentTestWord a w differs last s
  | .patinaJudgement core sup => Sys2Proof.Machine.execPatinaJudgement core sup s
  | .patinaSupDerate => Sys2Proof.Machine.execPatinaSupDerate s
  | .restore m => Sys2Proof.Machine.execRestore m s
  | .basecap m => Sys2Proof.Machine.execBasecap m s
  | .patinaMeasurement x => Sys2Proof.Machine.execPatinaMeasurement x s
  | .patinaLogWrite => Sys2Proof.Machine.execPatinaLogWrite s
  | .pmbusEnable m pagen page addr mode vout => Sys2Proof.Machine.execPmbusEnable m pagen page addr mode vout s
  | .pmbusConfirm vout => Sys2Proof.Machine.execPmbusConfirm vout s
  | .pmbusAlert low status => Sys2Proof.Machine.execPmbusAlert low status s
  | .tjMeasure tj => Sys2Proof.Machine.execTjMeasure tj s
  | .condenseChange level => Sys2Proof.Machine.execCondenseChange level s
  | .nodeRxAlign j sideD aligned invert => Sys2Proof.Machine.execNodeRxAlign j sideD aligned invert s
  | .mirrorLaneAlign l => Sys2Proof.Machine.execMirrorLaneAlign l s
  | .pcieLinkUp speed width => Sys2Proof.Machine.execPcieLinkUp speed width s
  | .hostMsiEnable granted => Sys2Proof.Machine.execHostMsiEnable granted s
  | .pairOutputEdge p exc => Sys2Proof.Machine.execPairOutputEdge p exc s
  | .vwakeLoss => Sys2Proof.Machine.execVwakeLoss s
  | .railMonitorRelease boot => Sys2Proof.Machine.execRailMonitorRelease boot s
  | .supSramAccess m op a size v => Sys2Proof.Machine.execSupSramAccess m op a size v s
  | .lateTransition core sup => Sys2Proof.Machine.execLateTransition core sup s
  | .poweredHour => Sys2Proof.Machine.execPoweredHour s
  | .jtagInstruction j => Sys2Proof.Machine.execJtagInstruction j s

end Sys2Proof.Machine
end

