-- ==== Sys2Proof/Safety.lean ====
section
/-! DEFINITION. What counts as a sound state, as a command that completes and as a part of the state left alone, in the terms the statements
use. -/

namespace Sys2Proof

open Machine

/-- The byte memories of the device and the flash beside it in canonical form (R26). -/
def Machine.State.memOk (s : State) : Bool := Memory.wf s.mem && Memory.wf s.flash

/-- Command `c` completes in `s`: it answers a next state, and `P` holds of it. -/
def gives (c : Instr) (s : State) (P : State → Prop) : Prop := ∃ t, exec c s = .next t ∧ P t

/-- Whether something sent is other than a message-signalled interrupt. -/
def notMsi : Sent → Bool
  | .msi _ => false
  | _ => true

/-- The parts of the state beside the registers. -/
inductive Part where
  | pending | latch | clk | free | bus | sent | mem | upset | sup | fuses | policy | ctl | acq | ang | resRec | pins | net | frm | prf | arm
  | mod | lnk | nodes | mir | brg | saf | cst | flash | mqt | bst
  deriving DecidableEq, Repr

/-- The part is the same in `t` as in `s`. Every command may send message-signalled interrupts (R392), so these, and which of their vectors
are disarmed, are left out of `sent` and `sup`, and so are the pointers of the interconnect, which every access that is granted moves (R22);
the byte memory is compared byte by byte. -/
def Part.same (p : Part) (s t : State) : Prop :=
  match p with
  | .pending => t.pending = s.pending
  | .latch => t.latch = s.latch
  | .clk => t.clk = s.clk
  | .free => t.free = s.free
  | .bus => t.bus = s.bus
  | .sent => t.sent.filter notMsi = s.sent.filter notMsi
  | .mem => ∀ a, t.memByte a = s.memByte a
  | .upset => t.upset = s.upset
  | .sup => ∃ x y, t.sup = { s.sup with msiOff := x, rr := y }
  | .fuses => t.fuses = s.fuses
  | .policy => t.policy = s.policy
  | .ctl => t.ctl = s.ctl
  | .acq => t.acq = s.acq
  | .ang => t.ang = s.ang
  | .resRec => t.resRec = s.resRec
  | .pins => t.pins = s.pins
  | .net => t.net = s.net
  | .frm => t.frm = s.frm
  | .prf => t.prf = s.prf
  | .arm => t.arm = s.arm
  | .mod => t.mod = s.mod
  | .lnk => t.lnk = s.lnk
  | .nodes => t.nodes = s.nodes
  | .mir => t.mir = s.mir
  | .brg => t.brg = s.brg
  | .saf => t.saf = s.saf
  | .cst => t.cst = s.cst
  | .flash => t.flash = s.flash
  | .mqt => t.mqt = s.mqt
  | .bst => t.bst = s.bst

/-- From `s` to `t` no register field changes but those of `fs`, and no part of the state but those of `ps`. -/
def onlyChanges (fs : List Fld) (ps : List Part) (s t : State) : Prop :=
  (∀ f : Fld, f.key ∉ fs.map Fld.key → t.rd f = s.rd f) ∧ ∀ p : Part, p ∉ ps → p.same s t

/-- From `s` to `t` every byte of memory but the `n` from address `a` on keeps its value. -/
def onlyBytes (a n : Nat) (s t : State) : Prop := ∀ b, b < a ∨ a + n ≤ b → t.memByte b = s.memByte b

/-- From `s` to `t` every byte of memory keeps its value but the first `k` from the write pointer of ring `n` on. -/
def onlyRing (n k : Nat) (s t : State) : Prop :=
  ∀ b, (∀ i, i < k → b ≠ s.ringAddr n (s.rd (Reg.RNG_WR_WR n) + i)) → t.memByte b = s.memByte b

/-- No word of array `a` that satisfies `p` is upset (R440). -/
def Machine.State.unstruck (s : State) (a : Nat) (p : Nat → Bool) : Bool := (s.upsetWords a).all (fun w => !p w)

/-- A word of array `a` that satisfies `p` has an uncorrectable error (R440). -/
def Machine.State.unreadable (s : State) (a : Nat) (p : Nat → Bool) : Bool :=
  (s.upsetWords a).any (fun w => p w && decide (eccRead (arrayBits a) (s.upsetOf a w) = .bad))

/-- The instruction at the program address of tile `t` (R148). -/
def Machine.State.armAt (s : State) (t : Nat) : ArmInstr :=
  match spFind s.arm.tiles t with
  | some x => armFields (spGet s.arm.prog (256 * t + x.pc) 0)
  | none => armFields 0

/-- Tile `t` issues operation `opc` in cycle `c` (R152): it stands at the tile's program address with no bit of its word upset, it is legal, `c` is
the first cycle in which the tile is free and every word and place it waits for is there, its operands read `a` and `b` (0 where it has none)
and the accumulators it reads have their residues (R157). -/
def Machine.State.armCan (s : State) (t c opc a b : Nat) : Bool :=
  match spFind s.arm.tiles t with
  | none => false
  | some x =>
    let i := s.armAt t
    let u := s.armArrived c
    let v := if usesA opc then (u.armOperand t i.a c 0).1 else u
    s.armStands x && decide (x.at_ ≤ c) && decide (s.upsetOf 4 (256 * t + x.pc) = 0) && decide (i.opc = opc) && armLegal t i
      && u.armIssues t c x i
      && (if usesA opc then decide ((u.armOperand t i.a c 0).2 = .val (coded a)) else decide (a = 0))
      && (if usesB opc then decide ((v.armOperand t i.b c 0).2 = .val (coded b)) else decide (b = 0))
      && (u.armAccs t i .clear).isSome

/-- From `s` to `u` tile `t` goes on behind operation `opc`, issued in cycle `c`. -/
def armAdvances (s u : State) (t c opc : Nat) : Prop :=
  spFind u.arm.tiles t = (spFind s.arm.tiles t).map (fun x => { pc := x.pc + 1, at_ := c + armCycles opc, ended := false })

/-- From `s` to `u` operation `opc` of tile `t` leaves the exact result `r`, saturated, in its accumulator with the residue of its pattern, ASAT
where it was saturated (R146), and every other accumulator as it was. -/
def accBecomes (s : State) (t c opc : Nat) (r : Int) (u : State) : Prop :=
  u.accWord t (s.armAt t).acc = pattern 40 (sat40 r) + residue (pattern 40 (sat40 r)) * 2 ^ 40
    ∧ (sat40 r ≠ r → u.flag Reg.ARM_ALRM_ASAT = true)
    ∧ (∀ k, k ≠ 4 * t + (s.armAt t).acc → spGet u.arm.acc k 0 = spGet s.arm.acc k 0) ∧ armAdvances s u t c opc

/-- From `s` to `u` operation `opc` of tile `t` leaves the word `v` with its residue at its destination (R150): a data word, the queues its output
port is routed to, 2 cycles on within its row of tiles and 6 to another (R153), or the pending bank; every accumulator is as it was. -/
def destBecomes (s : State) (t c opc v : Nat) (u : State) : Prop :=
  let d := (s.armAt t).d
  (d / 256 < 4 → spGet u.arm.dat (1024 * t + d) 0 = v % 65536)
    ∧ (d / 256 = 4 → u.arm.flight = (s.armArrived c).arm.flight ++ (s.armRoutes t (d % 4)).map (fun q =>
        ({ cycle := c + armCycles opc - 1 + (if q / 128 = t / 16 then 2 else 6), src := t, dst := q, val := coded v } : ArmWord)))
    ∧ (d / 256 = 5 → spGet u.arm.pend (d % 32) 0 = coded v) ∧ u.arm.acc = s.arm.acc ∧ armAdvances s u t c opc

/-- The `e`-th count of units of 2^-k that lies within 2 units of the value `x` (R151). -/
def trigCount (k : Nat) (x : Int) (e : Nat) : Int := (fxNear k 2 x).1 + (e % max 1 (fxNear k 2 x).2 : Nat)

/-- A word of the trigonometric unit that lies within 2 units of the exact value, saturated (R151). -/
def trigWord (k : Nat) (x : Int) (e : Nat) : Nat := pattern 16 (satInt 16 (trigCount k x e))

/-- The values of the fields `fs` fit their widths, as every written value does. -/
def Machine.State.widths (s : State) (fs : List Fld) : Bool := fs.all (fun f => decide (s.rd f < 2 ^ f.wid))

/-- The frame sent last, where it went out on link port `p`. -/
def Machine.State.lastLink (s : State) (p : Nat) : List Nat :=
  match (s.sent.filter notMsi).head? with
  | some (.link q f) => if q = p then f else []
  | _ => []

/-- The 256-bit header of a link frame (R207). -/
def headerOf (f : List Nat) : Nat := leNat (f.take 32)

/-- The frame that node `j` sent last on a side, after SOF_R (`ret`) or SOF_P. -/
def Machine.State.lastNode (s : State) (j : Nat) (sideD ret : Bool) : List Nat :=
  (s.sent.findSome? (fun x => match x with
    | .node k d r f => if k = j ∧ d = sideD ∧ r = ret then some f else none
    | _ => none)).getD []

/-- From `s` to `t` no submodule node but `j` changes. -/
def onlyNode (j : Nat) (s t : State) : Prop := ∀ k, k ≠ j → t.node k = s.node k

/-- The registers below the block registers whose write does more than store fields: commands, counts and records that fall with them. -/
def ownWrites : List Nat :=
  [rgnCtrlAddr, 0x40000200, 0x40000240, 0x40000244, 0x40000270, dbgAddr, modeReqAddr, 0x40000320, 0x4002000C, 0x40030304, 0x40030400, 0x40030500,
    0x40060024, 0x40060034, 0x40070010, bstCmdAddr, 0x40080038, 0x400A0000, 0x41010008, 0x41010010, 0x41010018, 0x41030018, 0x42020010,
    0x42020014, 0x42020018, 0x42020038, 0x4202003C, 0x430000AC, 0x43020010, 0x4F000000]

/-- The arrays of such registers: base, stride and count. -/
def ownArrays : List (Nat × Nat × Nat) :=
  [(0x40000230, 4, 4), (0x40020100, 4, 64), (0x40080200, 4, 64), (0x40050108, 0x20, 64), (0x4005010C, 0x20, 64), (0x41000100, 0x40, 8),
    (0x41020400, 4, 64), (0x42000100, 0x10, 4), (0x42010400, 0x10, 4), (0x42020040, 4, 8), (0x43010110, 0x20, 8), (0x44000100, 0x20, 12),
    (0x47000100, 0x20, 12), (0x47010300, 8, 4), (0x47010400, 0x10, 2)]

/-- Whether a register stands at `a` whose write stores its fields and does nothing else: no control register of a block, none of the mailbox
channels and DMA channels, and none of the registers above. -/
def plainReg (a : Nat) : Bool :=
  (cardAt a).isSome && (blockAt a).isNone && !ownWrites.contains a && ownArrays.all (fun x => (indexIn x.1 x.2.1 x.2.2 a).isNone)
    && !(decide (0x40011000 ≤ a) && decide (a < 0x40013000)) && !(decide (0x40040100 ≤ a) && decide (a < 0x40040500))

/-- The value of field `f` of the register at `a` after master `m` has written `v` (R12, R13, R108): a field that software may write takes its
bits of the word, held to its range; a locked one only while it may be written; the written ones clear a flag whose source is not active. -/
def Machine.State.fieldAfter (s : State) (m : Master) (a v : Nat) (f : CardFld) : Nat :=
  let x := v / 2 ^ f.lo % 2 ^ f.wid
  let old := s.rd (f.at_ a)
  match f.acc with
  | .ro | .wo => old
  | .rw => (heldValue a f.lo x).1 % 2 ^ f.wid
  | .rwl => if m.val = 8 ∨ s.mode = mBoot then x else old
  | .w1c => old - (old &&& x) + (old &&& x &&& (s.heldFlags a / 2 ^ f.lo % 2 ^ f.wid))

/-- Whether nothing is assigned at `a` for an access (R27): no part of the map, no register, the hole of a tile, and for a write a read-only
memory. -/
def noPlace (write : Bool) (a : Nat) : Bool :=
  match addrTarget a with
  | none => true
  | some 13 => tileHole ((a - 0x50000000) % 0x2000)
  | some t => if 4 ≤ t ∧ t ≠ 14 then (cardAt (a / 4 * 4)).isNone else write && (t = 0 || t = 2 || t = 14)

/-- The commands that can write the byte memory: accesses of masters and of the host, DMA, the recorder's rows, measurements and erasure, the
receive rings, the frames that store point replies or commit an image, test, scrubbing, the loads over UART0, and what loses the memory. -/
def writesMemory : Instr → Bool
  | .registerWrite .. | .unmappedAccess .. | .regionOffAccess .. | .supSramAccess .. | .pcieRequest .. | .dmaBurstEnd | .cstRow ..
  | .measurementComplete | .ethFrameReceived .. | .frameStart .. | .timeTriggerFire .. | .linkFrameReceived .. | .lockoutEntry
  | .tamperActive .. | .mbist .. | .mbistDone .. | .scrubPass .. | .transparentTestWord .. | .uartImageReceived .. | .chipReset ..
  | .rstNLow .. | .railMonitorRelease .. | .powerOn | .vwakeLoss | .hibernateEntry => true
  | _ => false

/-- Every fuse bit of `f` is set in `g`, the anti-rollback counter of `g` is no lower, and what no command programs is the same (R419). -/
def fusesWithin (f g : Machine.Fuses) : Prop :=
  (∀ i, bitAt f.secMode i = true → bitAt g.secMode i = true) ∧ (∀ i, bitAt f.keyRev i = true → bitAt g.keyRev i = true)
    ∧ (∀ i, bitAt f.keyProg i = true → bitAt g.keyProg i = true)
    ∧ (∀ k i, bitAt (spGet f.keyHash k 0) i = true → bitAt (spGet g.keyHash k 0) i = true) ∧ f.arb ≤ g.arb
    ∧ g.dbgLvl = f.dbgLvl ∧ g.uidLo = f.uidLo ∧ g.uidHi = f.uidHi ∧ g.vendorId = f.vendorId ∧ g.deviceId = f.deviceId

/-- The access by which a master gives command `c`: the master, whether it writes, and the address (R12, R13). The rows whose access is
part of a refusal (UNMAPPED_ACCESS, REGION_OFF_ACCESS), of several accesses, or of the host's request are not among them. -/
def accessOf : Instr → Option (Master × Bool × Nat)
  | .blockEnClear m b => some (m, true, blockBase b)
  | .blockEnSet m b => some (m, true, blockBase b)
  | .regionPowerDown m _ => some (m, true, rgnCtrlAddr)
  | .regionPowerUp m _ => some (m, true, rgnCtrlAddr)
  | .regionReset m _ => some (m, true, rgnCtrlAddr)
  | .idxarm m => some (m, true, 0x42010000)
  | .angEnableChange m _ => some (m, true, 0x42010000)
  | .acpArm m n => some (m, true, 0x42010400 + 0x10 * n.val)
  | .seqGo m n => some (m, true, 0x42000100 + 0x10 * n.val)
  | .queueRead m q => some (m, false, 0x42000208 + 0x10 * q.val)
  | .calStart m => some (m, true, 0x42000000)
  | .bsarmWrite m _ => some (m, true, 0x430000AC)
  | .prfLoad m n => some (m, true, 0x43010110 + 0x20 * n.val)
  | .armRun1 m _ => some (m, true, 0x43020000)
  | .pcommit m => some (m, true, 0x43020000)
  | .tileDataWrite m t a _ => some (m, true, tileDataAddr t a)
  | .programFirstWordWrite m t k _ => some (m, true, tileProgAddr t k)
  | .programSecondWordWrite m t k _ => some (m, true, tileProgAddr t k + 4)
  | .restart m p => some (m, true, lnkBase p)
  | .pointMirrorWrite m a _ => some (m, true, 0x30000000 + 4 * a.toNat)
  | .handover m => some (m, true, 0x41030000)
  | .mirEpochWrite m _ => some (m, true, 0x41030018)
  | .pairEnable m p => some (m, true, 0x47000100 + 0x20 * p.val)
  | .pairDisable m p => some (m, true, 0x47000100 + 0x20 * p.val)
  | .polarityTestStart m => some (m, true, 0x47010000)
  | .ficlr m => some (m, true, 0x47010000)
  | .deviceHalt m => some (m, true, dbgAddr)
  | .deviceHaltEnd m => some (m, true, dbgAddr)
  | .safetyPtest m => some (m, true, 0x47020000)
  | .castArm m _ _ => some (m, true, 0x42020000)
  | .swtrig m => some (m, true, 0x42020000)
  | .cstHold m _ => some (m, true, 0x4202003C)
  | .cstRel m _ => some (m, true, 0x42020038)
  | .txqheadRead m => some (m, false, 0x41010030)
  | .ptpIncfWrite m _ => some (m, true, 0x41010018)
  | .ptpTimeWrite m _ => some (m, true, 0x41010010)
  | .coreRun m _ => some (m, true, 0x40000200)
  | .coreReset m _ => some (m, true, 0x40000200)
  | .wdtKick m c _ => some (m, true, 0x40000230 + 4 * c.val)
  | .ringWrWrite m n _ => some (m, true, 0x40050108 + 0x20 * n.val)
  | .ringRdWrite m n _ => some (m, true, 0x4005010C + 0x20 * n.val)
  | .dmaStart m c => some (m, true, dmaCmdAddr c)
  | .dmaStop m c => some (m, true, dmaCmdAddr c)
  | .dmaKick m c => some (m, true, dmaCmdAddr c)
  | .dmaResume m c => some (m, true, dmaCmdAddr c)
  | .mbxDataWrite m c i _ => some (m, true, 0x40011040 + 0x100 * c.val + 4 * i.val)
  | .mbxGo m c => some (m, true, 0x40011004 + 0x100 * c.val)
  | .mbxAck m c => some (m, true, 0x40011004 + 0x100 * c.val)
  | .mbxNoteClr m c => some (m, true, 0x4001100C + 0x100 * c.val)
  | .semLockWrite m n => some (m, true, 0x40020100 + 4 * n.val)
  | .semForce m _ => some (m, true, 0x4002000C)
  | .intHack m _ => some (m, true, 0x40030304)
  | .mqtHostgo m _ => some (m, true, 0x40060034)
  | .stage m => some (m, true, 0x40060024)
  | .commit m => some (m, true, 0x40060024)
  | .cancel m => some (m, true, 0x40060024)
  | .arbCommit m => some (m, true, 0x40070010)
  | .keyRevoke m _ => some (m, true, 0x40070010)
  | .keyProgram m _ => some (m, true, 0x40070010)
  | .close m => some (m, true, 0x40070010)
  | .modeRequest m _ => some (m, true, modeReqAddr)
  | .tripRequest m => some (m, true, modeReqAddr)
  | .chipReset m _ _ => some (m, true, 0x40000320)
  | .hib m _ => some (m, true, 0x4F000000)
  | .lbist m _ => some (m, true, bstCmdAddr)
  | .mbist m _ => some (m, true, bstCmdAddr)
  | .abort m => some (m, true, bstCmdAddr)
  | .restore m => some (m, true, 0x40080000)
  | .basecap m => some (m, true, 0x40080000)
  | .pmbusEnable m _ _ _ _ _ => some (m, true, 0x400A0000)
  | .registerWrite m a _ _ => some (m, true, a.toNat)
  | _ => none

/-! ## The equations of the forming core (R95 to R102), on the grid -/

/-- The space vector of three channels, in per-unit by a Q4.12 scale (R95, R96). -/
def Machine.State.phaseVec (s : State) (a b c scl : Fld) : Int × Int :=
  let x (f : Fld) : Int := signed 16 (spGet s.acq.snap (s.lrd f) 0) * (s.lrd scl : Nat) * (fxOne / 2 ^ 27)
  ((2 * x a - x b - x c) / 3, fxMul (x b - x c) (fxSqrt (fxOne / 3)))

/-- The measured voltage and current vectors of a frame. -/
def Machine.State.vMeas (s : State) : Int × Int :=
  s.phaseVec Reg.FRM_VSEL_CHA Reg.FRM_VSEL_CHB Reg.FRM_VSEL_CHC Reg.FRM_SCL_VSCL
def Machine.State.iMeas (s : State) : Int × Int :=
  s.phaseVec Reg.FRM_ISEL_CHA Reg.FRM_ISEL_CHB Reg.FRM_ISEL_CHC Reg.FRM_SCL_ISCL

/-- Whether the three channels that `a`, `b` and `c` name are valid in the copy of the compute start. -/
def Machine.State.chValid (s : State) (a b c : Fld) : Bool :=
  [a, b, c].all (fun f => bitAt (spGet s.acq.snap (s.lrd f) 0) 31)

/-- The first-order filter of R98 with a time constant in units of 100 µs; frame period and result as the device has them. -/
def Machine.State.lowPass (s : State) (old new : Int) (tau : Nat) : Int :=
  fxQ2 (if tau * 100000 + s.frameNs = 0 then new else old + (new - old) * (s.frameNs : Nat) / ((tau * 100000 + s.frameNs : Nat) : Int))

/-- Pf, Qf and Vm after step 3 (R96, R98). -/
def Machine.State.pfNext (s : State) : Int :=
  s.lowPass s.frm.pf (fxMul s.vMeas.1 s.iMeas.1 + fxMul s.vMeas.2 s.iMeas.2) (s.lrd Reg.FRM_FILT_TPF)
def Machine.State.qfNext (s : State) : Int :=
  s.lowPass s.frm.qf (fxMul s.vMeas.2 s.iMeas.1 - fxMul s.vMeas.1 s.iMeas.2) (s.lrd Reg.FRM_FILT_TQF)
def Machine.State.vmNext (s : State) : Int := s.lowPass s.frm.vm (cAbs s.vMeas) (s.lrd Reg.FRM_FILT_TQF)

/-- Pm of step 5 (R99). -/
def Machine.State.pmNext (s : State) : Int :=
  fxQ2 ((s.prfCh 0).y + fxDiv ((s.prfCh 2).y - s.frm.omega) (s.par Reg.FRM_DROOP_MP 10000))

/-- The frequency after step 6 (R99, R106), Psw being the filtered power. -/
def Machine.State.omegaNext (s : State) : Int :=
  let wd := if s.lrd Reg.FRM_CTRL_DREF = 0 ∧ s.trackerUsable = true then fxDiv s.ang.outHz s.fbase else (s.prfCh 2).y
  let acc := s.pmNext - s.pfNext - fxMul (s.par Reg.FRM_DAMP_D 10) (s.frm.omega - wd)
  clampInt (s.par Reg.FRM_FLIM_FMIN 10000) (max (s.par Reg.FRM_FLIM_FMIN 10000) (s.par Reg.FRM_FLIM_FMAX 10000))
    (s.frm.omega + acc * (s.frameNs : Nat) / (20000000 * (max (s.lrd Reg.FRM_H_H) 1 : Nat)))

/-- What step 7 adds to the machine angle, in turns, and the machine angle after it (R100). -/
def Machine.State.turnNext (s : State) : Int := fxMul (fxMul s.omegaNext s.fbase) s.frameTs
def Machine.State.thetaNext (s : State) : Int := (s.frm.theta + s.turnNext) % fxOne

/-- The output angle (R100): with LCOMP, 1.5 frames further, or 2.5 where the sample-to-apply latency is two frames. -/
def Machine.State.thetaOutNext (s : State) : Int :=
  if s.lrd Reg.FRM_CTRL_LCOMP = 1 then (s.thetaNext + s.turnNext * (if s.latTwo then 5 else 3) / 2) % fxOne else s.thetaNext

/-- E* and the integrator x of step 8 (R101). -/
def Machine.State.eStarNext (s : State) : Int :=
  (s.prfCh 3).y + fxMul (s.par Reg.FRM_DROOP_MQ 10000) ((s.prfCh 1).y - s.qfNext)
def Machine.State.xNext (s : State) : Int :=
  if s.lrd Reg.FRM_CTRL_VMODE = 1 then
    clampInt (-(s.par Reg.FRM_XLIM_XLIM 1000)) (s.par Reg.FRM_XLIM_XLIM 1000)
      (s.frm.x + fxMul (fxMul (s.par Reg.FRM_VCTL_KIV 10) s.frameTs) (s.eStarNext - s.vmNext))
  else s.frm.x

/-- The magnitude E of step 8 (R101). -/
def Machine.State.eNext (s : State) : Int :=
  clampInt (s.par Reg.FRM_ELIM_EMIN 1000) (max (s.par Reg.FRM_ELIM_EMIN 1000) (s.par Reg.FRM_ELIM_EMAX 1000))
    (if s.lrd Reg.FRM_CTRL_VMODE = 1 then s.eStarNext + fxMul (s.par Reg.FRM_VCTL_KPV 1000) (s.eStarNext - s.vmNext) + s.xNext
     else s.eStarNext)

/-- The reference vector of step 9 with the impedance scale `k` (R102). -/
def Machine.State.vrefNext (s : State) (k : Int) : Int × Int :=
  let cs := fxCosSin s.thetaOutNext
  let rv := fxQ15 (s.lrd Reg.FRM_ZV_RV : Nat)
  let xv := fxQ15 (s.lrd Reg.FRM_ZV_XV : Nat)
  (fxMul s.eNext cs.2 - fxMul k (fxMul rv s.iMeas.1 - fxMul xv s.iMeas.2),
   -(fxMul s.eNext cs.1) - fxMul k (fxMul rv s.iMeas.2 + fxMul xv s.iMeas.1))

/-! ## Levels, keys and selection of the modulator (R184 to R191), in 1/65,536 of a submodule -/

/-- The level that reference bank word `a` asks for, before its limit (R184), with the carry of the last frame (R186), which a change of mode
or a frame with blocked commands clears. -/
def Machine.State.levelAsked (s : State) (a : Nat) : Int :=
  let vunit := if s.lrd (Reg.MOD_ARMCFG_NORM a) = 0 then 2000 * (s.armMod a).vmean * (s.lrd (Reg.MOD_ARMVSM_VSMN a) : Nat)
    else 32768000 * (s.lrd (Reg.MOD_ARMVSM_VSMN a) : Nat)
  let carry := if s.lrd (Reg.MOD_ARMCFG_MODE a) = 1 ∧ (s.armMod a).mode = 1 ∧ s.mod.blocked = false then (s.armMod a).carry else 0
  if vunit = 0 then 0
  else Int.fdiv (65536 * signed 16 (spGet s.mod.given a 0) * (if s.lrd (Reg.MOD_ARMCFG_RFS a) = 1 then 4 else 2)
    * (s.rd Reg.FRM_VBASE_VBASE : Nat)) vunit + carry

/-- The polarity of the level. -/
def Machine.State.levelPol (s : State) (a : Nat) : Int := if 0 ≤ s.levelAsked a then 1 else -1

/-- The submodules that the level may insert: the available ones, and for a negative level the full bridges of them. -/
def Machine.State.levelMembers (s : State) (a : Nat) : List Nat :=
  (s.armAvail a).filter (fun j => s.levelPol a = 1 || s.rd (Reg.MOD_SM_TYPE j) % 2 = 1)

/-- The magnitude of the level within its limit. -/
def Machine.State.levelMag (s : State) (a : Nat) : Nat := min (s.levelAsked a).natAbs (65536 * (s.levelMembers a).length)

/-- The submodules inserted for the whole frame and the width of the pulse, 0 for none (R185, R186). -/
def Machine.State.wholeCount (s : State) (a : Nat) : Nat :=
  let f := s.levelMag a % 65536
  let minp := s.lrd (Reg.MOD_ARMPWM_MINP a)
  if s.lrd (Reg.MOD_ARMCFG_MODE a) ≠ 1 then (s.levelMag a + 32768) / 65536
  else if minp ≤ f ∧ 65536 < f + minp then s.levelMag a / 65536 + 1 else s.levelMag a / 65536
def Machine.State.pulseWidth (s : State) (a : Nat) : Nat :=
  let f := s.levelMag a % 65536
  let minp := s.lrd (Reg.MOD_ARMPWM_MINP a)
  if s.lrd (Reg.MOD_ARMCFG_MODE a) ≠ 1 ∨ f < minp ∨ 65536 < f + minp then 0 else f

/-- The key of an available submodule in the ranking of the frame (R187), before saturation: the energy term, with the penalty taken off for a
submodule that was inserted for the whole previous frame. -/
def Machine.State.keyOf (s : State) (a j : Nat) : Int :=
  let m := s.armMod a
  let ke := m.signI * m.polR * Int.fdiv ((s.lrd (Reg.RSP_WT_WE a) : Nat) * (s.energyOf j - m.mean)) 4096
  let p := Int.fdiv ((s.lrd (Reg.RSP_WT_WT a) : Nat) * max 0 (s.tempOf a j - signed 16 (s.lrd (Reg.RSP_WS_TREF a)))) 4096
    + Int.fdiv ((s.lrd (Reg.RSP_WS_WS a) : Nat) * (s.rd (Reg.RSP_KEY_ACT j) : Nat)) 4096
  if s.mod.blocked = false ∧ s.rd (Reg.MOD_SM_LAST j) = (if m.polR = 1 then 1 else 2) then ke - p else ke + p

/-- The candidates of arm `a` in priority order (R190). -/
def Machine.State.candidates (s : State) (a : Nat) : List Nat :=
  (if s.levelPol a = (s.armMod a).polR then (s.armMod a).order else (s.armMod a).order.reverse).filter
    (fun j => s.levelPol a = 1 || s.rd (Reg.MOD_SM_TYPE j) % 2 = 1)

/-- The command bits of a submodule inserted for the whole frame, and of one inserted from t1 to t2, by polarity (R177, R191). -/
def insBits (pol : Int) : Nat := if pol = 1 then 21 else 42
def pulseBits (pol : Int) (f : Nat) : Nat := (if pol = 1 then 4 else 8) + (65536 - f) / 2 * 2 ^ 8 + ((65536 - f) / 2 + f) * 2 ^ 24

/-- Whether submodule `j` was inserted for the whole previous frame with the polarity of this one (set I of R190 at its start). -/
def Machine.State.wasIn (s : State) (a j : Nat) : Bool :=
  !s.mod.blocked && s.rd (Reg.MOD_SM_LAST j) = (if s.levelPol a = 1 then 1 else 2)

/-- Whether `j` stands before `k` in `l`. -/
def before (l : List Nat) (j k : Nat) : Bool := decide (l.idxOf j < l.idxOf k)

/-- Whether an exchange may move submodule `j` (R190): it has not changed within the last DWELL frames. -/
def Machine.State.mayMove (s : State) (a j : Nat) : Bool := s.mod.blocked || decide (s.lrd (Reg.RSP_BAND_DWELL a) ≤ s.rd (Reg.MOD_SM_AGE j))

/-- Whether submodule `j` of an arm of `n` submodules, at place `i` of them, is inserted at the start of the frame under carrier-phase-shifted
modulation with carrier frame `c` (R194): mj > c(0), all scaled to integers. -/
def Machine.State.carrierOn (s : State) (a j i n c : Nat) : Bool :=
  let nav : Int := ((s.armAvail a).length : Nat)
  let e := s.energyOf j - (s.armMod a).mean
  let sg := (s.armMod a).signI * (s.armMod a).polR
  let den := 1073741824 * nav
  let mj := clampInt 0 den ((s.levelMag a : Nat) * 16384 - sg * signed 16 (s.lrd (Reg.RSP_AUX_KB a)) * e * nav)
  let per : Int := ((s.cper a * n : Nat) : Int)
  let u : Int := ((c * n + i * s.cper a : Nat) : Int) % per
  if 2 * u < per then decide (den * (2 * u) < mj * per) else decide (den * (2 * per - 2 * u) < mj * per)

end Sys2Proof
end

