-- ==== Sys2Proof/Certificates/Slice0/Obligations.lean ====
section
/-! DEFINITION. The statements about the device, for the provers: the step, the invariants, and for every command where it completes and
what it then has done. -/

open Sys2Proof Sys2Proof.Machine

/-- The step of a state with command `c` at the front of its queue is `exec` of `c` on the state with the rest of the queue. -/
def Obligations.StepTakesFront : Prop :=
  ∀ (c : Instr) (q : List Instr) (s : State), step (s.setPending (c :: q)) = exec c (s.setPending q)

/-- The choice of the model (log 1): with no command waiting, a step is one 4 ns tick of device time, and only the clock, MTIME and
what a wrap of the 64-bit time sets change. -/
def Obligations.EmptyQueueTicks : Prop :=
  ∀ (s : State), s.pending = [] → ∃ t, step s = .next t ∧ t.clk.ticks = s.clk.ticks + 1 ∧ t.sup = { s.sup with mtime := s.sup.mtime + 1 } ∧
    t.clk.timers = s.clk.timers ∧ onlyChanges [Reg.PTP_ALRM_WRAP, Reg.CST_TSHI_TSHI] [.clk, .sup] s t

/-- Every command, on every operand and in every state, answers a next state with the same queue of waiting commands: there is no fault
and no refusal. Readings of the model this rests on: log 7. -/
def Obligations.EveryCommandCompletes : Prop :=
  ∀ (c : Instr) (s : State), gives c s (fun t => t.pending = s.pending)

/-- Every command given by one access to a register or memory (accessOf names them with their address), by a master that does not reach
the address (its own protection, where it is a core, or the policy refuses it, its region is off, nothing is assigned there, or a
buffer of the interconnect fails it), is answered by an error response; one that left its core is recorded in INT_PERR where it holds
no record, one that met the failing buffer as a class B error where INT_ERR holds no record (it names region and block 0 there by the
model's choice, log 95); a core takes an access fault with it, which puts it into machine mode and ends its reservation; nothing else
changes. Readings of the model this rests on: log 10, 80, 92, 95. -/
def Obligations.GateRefuses : Prop :=
  ∀ (c : Instr) (m : Master) (w : Bool) (a : Nat) (s : State), accessOf c = some (m, w, a) → s.reaches m w a = false →
    gives c s (fun t => t.bus = [⟨m, 0, true⟩]
      ∧ t.sup = { s.sup with resv := t.sup.resv, prot := t.sup.prot, busBad := t.sup.busBad, msiOff := t.sup.msiOff, rr := t.sup.rr }
      ∧ (1 ≤ m.val ∧ m.val ≤ 4 → t.sup.resv = spDel s.sup.resv (m.val - 1)
          ∧ spGet t.sup.prot (m.val - 1) CoreProt.reset = { spGet s.sup.prot (m.val - 1) CoreProt.reset with user := false }
          ∧ (∀ k, k ≠ m.val - 1 → spGet t.sup.prot k CoreProt.reset = spGet s.sup.prot k CoreProt.reset))
      ∧ (m.val = 0 ∨ 4 < m.val → t.sup.resv = s.sup.resv ∧ t.sup.prot = s.sup.prot)
      ∧ (s.leaves m w a = false → t.sup.busBad = s.sup.busBad ∧ onlyChanges [] [.bus, .sup] s t)
      ∧ (s.leaves m w a = true → spFind s.sup.busBad m.val = none → t.sup.busBad = s.sup.busBad
          ∧ (s.flag Reg.INT_PERR_VALID = false → t.flag Reg.INT_PERR_VALID = true ∧ t.rd Reg.INT_PERR_MASTER = m.val ∧ t.rd Reg.INT_PERRADDR_ADDR = a % 2 ^ 32)
          ∧ onlyChanges [Reg.INT_PERRCNT_COUNT, Reg.INT_PERR_VALID, Reg.INT_PERR_KIND, Reg.INT_PERR_MASTER, Reg.INT_PERRADDR_ADDR]
              [.bus, .sup] s t)
      ∧ (s.leaves m w a = true → spFind s.sup.busBad m.val ≠ none → t.sup.busBad = spDel s.sup.busBad m.val
          ∧ (s.flag Reg.INT_ERR_VALID = false → t.flag Reg.INT_ERR_VALID = true ∧ t.rd Reg.INT_ERR_CLASS = clsB ∧ t.rd Reg.INT_ERR_KIND = kEcc
              ∧ t.rd Reg.INT_ERRADDR_ADDR = a % 2 ^ 32)
          ∧ onlyChanges [Reg.INT_ERRCNT_BCNT, Reg.INT_ERR_VALID, Reg.INT_ERR_OVR, Reg.INT_ERR_CLASS, Reg.INT_ERR_REGION, Reg.INT_ERR_BLOCK, Reg.INT_ERR_KIND, Reg.INT_ERR_DETAIL, Reg.INT_ERRADDR_ADDR, Reg.INT_ERRTIME_TIME]
              [.bus, .sup] s t))

/-- After reset every register field reads as its reset value, no command waits, the mode is BOOT, every byte of memory reads 0 (the
model's choice, log 2), no Mallet is held, every link port is DOWN, no tile has a program, and nothing has been sent. -/
def Obligations.ResetState : Prop :=
  (∀ f : Fld, State.reset.rd f = f.rst % 2 ^ f.wid) ∧ State.reset.pending = [] ∧ State.reset.mode = mBoot ∧ (∀ a, State.reset.memByte a = 0) ∧
  State.reset.mir.holds = false ∧ State.reset.sent = [] ∧ (∀ n : Fin 32, State.reset.lstate n = lDown) ∧ State.reset.arm.tiles = []

/-- The byte memories of the reset state are in canonical form. -/
def Obligations.ResetMemoryCanonical : Prop :=
  State.reset.memOk = true

/-- From every state whose byte memories are in canonical form (addresses strictly rising, no byte listed at the value that an unlisted
byte reads as), every step that answers a next state leaves them in canonical form. -/
def Obligations.StepKeepsMemory : Prop :=
  ∀ (s t : State), s.memOk = true → step s = .next t → t.memOk = true

/-- From every state, every step that answers a next state keeps every fuse bit that is set, never lowers the anti-rollback counter,
and leaves the fuses that no command programs; a security mode of 0 or 1 stays one of these. -/
def Obligations.StepKeepsFuses : Prop :=
  ∀ (s t : State), s.fuses.secMode ≤ 1 → step s = .next t → fusesWithin s.fuses t.fuses ∧ t.fuses.secMode ≤ 1

/-- A command that is not among those of writesMemory leaves every byte of memory as it was; and no command changes the flash. -/
def Obligations.MemoryFrame : Prop :=
  (∀ (c : Instr) (s : State), writesMemory c = false → gives c s (fun t => ∀ a, t.memByte a = s.memByte a)) ∧
  (∀ (c : Instr) (s : State), gives c s (fun t => t.flash = s.flash))

/-- With BYPREQ = 1 in an applied command the node closes its bypass switch at APPLY and reports BYP = 1; once the switch is closed no
applied command changes the submodule state, and no command at all reopens the switch. -/
def Obligations.NodeBypass : Prop :=
  (∀ (j : Fin 8192) (c : NodeCmd) (r : List NodeCmd) (s : State),
    ((s.node j).st = nRun ∨ (s.node j).st = nHold ∨ (s.node j).st = nBlocked) → (s.node j).cmds = c :: r → bitAt c.bits 6 = true →
    gives (.nodeApply j 0) s (fun t => (t.node j).byp = true ∧ (∀ x q, stBit ((t.node j).status x q) 5 = true))) ∧
  (∀ (j : Fin 8192) (k : Fin 3) (s : State), (s.node j).byp = true →
    gives (.nodeApply j k) s (fun t => (t.node j).sw = (s.node j).sw ∧ (t.node j).swCnt = (s.node j).swCnt)) ∧
  (∀ (j : Fin 8192) (c : Instr) (s : State), (s.node j).byp = true → gives c s (fun t => (t.node j).byp = true))

/-- With PLANSCR = 1, after a scrub pass in which or since the pass before which CTHR or more errors of the array were corrected SI is
halved, down to 1 s (10 units); after the sixteenth consecutive interval without a correction it is doubled, up to SILOAD; otherwise it
stays, and so it does with PLANSCR = 0 or PAT_ not working. The corrections of an interval are those counted apart from CORR since the
pass before and those of this pass, which CORR shows where it does not saturate. -/
def Obligations.ScrubInterval : Prop :=
  (∀ (a : Fin 11) (struck : List Strike) (late : Bool) (s : State), s.flag Reg.PAT_CTRL_PLANSCR = true → s.works .pat = true → s.flag
    Reg.BST_CTRL_EN = true → (arrayRegions a).any s.regionOn = true → bitAt s.bst.arrays a = false → s.widths [Reg.BST_SCR_SI a,
    Reg.BST_SCR_SILOAD a] = true → 10 ≤ s.rd (Reg.BST_SCR_SI a) → gives (.scrubPass a struck late) s (fun t => (t.rd (Reg.BST_ECC_CORR
    a) < 0xFFFF → s.rd (Reg.BST_CTHR_CTHR a) ≤ (spGet s.bst.corr a 0 + (t.rd (Reg.BST_ECC_CORR a) - s.rd (Reg.BST_ECC_CORR a))) → t.rd
    (Reg.BST_SCR_SI a) = max 10 (s.rd (Reg.BST_SCR_SI a) / 2)) ∧ (t.rd (Reg.BST_ECC_CORR a) < 0xFFFF → (spGet s.bst.corr a 0 + (t.rd
    (Reg.BST_ECC_CORR a) - s.rd (Reg.BST_ECC_CORR a))) = 0 ∧ 0 < s.rd (Reg.BST_CTHR_CTHR a) ∧ spGet s.bst.quiet a 0 = 15 ∧ s.rd
    (Reg.BST_SCR_SI a) ≤ s.rd (Reg.BST_SCR_SILOAD a) → t.rd (Reg.BST_SCR_SI a) = min (s.rd (Reg.BST_SCR_SILOAD a)) (2 * s.rd
    (Reg.BST_SCR_SI a))) ∧ (t.rd (Reg.BST_ECC_CORR a) < 0xFFFF → (spGet s.bst.corr a 0 + (t.rd (Reg.BST_ECC_CORR a) - s.rd
    (Reg.BST_ECC_CORR a))) < s.rd (Reg.BST_CTHR_CTHR a) → (spGet s.bst.corr a 0 + (t.rd (Reg.BST_ECC_CORR a) - s.rd (Reg.BST_ECC_CORR
    a))) ≠ 0 ∨ spGet s.bst.quiet a 0 < 15 → t.rd (Reg.BST_SCR_SI a) = s.rd (Reg.BST_SCR_SI a)))) ∧
  (∀ (a : Fin 11) (struck : List Strike) (late : Bool) (s : State), spGet s.bst.quiet a 0 < 15 → s.flag Reg.PAT_CTRL_PLANSCR = true →
    s.works .pat = true → s.flag Reg.BST_CTRL_EN = true → (arrayRegions a).any s.regionOn = true → bitAt s.bst.arrays a = false →
    s.widths [Reg.BST_SCR_SI a, Reg.BST_SCR_SILOAD a] = true → 10 ≤ s.rd (Reg.BST_SCR_SI a) → gives (.scrubPass a struck late) s (fun t
    => (t.rd (Reg.BST_ECC_CORR a) < 0xFFFF → spGet t.bst.quiet a 0 = if (spGet s.bst.corr a 0 + (t.rd (Reg.BST_ECC_CORR a) - s.rd
    (Reg.BST_ECC_CORR a))) = 0 then spGet s.bst.quiet a 0 + 1 else 0) ∧ spGet t.bst.corr a 0 = 0)) ∧
  (∀ (a : Fin 11) (struck : List Strike) (late : Bool) (s : State), s.flag Reg.PAT_CTRL_PLANSCR = false ∨ s.works .pat = false → gives
    (.scrubPass a struck late) s (fun t => t.rd (Reg.BST_SCR_SI a) = s.rd (Reg.BST_SCR_SI a) ∧ spGet t.bst.quiet a 0 = spGet
    s.bst.quiet a 0))

/-- MODE_REQUEST makes a request outside BOOT, HIBERNATE and LOCKOUT pending with its target; TRIP_REQUEST records the COMMAND trip,
and the first trip with its number and time; nothing else changes. In BOOT and HIBERNATE, and (but for LOCKOUT) in LOCKOUT or while
another waits, MODE_REQUEST sets REFUSED with the target and the cause, and no request begins to wait. Readings of the model this rests
on: log 66, 67. -/
def Obligations.ModeRequestsAndTrips : Prop :=
  (∀ (m : Master) (s : State), s.reaches m true 0x40000304 = true → gives (.tripRequest m) s (fun t => t.flag Reg.SUP_TRIP_COMMAND = true
    ∧ ((s.mode = mPrecharge ∨ isForming s.mode = true) → t.ctl.tripPend = true) ∧ (s.tripped = false → t.rd Reg.SUP_TRIP_FIRST =
    Reg.SUP_TRIP_COMMAND.lo ∧ t.rd Reg.SUP_TRIPTIME_TIME = s.now) ∧ (s.tripped = true → t.rd Reg.SUP_TRIP_FIRST = s.rd
    Reg.SUP_TRIP_FIRST) ∧ onlyChanges [Reg.SUP_TRIP_COMMAND, Reg.SUP_TRIP_FIRST, Reg.SUP_TRIPTIME_TIME] [.bus, .ctl] s t)) ∧
  (∀ (m : Master) (target : Fin 16) (s : State), s.reaches m true modeReqAddr = true → afterBoot s.mode = true → s.mode ≠ mLockout →
    target.val ≠ mLockout → s.flag Reg.SUP_MODESTAT_PEND = false → gives (.modeRequest m target) s (fun t => t.flag
    Reg.SUP_MODESTAT_PEND = true ∧ t.rd Reg.SUP_MODEREQ_TARGET = target ∧ t.ctl.req = some (target.val + 16 * m.val) ∧ onlyChanges
    [Reg.SUP_MODEREQ_TARGET, Reg.SUP_MODESTAT_PEND] [.bus, .ctl] s t)) ∧
  (∀ (m : Master) (s : State), s.reaches m true modeReqAddr = true → s.mode ≠ mBoot → s.mode ≠ mHibernate → s.mode ≠ mLockout → gives
    (.modeRequest m (Fin.ofNat 16 mLockout)) s (fun t => t.ctl.lock.isSome = true ∧ t.ctl.classD = true)) ∧
  (∀ (m : Master) (target : Fin 16) (s : State), s.reaches m true modeReqAddr = true → s.mode = mBoot ∨ s.mode = mHibernate ∨ (target.val
    ≠ mLockout ∧ (s.mode = mLockout ∨ s.flag Reg.SUP_MODESTAT_PEND = true)) → gives (.modeRequest m target) s (fun t => t.flag
    Reg.SUP_MODESTAT_REFUSED = true ∧ t.rd Reg.SUP_MODESTAT_RTARGET = target ∧ t.rd Reg.SUP_MODESTAT_RCAUSE = (if s.mode = mBoot ∨
    s.mode = mHibernate ∨ s.mode = mLockout then rcTransition else rcPending) ∧ onlyChanges [Reg.SUP_MODEREQ_TARGET,
    Reg.SUP_MODESTAT_REFUSED, Reg.SUP_MODESTAT_RTARGET, Reg.SUP_MODESTAT_RCAUSE, Reg.INT_PERRCNT_COUNT, Reg.INT_PERR_VALID,
    Reg.INT_PERR_KIND, Reg.INT_PERR_MASTER, Reg.INT_PERRADDR_ADDR] [.bus] s t))

/-- LOCKOUT_ENTRY enters LOCKOUT with the cause that is due recorded; REFCLK_LOST and the loss of PLL_CORE, PLL_SER or PLL_TIME after
BOOT are class D errors, of which LOCKOUT becomes due; PLL_LOCK of the fourth PLL in BOOT starts core 0. Readings of the model this
rests on: log 67, 68. -/
def Obligations.LockoutAndClockLoss : Prop :=
  (∀ (k r : Nat) (s : State), s.ctl.lock = some (k, r) → afterBoot s.mode = true → s.mode ≠ mLockout → gives (.lockoutEntry) s (fun t =>
    t.mode = mLockout ∧ t.ctl.lock = none ∧ t.flag Reg.SUP_LOCK_VALID = true ∧ t.rd Reg.SUP_LOCK_KIND = k % 2 ^ Reg.SUP_LOCK_KIND.wid ∧
    t.rd Reg.SUP_LOCK_REGION = r % 2 ^ Reg.SUP_LOCK_REGION.wid ∧ t.rd Reg.SUP_MODE_PREV = s.mode)) ∧
  (∀ (s : State), s.ctl.pwrEn = true → s.ctl.refLost = false → afterBoot s.mode = true → gives (.refclkLost) s (fun t => t.ctl.refLost =
    true ∧ t.ctl.classD = true ∧ t.ctl.lock.isSome = true ∧ t.flag Reg.INT_ERR_VALID = true)) ∧
  (∀ (p : Pll) (s : State), s.outOfReset = true → s.mode = mBoot → s.rd (coreState 0) = 0 → putBit s.ctl.pllLock (pllBit p) true = 15 →
    gives (.pllLock p) s (fun t => t.ctl.pllLock = 15 ∧ t.rd (coreState 0) = (if s.flag Reg.SUP_DBG_HALTED = true ∨ (spFind
    s.sup.dbgHalt 0).isSome = true then 2 else 1) ∧ onlyChanges [coreState 0] [.ctl, .sup] s t)) ∧
  (∀ (p : Pll) (s : State), s.outOfReset = true → s.mode ≠ mBoot → gives (.pllLock p) s (fun t => bitAt t.ctl.pllLock (pllBit p) = true ∧
    onlyChanges [] [.ctl] s t)) ∧
  (∀ (p : Pll) (s : State), p ≠ .sup → bitAt s.ctl.pllLock (pllBit p) = true → afterBoot s.mode = true → gives (.pllLossOfLock p) s (fun t
    => bitAt t.ctl.pllLock (pllBit p) = false ∧ t.ctl.classD = true ∧ t.ctl.lock.isSome = true)) ∧
  (∀ (s : State), bitAt s.ctl.pllLock 3 = true → afterBoot s.mode = true → s.regionOn .sup = true → gives (.pllLossOfLock .sup) s (fun t
    => t.regionOn .sup = false ∧ t.rdBit Reg.SUP_RGN_STAT_LOST 0 = true))

/-- CHIP_RESET with its key and the releases of RST_N and of the rail monitor lead into BOOT with their cause recorded; POWER_ON and
VWAKE_LOSS clear everything; HIB begins the stop of the ports and HIBERNATE_ENTRY, in IDLE alone, cuts the power; WAKE restores it.
Readings of the model this rests on: log 68. -/
def Obligations.ResetsAndPower : Prop :=
  (∀ (m : Master) (boot : Fin 8) (s : State), s.reaches m true 0x40000320 = true → gives (.chipReset m 0xA55A boot) s (fun t => t.mode =
    mBoot ∧ t.rd Reg.WAK_STAT_CAUSE = 3 ∧ t.ctl.bootPins = boot ∧ t.regionOn .sup = true ∧ Part.mem.same s t)) ∧
  (∀ (boot : Fin 8) (s : State), s.ctl.rstLow = false → s.outOfReset = true → gives (.rstNLow true boot) s (fun t => t.mode = mBoot ∧
    t.ctl.rstLow = true ∧ t.rd Reg.WAK_STAT_CAUSE = 2)) ∧
  (∀ (boot : Fin 8) (s : State), s.ctl.rstLow = true → s.ctl.pwrEn = true → s.ctl.railsOk = true → gives (.rstNLow false boot) s (fun t =>
    t.mode = mBoot ∧ t.ctl.rstLow = false ∧ t.ctl.bootPins = boot)) ∧
  (∀ (boot : Fin 8) (s : State), s.ctl.pwrEn = true → s.ctl.railsOk = false → s.ctl.rstLow = false → gives (.railMonitorRelease boot) s
    (fun t => t.mode = mBoot ∧ t.ctl.railsOk = true ∧ t.ctl.bootPins = boot)) ∧
  (∀ (s : State), gives (.powerOn) s (fun t => t.mode = mBoot ∧ t.rd Reg.WAK_STAT_CAUSE = 0 ∧ t.ctl.pwrEn = true ∧ t.ctl.railsOk = false ∧
    t.ctl.rstLow = true ∧ t.mem = [] ∧ t.fuses = s.fuses ∧ t.flash = s.flash)) ∧
  (∀ (s : State), gives (.vwakeLoss) s (fun t => t.ctl.pwrEn = false ∧ t.ctl.railsOk = false ∧ t.mem = [] ∧ t.fuses = s.fuses ∧ t.flash =
    s.flash)) ∧
  (∀ (m : Master) (s : State), s.reaches m true 0x4F000000 = true → s.mode = mIdle → gives (.hib m 0x7A3C) s (fun t => t.ctl.hibPend =
    true ∧ t.timerOn tmHib = true ∧ (∀ p : Fin 32, t.rd (blockEn (lnkBlock p)) = 0))) ∧
  (∀ (s : State), s.ctl.hibPend = true → s.mode = mIdle → gives (.hibernateEntry) s (fun t => t.mode = mHibernate ∧ t.ctl.pwrEn = false ∧
    t.rd Reg.WAK_STAT_HIBCNT = min (s.rd Reg.WAK_STAT_HIBCNT + 1) 0xFFFF ∧ t.rd Reg.SUP_RGN_STAT_ON = 0 ∧ t.mem = [])) ∧
  (∀ (s : State), s.mode ≠ mIdle → gives (.hibernateEntry) s (fun t => t.mode = s.mode ∧ onlyChanges [] [] s t)) ∧
  (∀ (level : Bool) (s : State), level ≠ s.flag Reg.WAK_CTRL_WPOL → s.mode = mHibernate → s.ctl.pwrEn = false → gives (.wake level) s (fun
    t => t.ctl.pwrEn = true ∧ t.rd Reg.WAK_STAT_CAUSE = 1 ∧ t.flag Reg.WAK_STAT_WLIVE = true ∧ t.ctl.wakePin = level))

/-- BLOCK_EN_SET of a block that has reported OFF, STOPPED_PENDING or FENCED enables it and it runs; BLOCK_EN_CLEAR in a mode in which
its chapter allows it clears EN, and a block without a unit in progress reports OFF at once; BLOCK_UNIT_COMPLETE lets a block with EN =
0 whose unit has completed report OFF, or STOPPED_PENDING with work outstanding. EN = 1 before the block has stopped is refused with
STATE, EN = 0 in a mode that its chapter forbids with BUSY_MODE. Readings of the model this rests on: log 59, 81. -/
def Obligations.BlocksStartAndStop : Prop :=
  (∀ (m : Master) (b : Block) (s : State), s.reaches m true (blockBase b) = true → enFixed b = false → s.rd (blockEn b) = 0 → ¬(s.rd
    (blockState b) = stRunning ∨ s.rd (blockState b) = stStopping) → b ≠ .mir ∨ s.idleOrMaint = true → b ≠ .saf ∨ s.fenced .saf = false
    → b ≠ .cst ∨ s.cstRefused = false → gives (.blockEnSet m b) s (fun t => t.rd (blockEn b) = 1 ∧ (b ≠ .net → t.rd (blockState b) =
    stRunning) ∧ (b = .net → t.rd (blockState b) = stRunning ∨ t.rd (blockState b) = stStopped) ∧ t.bus = [⟨m, 0, false⟩])) ∧
  (∀ (m : Master) (b : Block) (s : State), s.reaches m true (blockBase b) = true → enFixed b = false → s.rd (blockEn b) = 0 → s.rd
    (blockState b) = stRunning ∨ s.rd (blockState b) = stStopping → s.flag Reg.INT_PERR_VALID = false → gives (.blockEnSet m b) s (fun
    t => t.rd Reg.INT_PERR_KIND = peState ∧ onlyChanges [Reg.INT_PERRCNT_COUNT, Reg.INT_PERR_VALID, Reg.INT_PERR_KIND,
    Reg.INT_PERR_MASTER, Reg.INT_PERRADDR_ADDR] [.bus] s t)) ∧
  (∀ (m : Master) (b : Block) (s : State), s.reaches m true (blockBase b) = true → enFixed b = false → s.rd (blockEn b) = 1 → enHeld b
    s.mode = false → gives (.blockEnClear m b) s (fun t => t.rd (blockEn b) = 0 ∧ (b ∈ [.pat, .bst, .svs, .mir, .prt, .saf] → s.running
    b = true → t.rd (blockState b) = stOff) ∧ (b ∈ [.ang, .frm, .prf, .mod, .rsp] → t.rd (blockState b) = s.rd (blockState b)) ∧
    (s.fenced b = true → t.fenced b = true) ∧ t.bus = [⟨m, 0, false⟩])) ∧
  (∀ (m : Master) (b : Block) (s : State), s.reaches m true (blockBase b) = true → enFixed b = false → b ≠ .mir ∨ s.rd (blockEn b) = 1 →
    enHeld b s.mode = true → s.flag Reg.INT_PERR_VALID = false → gives (.blockEnClear m b) s (fun t => t.rd Reg.INT_PERR_KIND =
    peBusyMode ∧ onlyChanges [Reg.INT_PERRCNT_COUNT, Reg.INT_PERR_VALID, Reg.INT_PERR_KIND, Reg.INT_PERR_MASTER, Reg.INT_PERRADDR_ADDR]
    [.bus] s t)) ∧
  (∀ (b : Block) (s : State), b ∉ [.net, .dma, .cst] → b ≠ .lbr ∨ s.twoStepRuns = false → b ≠ .acq ∨ s.seqRuns = false → b ≠ .arm ∨ s.flag
    Reg.ARM_STAT_RUN = false → s.rd (blockEn b) = 0 → s.rd (blockState b) = stRunning ∨ s.rd (blockState b) = stStopping → s.regionOn
    (blockRegion b) = true → gives (.blockUnitComplete b) s (fun t => t.rd (blockState b) = stOff)) ∧
  (∀ (b : Block) (s : State), b ∈ [.net, .dma, .cst] → b ≠ .net ∨ s.netQuiet = true → b ≠ .dma ∨ s.sup.dmaCur = none → b ≠ .cst ∨
    (s.cst.cast = none ∧ s.cst.meas = []) → s.rd (blockEn b) = 0 → s.rd (blockState b) = stRunning ∨ s.rd (blockState b) = stStopping →
    s.regionOn (blockRegion b) = true → gives (.blockUnitComplete b) s (fun t => (t.rd (blockState b) = stOff ∧ (b ≠ .cst → t.rd
    (blockRemain b) = 0)) ∨ t.rd (blockState b) = stStopped))

/-- REGION_POWER_DOWN and REGION_RESET begin a drain in which every block of the region has EN = 0; at its end the region is isolated
or waits for its reload; REGION_POWER_UP and REGION_RELOAD bring the region up; REGION_LOST isolates it. Readings of the model this
rests on: log 60, 91. -/
def Obligations.RegionsPowerAndReset : Prop :=
  (∀ (m : Master) (r : Region) (s : State), s.reaches m true rgnCtrlAddr = true → r ≠ .sup → s.rdBit Reg.SUP_RGN_CTRL_PWR (regionBit r) =
    true → s.idleOrMaint = true → s.rd Reg.BST_STAT_RUN = 0 → gives (.regionPowerDown m r) s (fun t => spFind t.ctl.drain (regionCode
    r) = some drPower ∧ t.timerOn (tmDrain r) = true ∧ t.rdBit Reg.SUP_RGN_CTRL_PWR (regionBit r) = false ∧ (∀ b ∈ regionBlocks r,
    enFixed b = false → t.rd (blockEn b) = 0))) ∧
  (∀ (r : Region) (s : State), spFind s.ctl.drain (regionCode r) = some drPower → s.rdBit Reg.SUP_RGN_CTRL_PWR (regionBit r) = false →
    gives (.regionDrainEnd r) s (fun t => t.regionOn r = false ∧ t.rdBit Reg.SUP_RGN_STAT_ISO (regionBit r) = true ∧ spFind t.ctl.drain
    (regionCode r) = none)) ∧
  (∀ (r : Region) (s : State), spFind s.ctl.drain (regionCode r) = some drReset → gives (.regionDrainEnd r) s (fun t => t.regionOn r =
    false ∧ spFind t.ctl.reload (regionCode r) = some 1 ∧ spFind t.ctl.drain (regionCode r) = none)) ∧
  (∀ (m : Master) (r : Region) (s : State), s.reaches m true rgnCtrlAddr = true → s.rdBit Reg.SUP_RGN_CTRL_PWR (regionBit r) = false →
    s.idleOrMaint = true → s.rd Reg.BST_STAT_RUN = 0 → spFind s.ctl.drain (regionCode r) = none → gives (.regionPowerUp m r) s (fun t
    => t.regionOn r = true ∧ t.rdBit Reg.SUP_RGN_STAT_ISO (regionBit r) = false ∧ t.rdBit Reg.SUP_RGN_CTRL_PWR (regionBit r) = true)) ∧
  (∀ (m : Master) (r : Region) (s : State), s.reaches m true rgnCtrlAddr = true → s.idleOrMaint = true → s.underTest r = false → s.rdBit
    Reg.SUP_RGN_CTRL_PWR (regionBit r) = true → gives (.regionReset m r) s (fun t => spFind t.ctl.drain (regionCode r) = some drReset ∧
    t.timerOn (tmDrain r) = true)) ∧
  (∀ (r : Region) (s : State), spFind s.ctl.reload (regionCode r) = some 1 → s.reloadFail r = none → gives (.regionReload r) s (fun t =>
    t.regionOn r = true ∧ spFind t.ctl.reload (regionCode r) = none)) ∧
  (∀ (r : Region) (k : LossKind) (s : State), s.regionOn r = true → gives (.regionLost r k) s (fun t => t.regionOn r = false ∧ t.rdBit
    Reg.SUP_RGN_STAT_ISO (regionBit r) = true ∧ t.rdBit Reg.SUP_RGN_STAT_LOST (regionBit r) = true))

/-- MQT_HOSTGO in BOOT and UART_IMAGE_RECEIVED make an image of at most 3 MiB ready in SUP SRAM; a gap on UART0 fails the load with
SRC_READ, and the device stays in BOOT. Readings of the model this rests on: log 71. -/
def Obligations.LoaderSources : Prop :=
  (∀ (m : Master) (len : Word) (s : State), s.reaches m true 0x40060034 = true → s.mode = mBoot → len.toNat ≤ 0x300000 → gives (.mqtHostgo
    m len) s (fun t => t.mqt.ready = some len.toNat ∧ t.mqt.uart = false ∧ onlyChanges [] [.bus, .mqt] s t)) ∧
  (∀ (bytes : List Byte) (s : State), s.loaderUp = true → s.bootSrc = 3 → bytes.length ≤ 0x300000 → gives (.uartImageReceived bytes) s
    (fun t => t.mqt.ready = some bytes.length ∧ t.mqt.uart = true ∧ (∀ i : Fin bytes.length, t.memByte (0x10000000 + i.val) = bytes.get
    i) ∧ onlyChanges [] [.mem, .upset, .mqt] s t)) ∧
  (∀ (s : State), s.loaderUp = true → s.bootSrc = 3 → s.regionOn .net = true → gives (.uartImageGapTimeout) s (fun t => t.mode = mBoot ∧
    t.mqt.failed = true ∧ t.mqt.ready = none ∧ t.rd Reg.MQT_ERR_CODE = 1 ∧ onlyChanges [Reg.MQT_ERR_CODE, Reg.MQT_ERR_TYPE,
    Reg.MQT_ERR_PHASE, Reg.MQT_ERROFS_OFS] [.mqt] s t))

/-- STAGE starts the check, STAGE_CHECK_COMPLETE ends it, COMMIT makes a staged image wait for the next frame start or for the frame
asked for, which it judges to be past from a difference of 2^15 frames on (a difference of 0 waits for that frame number, log 72), and
CANCEL discards it. Readings of the model this rests on: log 72. -/
def Obligations.LiveUpdate : Prop :=
  (∀ (m : Master) (s : State), s.reaches m true 0x40060024 = true → s.liveMode = true → s.rd Reg.MQT_STAT_LSTAGE ≠ lsCommitting → gives
    (.stage m) s (fun t => t.rd Reg.MQT_STAT_LSTAGE = lsChecking ∧ t.mqt.staged = none ∧ onlyChanges [Reg.MQT_STAT_LSTAGE] [.bus, .mqt]
    s t)) ∧
  (∀ (s : State), s.rd Reg.MQT_STAT_LSTAGE = lsChecking → gives (.stageCheckComplete) s (fun t => (t.rd Reg.MQT_STAT_LSTAGE = lsStaged ∧
    t.mqt.staged.isSome = true) ∨ (t.rd Reg.MQT_STAT_LSTAGE = lsNone ∧ t.flag Reg.MQT_ALRM_LIVEERR = true ∧ t.rd Reg.MQT_ERR_PHASE =
    1))) ∧
  (∀ (m : Master) (s : State), s.reaches m true 0x40060024 = true → s.liveMode = true → s.rd Reg.MQT_STAT_LSTAGE = lsStaged → gives
    (.commit m) s (fun t => t.rd Reg.MQT_STAT_LSTAGE = lsCommitting ∧ t.mqt.staged = s.mqt.staged.map (fun x =>
    { x with frame := if s.flag Reg.MQT_LFRAMEAT_AT = true ∧ (s.rd Reg.MQT_LFRAMEAT_FRAME + 2 ^ 16 - s.rd Reg.MQT_LFRAME_NOW) % 2 ^ 16 < 2 ^ 15 then some (s.rd Reg.MQT_LFRAMEAT_FRAME) else none, late := s.flag Reg.MQT_LFRAMEAT_AT && decide (2 ^ 15 ≤ (s.rd Reg.MQT_LFRAMEAT_FRAME + 2 ^ 16 - s.rd Reg.MQT_LFRAME_NOW) % 2 ^ 16) })
    ∧ onlyChanges [Reg.MQT_STAT_LSTAGE] [.bus, .mqt] s t)) ∧
  (∀ (m : Master) (s : State), s.reaches m true 0x40060024 = true → s.rd Reg.MQT_STAT_LSTAGE ≠ lsCommitting → gives (.cancel m) s (fun t
    => t.rd Reg.MQT_STAT_LSTAGE = lsNone ∧ t.mqt.staged = none ∧ onlyChanges [Reg.MQT_STAT_LSTAGE] [.bus, .mqt] s t))

/-- ARB_COMMIT, KEY_REVOKE, KEY_PROGRAM and CLOSE are accepted in IDLE and MAINTENANCE under their conditions and run until
FUSE_COMMAND_COMPLETE, which programs: the counter counts up to VERSION, a slot is revoked or marked programmed, SECMODE becomes
CLOSED. Readings of the model this rests on: log 4, 18. -/
def Obligations.FuseCommands : Prop :=
  (∀ (m : Master) (s : State), s.reaches m true 0x40070010 = true → s.idleOrMaint = true → s.flag Reg.SEC_STAT_FUSEBUSY = false → gives
    (.arbCommit m) s (fun t => t.mqt.fuse = some (1, 0) ∧ t.flag Reg.SEC_STAT_FUSEBUSY = true ∧ onlyChanges [Reg.SEC_STAT_FUSEBUSY]
    [.bus, .mqt] s t)) ∧
  (∀ (m : Master) (slot : Fin 4) (s : State), s.reaches m true 0x40070010 = true → s.idleOrMaint = true → s.flag Reg.SEC_STAT_FUSEBUSY =
    false → s.mqt.key ≠ some slot.val → (∃ k : Fin 4, k ≠ slot ∧ s.fuses.usable k = true) → gives (.keyRevoke m slot) s (fun t =>
    t.mqt.fuse = some (2, slot.val) ∧ t.flag Reg.SEC_STAT_FUSEBUSY = true ∧ onlyChanges [Reg.SEC_STAT_FUSEBUSY] [.bus, .mqt] s t)) ∧
  (∀ (m : Master) (slot : Fin 4) (s : State), s.reaches m true 0x40070010 = true → s.idleOrMaint = true → s.flag Reg.SEC_STAT_FUSEBUSY =
    false → bitAt s.fuses.keyProg slot = false → gives (.keyProgram m slot) s (fun t => t.mqt.fuse = some (3, slot.val) ∧ t.flag
    Reg.SEC_STAT_FUSEBUSY = true ∧ onlyChanges [Reg.SEC_STAT_FUSEBUSY] [.bus, .mqt] s t)) ∧
  (∀ (m : Master) (s : State), s.reaches m true 0x40070010 = true → s.idleOrMaint = true → s.flag Reg.SEC_STAT_FUSEBUSY = false → (∃ k :
    Fin 4, s.fuses.usable k = true) → gives (.close m) s (fun t => t.mqt.fuse = some (4, 0) ∧ t.flag Reg.SEC_STAT_FUSEBUSY = true ∧
    onlyChanges [Reg.SEC_STAT_FUSEBUSY] [.bus, .mqt] s t)) ∧
  (∀ (s : State), s.mqt.fuse = some (1, 0) → gives (.fuseCommandComplete 0) s (fun t => t.fuses =
    { s.fuses with arb := max s.fuses.arb (min 64 s.mqt.version) } ∧ t.mqt.fuse = none ∧ t.flag Reg.SEC_STAT_FUSEBUSY = false ∧
    onlyChanges [Reg.SEC_STAT_FUSEBUSY] [.fuses, .mqt] s t)) ∧
  (∀ (slot : Fin 4) (s : State), s.mqt.fuse = some (2, slot.val) → gives (.fuseCommandComplete 0) s (fun t => t.fuses =
    { s.fuses with keyRev := putBit s.fuses.keyRev slot true } ∧ t.mqt.fuse = none ∧ onlyChanges [Reg.SEC_STAT_FUSEBUSY] [.fuses, .mqt]
    s t)) ∧
  (∀ (slot : Fin 4) (s : State), s.mqt.fuse = some (3, slot.val) → gives (.fuseCommandComplete 0) s (fun t => (∀ i : Fin 8, spGet
    t.fuses.keyHash (8 * slot + i) 0 = spGet s.fuses.keyHash (8 * slot + i) 0 ||| s.rd (Reg.SEC_KEYSTAGE_HASH i)) ∧ bitAt
    t.fuses.keyProg slot = true ∧ t.fuses.keyRev = s.fuses.keyRev ∧ t.fuses.arb = s.fuses.arb ∧ t.fuses.secMode = s.fuses.secMode ∧
    t.mqt.fuse = none ∧ onlyChanges [Reg.SEC_STAT_FUSEBUSY] [.fuses, .mqt] s t)) ∧
  (∀ (s : State), s.mqt.fuse = some (4, 0) → gives (.fuseCommandComplete 0) s (fun t => t.fuses = { s.fuses with secMode := 1 } ∧
    t.mqt.fuse = none ∧ onlyChanges [Reg.SEC_STAT_FUSEBUSY] [.fuses, .mqt] s t))

/-- TAMPER_ACTIVE at the active level of a configured input records the input and its time; JTAG_INSTRUCTION loads what the debug level
allows, and BYPASS otherwise; with core debug it halts a core, lets it run, sets the mode or a protection entry of a halted one and
reads the address of one (of these operations the spec names halt, step and inspect, R370; the rest is the model's reading, log 92).
Readings of the model this rests on: log 68, 73. -/
def Obligations.TamperAndJtag : Prop :=
  (∀ (n : Fin 2) (level : Bool) (s : State), s.regionOn .sup = true → bitAt (s.tamperCfg n) 0 = true → level ≠ bitAt (s.tamperCfg n) 1 →
    bitAt s.mqt.tamper n = false → gives (.tamperActive n level) s (fun t => t.flag (if n.val = 0 then Reg.SEC_ALRM_TAMP0 else
    Reg.SEC_ALRM_TAMP1) = true ∧ t.rd (Reg.SEC_TAMPTIME_TIME n) = s.now ∧ (bitAt (s.tamperCfg n) 2 = true → t.ctl.dbgClosed = true) ∧
    (bitAt (s.tamperCfg n) 3 = true → t.ctl.lock.isSome = true))) ∧
  (∀ (i : Jtag) (s : State), (match i with | .debug _ => false | _ => true) = true → gives (.jtagInstruction i) s (fun t => t.pins.tap =
    (if s.jtagAllows i then i else .bypass) ∧ onlyChanges [] [.pins] s t)) ∧
  (∀ (op : DebugOp) (s : State), s.debugLevel ≠ 0 → gives (.jtagInstruction (.debug op)) s (fun t => t.pins.tap = .bypass ∧ onlyChanges []
    [.pins] s t)) ∧
  (∀ (c : Fin 4) (s : State), s.debugLevel = 0 → s.rd (coreState c) ≠ 0 → gives (.jtagInstruction (.debug (.halt c))) s (fun t => t.rd
    (coreState c) = 2 ∧ (spFind t.sup.dbgHalt c).isSome = true ∧ onlyChanges [coreState c] [.pins, .sup] s t)) ∧
  (∀ (c : Fin 4) (s : State), s.debugLevel = 0 → s.rd (coreState c) = 2 → gives (.jtagInstruction (.debug (.resume c))) s (fun t => t.rd
    (coreState c) = (if s.flag Reg.SUP_DBG_HALTED = true then 2 else 1) ∧ (spFind t.sup.dbgHalt c).isSome = false ∧ onlyChanges
    [coreState c] [.pins, .sup] s t)) ∧
  (∀ (c : Fin 4) (user : Bool) (s : State), s.debugLevel = 0 → s.rd (coreState c) = 2 → gives (.jtagInstruction (.debug (.setMode c
    user))) s (fun t => spGet t.sup.prot c CoreProt.reset = { spGet s.sup.prot c CoreProt.reset with user := user } ∧ onlyChanges []
    [.pins, .sup] s t)) ∧
  (∀ (c : Fin 4) (i : Fin 16) (cfg : Byte) (a : Word) (s : State), s.debugLevel = 0 → s.rd (coreState c) = 2 → (spGet s.sup.prot c
    CoreProt.reset).locked i = false → (spGet s.sup.prot c CoreProt.reset).cfg.length = 16 → (spGet s.sup.prot c
    CoreProt.reset).addr.length = 16 → gives (.jtagInstruction (.debug (.setPmp c i cfg a))) s (fun t => (spGet t.sup.prot c
    CoreProt.reset).cfg.getD i 0 = cfg.toNat ∧ (spGet t.sup.prot c CoreProt.reset).addr.getD i 0 = a.toNat ∧ (spGet t.sup.prot c
    CoreProt.reset).user = (spGet s.sup.prot c CoreProt.reset).user ∧ onlyChanges [] [.pins, .sup] s t)) ∧
  (∀ (c : Fin 4) (i : Fin 16) (s : State), s.debugLevel = 0 → gives (.jtagInstruction (.debug (.inspect c i))) s (fun t => t.bus = [⟨7,
    (spGet s.sup.prot c CoreProt.reset).addr.getD i 0, false⟩] ∧ onlyChanges [] [.pins, .bus] s t))

/-- REGISTER_WRITE of a register without commands gives every field what its access code says: the bits written, held to the stated
range, for RW and for RWL while it is open, a W1C flag cleared where 1 is written and its source is not active, anything else as it
was; a write of another value to a locked field is reported as LOCKED. It stores a word or a part of one in SUP SRAM. Another width
than 32 bits is refused with WIDTH. UNMAPPED_ACCESS, an access where nothing is assigned, a write of a read-only memory or a target
that the policy refuses, and REGION_OFF_ACCESS are answered by an error response and recorded, a core takes an access fault with it,
and nothing else changes. Readings of the model this rests on: log 10, 12, 80, 91, 92. -/
def Obligations.MasterAccesses : Prop :=
  (∀ (m : Master) (a v : Word) (s : State), s.reaches m true a.toNat = true → plainReg a.toNat = true → s.lockedDiffers m a.toNat v.toNat
    = false → gives (.registerWrite m a 4 v) s (fun t => (∀ f ∈ fieldsAt a.toNat, t.rd (f.at_ a.toNat) = s.fieldAfter m a.toNat v.toNat
    f) ∧ t.bus = [⟨m, 0, false⟩] ∧ onlyChanges ((fieldsAt a.toNat).map (fun f => f.at_ a.toNat) ++ [Reg.FRM_ALRM_PCLAMP]) [.bus] s t)) ∧
  (∀ (m : Master) (a v : Word) (s : State), s.reaches m true a.toNat = true → plainReg a.toNat = true → s.lockedDiffers m a.toNat v.toNat
    = true → s.flag Reg.INT_PERR_VALID = false → gives (.registerWrite m a 4 v) s (fun t => (∀ f ∈ fieldsAt a.toNat, t.rd (f.at_
    a.toNat) = s.fieldAfter m a.toNat v.toNat f) ∧ t.rd Reg.INT_PERR_KIND = peLocked ∧ t.rd Reg.INT_PERR_MASTER = m.val ∧ t.rd
    Reg.INT_PERRADDR_ADDR = a.toNat ∧ onlyChanges (((fieldsAt a.toNat).map (fun f => f.at_ a.toNat) ++ [Reg.FRM_ALRM_PCLAMP]) ++
    [Reg.INT_PERRCNT_COUNT, Reg.INT_PERR_VALID, Reg.INT_PERR_KIND, Reg.INT_PERR_MASTER, Reg.INT_PERRADDR_ADDR]) [.bus] s t)) ∧
  (∀ (m : Master) (c : Fin 4) (v : Word) (s : State), s.reaches m true (0x40000210 + 4 * c.val) = true → gives (.registerWrite m
    (BitVec.ofNat 32 (0x40000210 + 4 * c.val)) 4 v) s (fun t => t.rd (Reg.SUP_BOOTADDR_ADDR c) = v.toNat / 4 * 4 ∧ onlyChanges
    [Reg.SUP_BOOTADDR_ADDR c] [.bus] s t)) ∧
  (∀ (m : Master) (s : State), s.reaches m true 0x40000300 = true → gives (.registerWrite m 0x40000300 4 0x100) s (fun t => t.flag
    Reg.SUP_MODE_CHG = false ∧ onlyChanges [Reg.SUP_MODE_CHG] [.bus] s t)) ∧
  (∀ (m : Master) (a v : Word) (size : Nat) (s : State), s.reaches m true a.toNat = true → addrTarget a.toNat = some 1 → sizeOk size
    a.toNat = true → size = 4 ∨ s.upsetOf 0 ((a.toNat / 4 * 4 - 0x10000000) / 4) = 0 → gives (.registerWrite m a size v) s (fun t =>
    t.memRead a.toNat size = v.toNat % 256 ^ size ∧ onlyBytes a.toNat size s t ∧ onlyChanges [] [.bus, .mem, .upset, .sup] s t)) ∧
  (∀ (m : Master) (a v : Word) (size : Nat) (s : State), s.reaches m true a.toNat = true → (cardAt (a.toNat / 4 * 4)).isSome = true → size
    ≠ 4 ∨ a.toNat % 4 ≠ 0 → gives (.registerWrite m a size v) s (fun t => (s.flag Reg.INT_PERR_VALID = false → t.rd Reg.INT_PERR_KIND =
    peWidth ∧ t.rd Reg.INT_PERR_MASTER = m.val ∧ t.rd Reg.INT_PERRADDR_ADDR = a.toNat) ∧ onlyChanges [Reg.INT_PERRCNT_COUNT,
    Reg.INT_PERR_VALID, Reg.INT_PERR_KIND, Reg.INT_PERR_MASTER, Reg.INT_PERRADDR_ADDR] [.bus] s t)) ∧
  (∀ (m : Master) (write : Bool) (a : Word) (s : State), s.reaches m write a.toNat = true ∨ (addrTarget a.toNat = none ∧ s.leaves m write
    a.toNat = true) → noPlace write a.toNat = true → spFind s.sup.busBad m.val = none → gives (.unmappedAccess m write a) s (fun t =>
    t.bus = [⟨m, 0, true⟩] ∧ t.sup =
    { s.sup with resv := (s.coreTrap m).sup.resv, prot := (s.coreTrap m).sup.prot, rr := t.sup.rr, msiOff := t.sup.msiOff } ∧ (s.flag
    Reg.INT_PERR_VALID = false → t.rd Reg.INT_PERR_KIND = peUnmapped ∧ t.rd Reg.INT_PERR_MASTER = m.val ∧ t.rd Reg.INT_PERRADDR_ADDR =
    a.toNat) ∧ onlyChanges [Reg.INT_PERRCNT_COUNT, Reg.INT_PERR_VALID, Reg.INT_PERR_KIND, Reg.INT_PERR_MASTER, Reg.INT_PERRADDR_ADDR]
    [.bus, .sup] s t)) ∧
  (∀ (m : Master) (write : Bool) (a : Word) (k : Nat) (s : State), addrTarget a.toNat = some k → s.leaves m write a.toNat = true →
    s.permits m write k = false → spFind s.sup.busBad m.val = none → gives (.unmappedAccess m write a) s (fun t => t.bus = [⟨m, 0,
    true⟩] ∧ t.sup =
    { s.sup with resv := (s.coreTrap m).sup.resv, prot := (s.coreTrap m).sup.prot, rr := t.sup.rr, msiOff := t.sup.msiOff } ∧ (s.flag
    Reg.INT_PERR_VALID = false → t.rd Reg.INT_PERR_KIND = pePolicy ∧ t.rd Reg.INT_PERR_MASTER = m.val ∧ t.rd Reg.INT_PERRADDR_ADDR =
    a.toNat) ∧ onlyChanges [Reg.INT_PERRCNT_COUNT, Reg.INT_PERR_VALID, Reg.INT_PERR_KIND, Reg.INT_PERR_MASTER, Reg.INT_PERRADDR_ADDR]
    [.bus, .sup] s t)) ∧
  (∀ (m : Master) (write : Bool) (a : Word) (r : Region) (s : State), s.leaves m write a.toNat = true → addrRegion a.toNat = some r →
    s.regionOn r = false → (∀ k : Fin 16, addrTarget a.toNat = some k.val → s.permits m write k = true) → spFind s.sup.busBad m.val =
    none → gives (.regionOffAccess m write a) s (fun t => t.bus = [⟨m, 0, true⟩] ∧ t.sup =
    { s.sup with resv := (s.coreTrap m).sup.resv, prot := (s.coreTrap m).sup.prot, rr := t.sup.rr, msiOff := t.sup.msiOff } ∧ (s.flag
    Reg.INT_PERR_VALID = false → t.rd Reg.INT_PERR_KIND = peRegionOff ∧ t.rd Reg.INT_PERR_MASTER = m.val ∧ t.rd Reg.INT_PERRADDR_ADDR =
    a.toNat) ∧ onlyChanges [Reg.INT_PERRCNT_COUNT, Reg.INT_PERR_VALID, Reg.INT_PERR_KIND, Reg.INT_PERR_MASTER, Reg.INT_PERRADDR_ADDR]
    [.bus, .sup] s t))

/-- On a word of SUP SRAM with no upset bit SUP_SRAM_ACCESS answers a load with the bytes asked for, stores, reserves, stores
conditionally on the reservation, and lets an atomic leave its value in memory and answer the old word; every other byte keeps its
value. Readings of the model this rests on: log 12, 76. -/
def Obligations.SramAtomics : Prop :=
  (∀ (m : Master) (a : Word) (size : Nat) (v : Word) (s : State), s.reaches m false a.toNat = true → addrTarget a.toNat = some 1 → sizeOk
    size a.toNat = true → s.upsetOf 0 ((a.toNat / 4 * 4 - 0x10000000) / 4) = 0 → gives (.supSramAccess m .load a size v) s (fun t =>
    t.bus = [⟨m, s.memRead (a.toNat / 4 * 4) 4 / 2 ^ (8 * (a.toNat % 4)) % 2 ^ (8 * size), false⟩] ∧ onlyChanges [] [.bus] s t)) ∧
  (∀ (m : Master) (a : Word) (size : Nat) (v : Word) (s : State), s.reaches m true a.toNat = true → addrTarget a.toNat = some 1 → sizeOk
    size a.toNat = true → s.upsetOf 0 ((a.toNat / 4 * 4 - 0x10000000) / 4) = 0 → gives (.supSramAccess m .store a size v) s (fun t =>
    t.memRead a.toNat size = v.toNat % 256 ^ size ∧ onlyBytes a.toNat size s t ∧ onlyChanges [] [.bus, .mem, .upset, .sup] s t)) ∧
  (∀ (m : Master) (a v : Word) (s : State), s.reaches m false a.toNat = true → 1 ≤ m.val ∧ m.val ≤ 4 → addrTarget a.toNat = some 1 →
    a.toNat % 4 = 0 → s.upsetOf 0 ((a.toNat - 0x10000000) / 4) = 0 → gives (.supSramAccess m .lr a 4 v) s (fun t => t.bus = [⟨m,
    s.memRead a.toNat 4, false⟩] ∧ spFind t.sup.resv (m.val - 1) = some a.toNat ∧ onlyChanges [] [.bus, .sup] s t)) ∧
  (∀ (m : Master) (a v : Word) (s : State), s.reaches m true a.toNat = true → 1 ≤ m.val ∧ m.val ≤ 4 → addrTarget a.toNat = some 1 →
    a.toNat % 4 = 0 → spFind s.sup.resv (m.val - 1) = some a.toNat → gives (.supSramAccess m .sc a 4 v) s (fun t => t.bus = [⟨m, 0,
    false⟩] ∧ t.memRead a.toNat 4 = v.toNat ∧ onlyBytes a.toNat 4 s t ∧ spFind t.sup.resv (m.val - 1) = none)) ∧
  (∀ (m : Master) (a v : Word) (s : State), s.reaches m true a.toNat = true → 1 ≤ m.val ∧ m.val ≤ 4 → addrTarget a.toNat = some 1 →
    a.toNat % 4 = 0 → spFind s.sup.resv (m.val - 1) ≠ some a.toNat → gives (.supSramAccess m .sc a 4 v) s (fun t => t.bus = [⟨m, 1,
    false⟩] ∧ spFind t.sup.resv (m.val - 1) = none ∧ onlyChanges [] [.bus, .sup] s t)) ∧
  (∀ (m : Master) (op : SramOp) (a v : Word) (s : State), s.reaches m true a.toNat = true → op ∉ [.load, .store, .lr, .sc] → addrTarget
    a.toNat = some 1 → a.toNat % 4 = 0 → s.upsetOf 0 ((a.toNat - 0x10000000) / 4) = 0 → gives (.supSramAccess m op a 4 v) s (fun t =>
    t.bus = [⟨m, s.memRead a.toNat 4, false⟩] ∧ t.memRead a.toNat 4 = amoValue op (s.memRead a.toNat 4) v.toNat ∧ onlyBytes a.toNat 4 s
    t ∧ onlyChanges [] [.bus, .mem, .upset, .sup] s t))

/-- PCIE_REQUEST writes a register through BAR0 and a word of SUP SRAM through BAR2, reads a register, and a request beyond the rules
is aborted and reported; in D3hot a memory request is unsupported; the power state and the error status are written and read;
PCIE_LINK_UP, HOST_MSI_ENABLE and PCIE_LINK_LOSS bring the link up, enable MSI and reset only the endpoint. Readings of the model this
rests on: log 14, 89. -/
def Obligations.HostLink : Prop :=
  (∀ (c : Fin 4) (data : List Byte) (s : State), s.flag Reg.NET_PCIE_LINKUP = true → s.net.d3 = false → s.reaches 0 true (0x40000210 + 4 *
    c.val) = true → data.length = 4 → gives (.pcieRequest .bar0 true (0x210 + 4 * c.val) 4 data) s (fun t => t.rd
    (Reg.SUP_BOOTADDR_ADDR c) = leNat (data.map BitVec.toNat) / 4 * 4 ∧ onlyChanges [Reg.SUP_BOOTADDR_ADDR c] [.bus] s t)) ∧
  (∀ (w : Fin 0x100000) (data : List Byte) (s : State), s.flag Reg.NET_PCIE_LINKUP = true → s.net.d3 = false → s.reaches 0 true
    (0x10000000 + 4 * w.val) = true → data.length = 4 → gives (.pcieRequest .bar2 true (4 * w.val) 4 data) s (fun t => t.memRead
    (0x10000000 + 4 * w.val) 4 = leNat (data.map BitVec.toNat) ∧ onlyBytes (0x10000000 + 4 * w.val) 4 s t)) ∧
  (∀ (dst : PcieTo) (write : Bool) (ofs len : Nat) (data : List Byte) (s : State), s.flag Reg.NET_PCIE_LINKUP = true → dst = .bar0 ∨ dst =
    .bar2 → s.net.d3 = false → len = 0 ∨ 256 < len ∨ (dst = .bar0 ∧ 4 < len) → gives (.pcieRequest dst write ofs len data) s (fun t =>
    t.bus = [⟨0, 0, true⟩] ∧ t.net = { s.net with aer := putBit s.net.aer 15 true } ∧ onlyChanges [Reg.INT_PERRCNT_COUNT,
    Reg.INT_PERR_VALID, Reg.INT_PERR_KIND, Reg.INT_PERR_MASTER, Reg.INT_PERRADDR_ADDR] [.bus, .net] s t)) ∧
  (∀ (dst : PcieTo) (write : Bool) (ofs len : Nat) (data : List Byte) (s : State), s.flag Reg.NET_PCIE_LINKUP = true → dst = .bar0 ∨ dst =
    .bar2 → s.net.d3 = true → gives (.pcieRequest dst write ofs len data) s (fun t => t.bus = [⟨0, 0, true⟩] ∧ t.net =
    { s.net with aer := putBit s.net.aer 20 true } ∧ onlyChanges [] [.bus, .net] s t)) ∧
  (∀ (ofs : Fin 0x1000000) (s : State), s.flag Reg.NET_PCIE_LINKUP = true → s.net.d3 = false → s.reaches 0 false (0x40000000 + ofs.val) =
    true → plainReg (0x40000000 + ofs.val) = true → gives (.pcieRequest .bar0 false ofs 4 []) s (fun t => t.bus = [⟨0, s.viewWord
    (0x40000000 + ofs.val), false⟩] ∧ onlyChanges [] [.bus] s t)) ∧
  (∀ (d3 : Bool) (ofs len : Nat) (data : List Byte) (s : State), s.flag Reg.NET_PCIE_LINKUP = true → leNat (data.map BitVec.toNat) % 4 =
    (if d3 = true then 3 else 0) → gives (.pcieRequest .power true ofs len data) s (fun t => t.net = { s.net with d3 := d3 } ∧ t.bus =
    [⟨0, 0, false⟩] ∧ onlyChanges [] [.bus, .net] s t)) ∧
  (∀ (ofs len : Nat) (data : List Byte) (s : State), s.flag Reg.NET_PCIE_LINKUP = true → gives (.pcieRequest .power false ofs len data) s
    (fun t => t.bus = [⟨0, if s.net.d3 = true then 3 else 0, false⟩] ∧ onlyChanges [] [.bus] s t)) ∧
  (∀ (ofs len : Nat) (data : List Byte) (s : State), s.flag Reg.NET_PCIE_LINKUP = true → gives (.pcieRequest .aer false ofs len data) s
    (fun t => t.bus = [⟨0, s.net.aer, false⟩] ∧ onlyChanges [] [.bus] s t)) ∧
  (∀ (ofs len : Nat) (data : List Byte) (s : State), s.flag Reg.NET_PCIE_LINKUP = true → s.net.aer < 2 ^ 32 → gives (.pcieRequest .aer
    true ofs len data) s (fun t => (∀ k : Fin 32, bitAt t.net.aer k = (bitAt s.net.aer k && !bitAt (leNat (data.map BitVec.toNat)) k))
    ∧ onlyChanges [] [.bus, .net] s t)) ∧
  (∀ (speed : Fin 3) (width : Fin 2) (s : State), s.regionOn .net = true → gives (.pcieLinkUp speed width) s (fun t => t.flag
    Reg.NET_PCIE_LINKUP = true ∧ t.rd Reg.NET_PCIE_SPEED = speed.val + 1 ∧ t.rd Reg.NET_PCIE_WIDTH = width.val + 1 ∧ onlyChanges
    [Reg.NET_PCIE_LINKUP, Reg.NET_PCIE_SPEED, Reg.NET_PCIE_WIDTH] [] s t)) ∧
  (∀ (granted : Fin 4) (s : State), s.flag Reg.NET_PCIE_LINKUP = true → gives (.hostMsiEnable granted) s (fun t => t.sup.msiOn = true ∧
    t.rd Reg.NET_PCIE_MSIV = granted.val ∧ onlyChanges [Reg.NET_PCIE_MSIV] [.sup] s t)) ∧
  (∀ (s : State), gives (.pcieLinkLoss) s (fun t => t.flag Reg.NET_PCIE_LINKUP = false ∧ t.flag Reg.NET_ALRM_PCIEDOWN = true ∧ t.sup.msiOn
    = false ∧ t.inta = (t.targetPend 4 != 0) ∧ (∀ n : Fin 64, t.semOwner n ≠ 0))) ∧
  (∀ (m : Master) (v : Byte) (s : State), s.reaches m true 0x40030304 = true → s.sup.msiOn = false ∨ s.net.d3 = true → gives (.intHack m
    v) s (fun t => (∀ k : Fin 8, bitAt v.toNat k = true → spFind t.sup.msiOff k = none) ∧ onlyChanges [] [.bus] s t)) ∧
  (∀ (m : Master) (v : Byte) (s : State), s.reaches m true 0x40030304 = true → s.sup.msiOn = true → s.net.d3 = false → gives (.intHack m
    v) s (fun t => t.sent = (((List.range 8).filter (fun k => (bitAt v.toNat k || (spFind s.sup.msiOff k).isNone) && s.vectorPend
    k)).reverse.map Sent.msi) ++ s.sent ∧ (∀ k : Fin 8, (spFind t.sup.msiOff k).isSome = (s.vectorPend k || (!bitAt v.toNat k &&
    (spFind s.sup.msiOff k).isSome))) ∧ onlyChanges [] [.bus] s t))

/-- CORE_RUN starts a core in reset at its boot address (halted at once while the device or External Debug halts it), CORE_RESET
restarts it with its reservation lost, a write that sets EN starts the count of a watchdog and WDT_KICK restarts it, WDT_TIMEOUT resets
the core and sets WDT, MTIME_COMPARE_MATCH lets time pass to the comparison and wakes a waiting core; DEVICE_HALT and DEVICE_HALT_END
halt and resume the cores. Readings of the model this rests on: log 5, 38, 92. -/
def Obligations.CoresAndTimers : Prop :=
  (∀ (m : Master) (c : Fin 4) (s : State), s.reaches m true 0x40000200 = true → s.rd (coreState c) = 0 → gives (.coreRun m c) s (fun t =>
    t.rd (coreState c) = (if s.flag Reg.SUP_DBG_HALTED = true ∨ (spFind s.sup.dbgHalt c).isSome = true then 2 else 1) ∧ t.rdBit
    Reg.SUP_CORECTRL_RUN c = true ∧ spGet t.sup.coreStart c 0 = s.rd (Reg.SUP_BOOTADDR_ADDR c) ∧ onlyChanges [Reg.SUP_CORECTRL_RUN,
    coreState c] [.bus, .sup] s t)) ∧
  (∀ (m : Master) (c : Fin 4) (s : State), s.reaches m true 0x40000200 = true → s.rdBit Reg.SUP_CORECTRL_RUN c = true → gives (.coreReset
    m c) s (fun t => t.rd (coreState c) = (if s.flag Reg.SUP_DBG_HALTED = true ∨ (spFind s.sup.dbgHalt c).isSome = true then 2 else 1)
    ∧ spFind t.sup.resv c = none ∧ spGet t.sup.coreStart c 0 = s.rd (Reg.SUP_BOOTADDR_ADDR c) ∧ (∀ n : Fin 64, t.semOwner n ≠ c.val +
    1))) ∧
  (∀ (m : Master) (c : Fin 4) (s : State), s.reaches m true (0x40000230 + 4 * c.val) = true → s.flag (Reg.SUP_WDT_EN c) = true → gives
    (.wdtKick m c 0xA5) s (fun t => spFind t.clk.timers (tmWdt c) = some s.clk.ticks ∧ onlyChanges [] [.bus, .clk] s t)) ∧
  (∀ (c : Fin 4) (s : State), s.flag (Reg.SUP_WDT_EN c) = true → s.timerOn (tmWdt c) = true → gives (.wdtTimeout c) s (fun t => t.flag
    (coreWdt c) = true ∧ (s.rdBit Reg.SUP_CORECTRL_RUN c = true → t.rd (coreState c) = (if s.flag Reg.SUP_DBG_HALTED = true ∨ (spFind
    s.sup.dbgHalt c).isSome = true then 2 else 1)) ∧ (s.rdBit Reg.SUP_CORECTRL_RUN c = false → t.rd (coreState c) = 0) ∧ spFind
    t.clk.timers (tmWdt c) = some t.clk.ticks)) ∧
  (∀ (m : Master) (c : Fin 4) (v : Word) (s : State), s.reaches m true (0x40000220 + 4 * c.val) = true → s.flag (Reg.SUP_WDT_EN c) = false
    → bitAt v.toNat 31 = true → gives (.registerWrite m (BitVec.ofNat 32 (0x40000220 + 4 * c.val)) 4 v) s (fun t => t.flag
    (Reg.SUP_WDT_EN c) = true ∧ spFind t.clk.timers (tmWdt c) = some s.clk.ticks)) ∧
  (∀ (c : Fin 4) (s : State), s.rd (coreState c) = 3 → s.sup.mtime < 10 * 2 ^ 64 → gives (.mtimeCompareMatch c) s (fun t => t.mtip c =
    true ∧ t.rd (coreState c) = 1)) ∧
  (∀ (s : State), s.reaches 7 true dbgAddr = true → s.mode = mIdle ∨ s.mode = mPrecharge ∨ s.mode = mReady ∨ s.mode = mMaintenance →
    s.flag Reg.SUP_DBG_HALTED = false → gives (.deviceHalt 7) s (fun t => t.flag Reg.SUP_DBG_HALTED = true ∧ t.flag Reg.LBR_STAT_HALTED
    = true ∧ (∀ c : Fin 4, s.rd (coreState c) = 1 ∨ s.rd (coreState c) = 3 → t.rd (coreState c) = 2) ∧ t.brg.haltAt = some s.clk.ticks)) ∧
  (∀ (s : State), s.reaches 7 true dbgAddr = true → s.flag Reg.SUP_DBG_HALTED = true → gives (.deviceHaltEnd 7) s (fun t => t.flag
    Reg.SUP_DBG_HALTED = false ∧ t.flag Reg.SUP_DBG_HALTREQ = false ∧ (∀ c : Fin 4, s.rd (coreState c) = 2 → t.rd (coreState c) = if
    (spFind s.sup.dbgHalt c).isSome = true then 2 else 1)))

/-- The sender writes data words and posts with GO, the receiver acknowledges, a message expires, the sender clears its notice; every
effect stays in the channel. Readings of the model this rests on: log 12. -/
def Obligations.Mailboxes : Prop :=
  (∀ (m : Master) (c : Fin 32) (i : Fin 16) (v : Word) (s : State), s.reaches m true (0x40011040 + 0x100 * c.val + 4 * i.val) = true →
    s.flag (Reg.MBX_CCFG_EN c) = true → s.rd (Reg.MBX_CCFG_SND c) = m.val → s.flag (Reg.MBX_CSTAT_FULL c) = false → gives
    (.mbxDataWrite m c i v) s (fun t => t.rd (Reg.MBX_D_DATA c i) = v.toNat ∧ onlyChanges [Reg.MBX_D_DATA c i] [.bus] s t)) ∧
  (∀ (m : Master) (c : Fin 32) (s : State), s.reaches m true (0x40011004 + 0x100 * c.val) = true → s.flag (Reg.MBX_CCFG_EN c) = true →
    s.rd (Reg.MBX_CCFG_SND c) = m.val → s.flag (Reg.MBX_CSTAT_FULL c) = false → s.masterInReset (s.rd (Reg.MBX_CCFG_RCV c)) = false →
    gives (.mbxGo m c) s (fun t => t.flag (Reg.MBX_CSTAT_FULL c) = true ∧ t.rd (Reg.MBX_CSTAT_SEQ c) = (s.rd (Reg.MBX_CSTAT_SEQ c) + 1)
    % 65536 ∧ spFind t.clk.timers (tmMbx c) = some s.clk.ticks ∧ onlyChanges [Reg.MBX_CSTAT_FULL c, Reg.MBX_CSTAT_SEQ c] [.bus, .clk] s
    t)) ∧
  (∀ (m : Master) (c : Fin 32) (s : State), s.reaches m true (0x40011004 + 0x100 * c.val) = true → s.flag (Reg.MBX_CCFG_EN c) = true →
    s.rd (Reg.MBX_CCFG_RCV c) = m.val → s.flag (Reg.MBX_CSTAT_FULL c) = true → gives (.mbxAck m c) s (fun t => t.flag
    (Reg.MBX_CSTAT_FULL c) = false ∧ t.rd (Reg.MBX_CNOTE_KIND c) = noteAcked ∧ (s.rd (Reg.MBX_CNOTE_KIND c) ≠ 0 → t.flag
    (Reg.MBX_CNOTE_NOVR c) = true) ∧ t.timerOn (tmMbx c) = false ∧ onlyChanges [Reg.MBX_CSTAT_FULL c, Reg.MBX_CNOTE_KIND c,
    Reg.MBX_CNOTE_NOVR c] [.bus, .clk] s t)) ∧
  (∀ (c : Fin 32) (s : State), s.flag (Reg.MBX_CSTAT_FULL c) = true → gives (.mbxExpiry c) s (fun t => t.flag (Reg.MBX_CSTAT_FULL c) =
    false ∧ t.rd (Reg.MBX_CNOTE_KIND c) = noteExpired ∧ (∀ i : Fin 16, t.rd (Reg.MBX_D_DATA c i) = s.rd (Reg.MBX_D_DATA c i)))) ∧
  (∀ (m : Master) (c : Fin 32) (s : State), s.reaches m true (0x4001100C + 0x100 * c.val) = true → s.flag (Reg.MBX_CCFG_EN c) = true →
    s.rd (Reg.MBX_CCFG_SND c) = m.val → gives (.mbxNoteClr m c) s (fun t => t.rd (Reg.MBX_CNOTE_KIND c) = 0 ∧ t.flag
    (Reg.MBX_CNOTE_NOVR c) = false ∧ onlyChanges [Reg.MBX_CNOTE_KIND c, Reg.MBX_CNOTE_NOVR c] [.bus] s t))

/-- A read of a free semaphore takes it, the owner releases it, a forced release frees it; a ring pointer that a master may write is
stored. Readings of the model this rests on: log 5, 80. -/
def Obligations.SemaphoresAndRings : Prop :=
  (∀ (m : Master) (n : Fin 64) (s : State), s.reaches m false (0x40020100 + 4 * n.val) = true → s.semOwner n = 15 → gives (.semLockRead
    [m] n) s (fun t => t.semOwner n = m.val ∧ t.bus = [⟨m, 2 ^ 31 + m.val, false⟩] ∧ onlyChanges [] [.bus, .sup] s t)) ∧
  (∀ (m : Master) (n : Fin 64) (s : State), s.reaches m false (0x40020100 + 4 * n.val) = true → s.semOwner n ≠ 15 → s.semOwner n ≠ m.val →
    gives (.semLockRead [m] n) s (fun t => t.semOwner n = s.semOwner n ∧ t.bus = [⟨m, s.semOwner n, false⟩] ∧ onlyChanges [] [.bus,
    .sup] s t)) ∧
  (∀ (m : Master) (n : Fin 64) (s : State), s.reaches m true (0x40020100 + 4 * n.val) = true → s.semOwner n = m.val → gives (.semLockWrite
    m n) s (fun t => t.semOwner n = 15 ∧ onlyChanges [] [.bus, .sup] s t)) ∧
  (∀ (m : Master) (n : Fin 64) (s : State), s.reaches m true 0x4002000C = true → gives (.semForce m n) s (fun t => t.semOwner n = 15 ∧
    t.flag Reg.SEM_ALRM_FORCED = true ∧ onlyChanges [Reg.SEM_ALRM_FORCED] [.bus, .sup] s t)) ∧
  (∀ (m : Master) (n : Fin 64) (v : Word) (s : State), s.reaches m true (0x40050108 + 0x20 * n.val) = true → s.rd (Reg.RNG_CFG_PRODK n) =
    0 → v.toNat % 4 = 0 → (s.wr (Reg.RNG_WR_WR n) v.toNat).ringFill n ≤ s.ringSize n → gives (.ringWrWrite m n v) s (fun t => t.rd
    (Reg.RNG_WR_WR n) = v.toNat % 2 ^ (Reg.RNG_WR_WR n).wid ∧ onlyChanges [Reg.RNG_WR_WR n] [.bus] s t)) ∧
  (∀ (m : Master) (n : Fin 64) (v : Word) (s : State), s.reaches m true (0x4005010C + 0x20 * n.val) = true → s.rd (Reg.RNG_CFG_CONSK n) =
    0 → v.toNat % 4 = 0 → (s.wr (Reg.RNG_RD_RD n) v.toNat).ringFill n ≤ s.ringSize n → gives (.ringRdWrite m n v) s (fun t => t.rd
    (Reg.RNG_RD_RD n) = v.toNat % 2 ^ (Reg.RNG_RD_RD n).wid ∧ onlyChanges [Reg.RNG_RD_RD n] [.bus] s t))

/-- A channel with a right configuration that runs no burst waits after START with COUNT bytes left, one with a wrong one goes to ERROR
with its cause, and a START within a burst waits for its end (the model's choice, log 36); STOP between bursts leaves it
STOPPED_PENDING, RESUME lets it wait again, KICK gives a SOFT channel its event, and a grant of a ready channel starts its burst.
Readings of the model this rests on: log 36, 81. -/
def Obligations.DmaChannels : Prop :=
  (∀ (m : Master) (c : Fin 32) (s : State), s.reaches m true (dmaCmdAddr c) = true → s.dmaState c ≠ dsBurst → s.dmaRefusal c = 0 → gives
    (.dmaStart m c) s (fun t => t.dmaState c = dsWait ∧ t.rd (Reg.DMA_LEFT_LEFT c) = s.rd (Reg.DMA_COUNT_COUNT c) ∧ spGet t.sup.dmaSrc
    c 0 = s.rd (Reg.DMA_SRC_SRC c) ∧ spGet t.sup.dmaDst c 0 = s.rd (Reg.DMA_DST_DST c) ∧ t.rd Reg.DMA_STAT_REMAIN = min t.dmaLeft
    0xFFFF ∧ onlyChanges [Reg.DMA_CSTAT_STATE c, Reg.DMA_CSTAT_ERR c, Reg.DMA_LEFT_LEFT c, Reg.DMA_STAT_REMAIN] [.bus, .sup] s t)) ∧
  (∀ (m : Master) (c : Fin 32) (s : State), s.reaches m true (dmaCmdAddr c) = true → s.dmaState c ≠ dsBurst → s.dmaRefusal c ≠ 0 → gives
    (.dmaStart m c) s (fun t => t.dmaState c = dsError ∧ t.rd (Reg.DMA_CSTAT_ERR c) = s.dmaRefusal c ∧ t.rdBit Reg.DMA_ERRCH_ERR c =
    true ∧ (s.dmaRefusal c = deMisalign → s.flag Reg.INT_PERR_VALID = false → t.rd Reg.INT_PERR_KIND = peMisalign) ∧ onlyChanges
    [Reg.DMA_CSTAT_STATE c, Reg.DMA_CSTAT_ERR c, Reg.DMA_ERRCH_ERR, Reg.DMA_STAT_REMAIN, Reg.INT_PERRCNT_COUNT, Reg.INT_PERR_VALID,
    Reg.INT_PERR_KIND, Reg.INT_PERR_MASTER, Reg.INT_PERRADDR_ADDR] [.bus] s t)) ∧
  (∀ (m : Master) (c : Fin 32) (s : State), s.reaches m true (dmaCmdAddr c) = true → s.dmaState c = dsBurst → gives (.dmaStart m c) s (fun
    t => spFind t.sup.dmaStop c = some (4 * m.val + 2) ∧ onlyChanges [] [.bus, .sup] s t)) ∧
  (∀ (m : Master) (c : Fin 32) (s : State), s.reaches m true (dmaCmdAddr c) = true → s.dmaState c = dsWait → gives (.dmaStop m c) s (fun t
    => t.dmaState c = dsStopped ∧ t.rd Reg.DMA_STAT_REMAIN = min t.dmaLeft 0xFFFF ∧ onlyChanges [Reg.DMA_CSTAT_STATE c,
    Reg.DMA_STAT_REMAIN] [.bus, .sup] s t)) ∧
  (∀ (m : Master) (c : Fin 32) (s : State), s.reaches m true (dmaCmdAddr c) = true → s.rd (Reg.DMA_CFG_REQ c) = 1 → s.dmaState c = dsWait
    → spGet s.sup.dmaEvt c 0 ≠ 1 → gives (.dmaKick m c) s (fun t => spGet t.sup.dmaEvt c 0 = 1 ∧ onlyChanges [] [.bus, .sup] s t)) ∧
  (∀ (m : Master) (c : Fin 32) (s : State), s.reaches m true (dmaCmdAddr c) = true → s.dmaState c = dsStopped → s.works .dma = true →
    gives (.dmaResume m c) s (fun t => t.dmaState c = dsWait ∧ t.rd Reg.DMA_STAT_REMAIN = min t.dmaLeft 0xFFFF ∧ onlyChanges
    [Reg.DMA_CSTAT_STATE c, Reg.DMA_STAT_REMAIN] [.bus] s t)) ∧
  (∀ (c : Fin 32) (s : State), s.works .dma = true → s.sup.dmaCur = none → s.flag Reg.SUP_DBG_HALTED = false → s.dmaPick = some c.val →
    gives (.dmaBurstStart) s (fun t => t.sup.dmaCur = some c.val ∧ t.dmaState c = dsBurst ∧ onlyChanges [Reg.DMA_CSTAT_STATE c] [.sup]
    s t))

/-- DMA_BURST_END of a one-word burst inside SUP SRAM leaves the word, through its swap, at the destination, takes 4 from LEFT,
advances the addresses that increment and ends the burst: the channel is DONE when nothing is left, else it waits; every other byte
keeps its value. Readings of the model this rests on: log 36. -/
def Obligations.DmaBurst : Prop :=
  ∀ (c : Fin 32) (s : State), s.sup.dmaCur = some c.val → s.rd (blockEn .dma) = 1 → s.rd (Reg.DMA_CFG_BURST c) = 0 → 4 ≤ s.rd
    (Reg.DMA_LEFT_LEFT c) → s.flag (Reg.DMA_CFG_RINGDST c) = false → spFind s.sup.dmaStop c = none → s.reaches 5 false (spGet
    s.sup.dmaSrc c 0) = true → s.reaches 5 true (spGet s.sup.dmaDst c 0) = true → addrTarget (spGet s.sup.dmaSrc c 0) = some 1 →
    addrTarget (spGet s.sup.dmaDst c 0) = some 1 → spGet s.sup.dmaSrc c 0 % 4 = 0 → spGet s.sup.dmaDst c 0 % 4 = 0 → s.upsetOf 0
    ((spGet s.sup.dmaSrc c 0 - 0x10000000) / 4) = 0 → gives (.dmaBurstEnd) s (fun t => t.memRead (spGet s.sup.dmaDst c 0) 4 = dmaSwap
    (s.rd (Reg.DMA_CFG_SWAP c)) (s.memRead (spGet s.sup.dmaSrc c 0) 4) ∧ onlyBytes (spGet s.sup.dmaDst c 0) 4 s t ∧ t.rd
    (Reg.DMA_LEFT_LEFT c) = s.rd (Reg.DMA_LEFT_LEFT c) - 4 ∧ t.dmaState c = (if s.rd (Reg.DMA_LEFT_LEFT c) = 4 then dsDone else dsWait)
    ∧ spGet t.sup.dmaSrc c 0 = (if s.flag (Reg.DMA_CFG_SINC c) then (spGet s.sup.dmaSrc c 0 + 4) % 2 ^ 32 else spGet s.sup.dmaSrc c 0)
    ∧ t.sup.dmaCur = none ∧ t.sup.dmaNext = (c.val + 1) % 32)

/-- PTP_INCF_WRITE commits an increment inside the range of the mode, PTP_TIME_WRITE in IDLE moves device time with every enabled
trigger, DEVICE_TIME_WRAP lets time pass to the wrap, SECOND_BOUNDARY advances SECBASE by a second and raises PPS_OUT, PPS_PULSE_END
lowers it, and an accepted PPS_IN_EDGE is stamped. Readings of the model this rests on: log 5. -/
def Obligations.DeviceTime : Prop :=
  (∀ (m : Master) (v : Word) (s : State), s.reaches m true 0x41010018 = true → (incRange s.mode).1 ≤ s.rd Reg.PTP_INC_INC * 2 ^ 32 +
    v.toNat → s.rd Reg.PTP_INC_INC * 2 ^ 32 + v.toNat ≤ (incRange s.mode).2 → gives (.ptpIncfWrite m v) s (fun t => t.clk.inc = s.rd
    Reg.PTP_INC_INC * 2 ^ 32 + v.toNat ∧ t.rd Reg.PTP_INCF_INCF = v.toNat ∧ t.clk.time = s.clk.time ∧ onlyChanges [Reg.PTP_INCF_INCF]
    [.bus, .clk] s t)) ∧
  (∀ (m : Master) (v : Word) (s : State), s.reaches m true 0x41010018 = true → (incRange s.mode).2 < s.rd Reg.PTP_INC_INC * 2 ^ 32 +
    v.toNat → gives (.ptpIncfWrite m v) s (fun t => t.clk.inc = (incRange s.mode).2 ∧ t.flag Reg.PTP_ALRM_INCCLAMP = true ∧ onlyChanges
    [Reg.PTP_INCF_INCF, Reg.PTP_ALRM_INCCLAMP] [.bus, .clk] s t)) ∧
  (∀ (m : Master) (v : Word) (s : State), s.reaches m true 0x41010010 = true → s.mode = mIdle → s.clk.time < 2 ^ 64 → gives (.ptpTimeWrite
    m v) s (fun t => t.now = v.toNat ∧ (∀ k : Fin 16, s.flag (Reg.PTP_TRGCFG_EN k) = true → diff32 (t.rd (Reg.PTP_TRGNEXT_NEXT k))
    t.now = diff32 (s.rd (Reg.PTP_TRGNEXT_NEXT k)) s.now))) ∧
  (∀ (s : State), s.regionOn .net = true → 0 < s.clk.inc → s.clk.time < 2 ^ 64 → s.clk.inc < 2 ^ 64 → gives (.deviceTimeWrap) s (fun t =>
    t.clk.time < s.clk.inc ∧ t.flag Reg.PTP_ALRM_WRAP = true)) ∧
  (∀ (s : State), s.regionOn .net = true → gives (.secondBoundary) s (fun t => t.rd Reg.PTP_SECBASE_SECBASE = (s.rd
    Reg.PTP_SECBASE_SECBASE + 1000000000) % 2 ^ 32 ∧ t.net.secLast = some (s.rd Reg.PTP_SECBASE_SECBASE) ∧ (s.flag Reg.PTP_CTRL_PPSOEN
    = true → t.net.ppsOut = true))) ∧
  (∀ (s : State), s.net.ppsOut = true → gives (.ppsPulseEnd) s (fun t => t.net.ppsOut = false ∧ t.timerOn tmPps = false)) ∧
  (∀ (rising : Bool) (s : State), s.regionOn .net = true → s.flag Reg.PTP_CTRL_PPSIEN = true → rising = !s.flag Reg.PTP_CTRL_PPSIPOL →
    s.timerOn tmPpsIn = false → gives (.ppsInEdge rising) s (fun t => t.rd Reg.PTP_PPSIN_TIME = (s.now + 2 ^ 32 - 100) % 2 ^ 32 ∧
    t.flag Reg.PTP_ALRM_PPSIN = true ∧ t.timerOn tmPpsIn = true ∧ onlyChanges [Reg.PTP_PPSIN_TIME, Reg.PTP_ALRM_PPSIN] [.clk] s t))

/-- TIME_TRIGGER_FIRE of an enabled trigger counts its firing; with a period that it meets in time NEXT moves on by exactly one period,
with the period 0 the trigger is disabled. Readings of the model this rests on: log 66. -/
def Obligations.TriggerFires : Prop :=
  (∀ (k : Fin 16) (s : State), k.val ≠ 0 → s.regionOn .net = true → s.flag (Reg.PTP_TRGCFG_EN k) = true → s.rd (Reg.PTP_TRGCFG_PERIOD k) =
    0 → gives (.timeTriggerFire k) s (fun t => t.flag (Reg.PTP_TRGCFG_EN k) = false ∧ t.rd (Reg.PTP_TRGSTAT_FIRED k) = (s.rd
    (Reg.PTP_TRGSTAT_FIRED k) + 1) % 2 ^ (Reg.PTP_TRGSTAT_FIRED k).wid ∧ t.rd (Reg.PTP_TRGNEXT_NEXT k) = s.rd (Reg.PTP_TRGNEXT_NEXT k))) ∧
  (∀ (k : Fin 16) (s : State), k.val ≠ 0 → s.regionOn .net = true → s.flag (Reg.PTP_TRGCFG_EN k) = true → s.rd (Reg.PTP_TRGCFG_PERIOD k) ≠
    0 → 0 < s.clk.inc → s.clk.time < 2 ^ 64 → s.clk.inc < 2 ^ 36 → 0 ≤ diff32 (s.rd (Reg.PTP_TRGNEXT_NEXT k)) s.now → diff32 (s.rd
    (Reg.PTP_TRGNEXT_NEXT k)) s.now < 2 ^ 31 - 2 ^ 29 → 16 < s.rd (Reg.PTP_TRGCFG_PERIOD k) → gives (.timeTriggerFire k) s (fun t =>
    t.flag (Reg.PTP_TRGCFG_EN k) = true ∧ t.rd (Reg.PTP_TRGSTAT_FIRED k) = (s.rd (Reg.PTP_TRGSTAT_FIRED k) + 1) % 2 ^
    (Reg.PTP_TRGSTAT_FIRED k).wid ∧ t.rd (Reg.PTP_TRGNEXT_NEXT k) = (s.rd (Reg.PTP_TRGNEXT_NEXT k) + 4 * s.rd (Reg.PTP_TRGCFG_PERIOD
    k)) % 2 ^ 32))

/-- An accepted frame that no other unit takes enters the receive ring as a record of a head (length, port, flags, stamp to 2 ns,
receive count) and its bytes, padded with zeros, and one in whose buffer the MAC finds an uncorrectable word is discarded and counted
in RXDROP; a valid transmit record is taken from the ring and sent; a launch record is held and sent when its time is reached; a record
with an uncorrectable word is discarded with TXERR; a sent frame leaves the device, counted, and stamped where it asks, to 2 ns of its
passage, and one launched on time within 8 ns after its LTIME; a change of the link sets LINKCHG; a read of the stamp queue takes its
oldest entry. Readings of the model this rests on: log 55, 56, 88, 90, 93, 95. -/
def Obligations.EthernetPorts : Prop :=
  (∀ (p : Fin 8) (f : List Byte) (hb : Heartbeat) (s : State), s.portReceives p = true → 60 ≤ f.length ∧ f.length ≤ 1518 → s.acceptsMac p
    (macAt (f.map BitVec.toNat) 0) = true → etherType (f.map BitVec.toNat) ∉ [0x8808, 0x88B6, 0x88B5, 0x88BA] → s.regionOn .sup = true
    → s.rd (Reg.RNG_WR_WR (s.rd (Reg.NET_PCFG_RXRING p))) % 4 = 0 → s.unstruck 9 (fun w => decide (w / 512 = p.val)) = true →
    s.ringFill (s.rd (Reg.NET_PCFG_RXRING p)) + 16 + (f.length + 3) / 4 * 4 ≤ s.ringSize (s.rd (Reg.NET_PCFG_RXRING p)) → gives
    (.ethFrameReceived p f true hb none) s (fun t => t.rd (Reg.NET_RXCNT_RXOK p) = min (s.rd (Reg.NET_RXCNT_RXOK p) + 1) (2 ^
    (Reg.NET_RXCNT_RXOK p).wid - 1) ∧ t.rd (Reg.RNG_WR_WR (s.rd (Reg.NET_PCFG_RXRING p))) = (s.rd (Reg.RNG_WR_WR (s.rd
    (Reg.NET_PCFG_RXRING p))) + 16 + (f.length + 3) / 4 * 4) % (2 * s.ringSize (s.rd (Reg.NET_PCFG_RXRING p))) ∧ t.memRead (s.ringAddr
    (s.rd (Reg.NET_PCFG_RXRING p)) (s.rd (Reg.RNG_WR_WR (s.rd (Reg.NET_PCFG_RXRING p))) + 0)) 4 = f.length + p.val * 2 ^ 16 + ((if
    etherType (f.map BitVec.toNat) = 0x88F7 then 1 else 0) + (if vlanTagged (f.map BitVec.toNat) then 2 else 0) + (if macAt (f.map
    BitVec.toNat) 0 = 2 ^ 48 - 1 then 8 else if (f.getD 0 0).toNat % 2 = 1 then 4 else 0)) * 2 ^ 24 ∧ (∃ e : Fin 5, t.memRead
    (s.ringAddr (s.rd (Reg.NET_PCFG_RXRING p)) (s.rd (Reg.RNG_WR_WR (s.rd (Reg.NET_PCFG_RXRING p))) + 4)) 4 = (s.now + 2 ^ 33 + e.val -
    2 - s.rd (Reg.NET_LAT_RXLAT p)) % 2 ^ 32) ∧ t.memRead (s.ringAddr (s.rd (Reg.NET_PCFG_RXRING p)) (s.rd (Reg.RNG_WR_WR (s.rd
    (Reg.NET_PCFG_RXRING p))) + 8)) 4 = (spGet s.net.rseq p 0 + 1) % 2 ^ 32 ∧ t.memRead (s.ringAddr (s.rd (Reg.NET_PCFG_RXRING p))
    (s.rd (Reg.RNG_WR_WR (s.rd (Reg.NET_PCFG_RXRING p))) + 12)) 4 = 0 ∧ (∀ i : Fin f.length, t.memByte (s.ringAddr (s.rd
    (Reg.NET_PCFG_RXRING p)) (s.rd (Reg.RNG_WR_WR (s.rd (Reg.NET_PCFG_RXRING p))) + 16 + i.val)) = f.get i) ∧ (∀ i : Fin 4, f.length +
    i.val < (f.length + 3) / 4 * 4 → t.memByte (s.ringAddr (s.rd (Reg.NET_PCFG_RXRING p)) (s.rd (Reg.RNG_WR_WR (s.rd
    (Reg.NET_PCFG_RXRING p))) + 16 + f.length + i.val)) = 0) ∧ onlyRing (s.rd (Reg.NET_PCFG_RXRING p)) (16 + (f.length + 3) / 4 * 4) s
    t ∧ onlyChanges [Reg.NET_RXCNT_RXOK p, Reg.RNG_WR_WR (s.rd (Reg.NET_PCFG_RXRING p))] [.free, .net, .mem, .upset, .sup] s t)) ∧
  (∀ (p : Fin 8) (f : List Byte) (hb : Heartbeat) (s : State), s.portReceives p = true → 60 ≤ f.length ∧ f.length ≤ 1518 → s.acceptsMac p
    (macAt (f.map BitVec.toNat) 0) = true → etherType (f.map BitVec.toNat) ≠ 0x8808 → s.unreadable 9 (fun w => decide (w / 512 =
    p.val)) = true → gives (.ethFrameReceived p f true hb none) s (fun t => t.rd (Reg.NET_RXCNT_RXOK p) = min (s.rd (Reg.NET_RXCNT_RXOK
    p) + 1) (2 ^ (Reg.NET_RXCNT_RXOK p).wid - 1) ∧ t.rd (Reg.NET_RXCNT_RXDROP p) = min (s.rd (Reg.NET_RXCNT_RXDROP p) + 1) (2 ^
    (Reg.NET_RXCNT_RXDROP p).wid - 1) ∧ t.rd (Reg.RNG_WR_WR (s.rd (Reg.NET_PCFG_RXRING p))) = s.rd (Reg.RNG_WR_WR (s.rd
    (Reg.NET_PCFG_RXRING p))) ∧ t.flag Reg.INT_ERR_VALID = true ∧ Part.mem.same s t)) ∧
  (∀ (p : Fin 8) (f : List Byte) (hb : Heartbeat) (s : State), s.portReceives p = true → 60 ≤ f.length ∧ f.length ≤ 1518 → gives
    (.ethFrameReceived p f false hb none) s (fun t => t.rd (Reg.NET_ERRCNT_FCSERR p) = min (s.rd (Reg.NET_ERRCNT_FCSERR p) + 1) (2 ^
    (Reg.NET_ERRCNT_FCSERR p).wid - 1) ∧ onlyChanges [Reg.NET_ERRCNT_FCSERR p] [] s t)) ∧
  (∀ (p : Fin 8) (len : Fin 1519) (s : State), s.portSends p = true → spFind s.net.txCur p = none → spFind s.net.launch p = none → 14 ≤
    len.val → bytesWord (s.ringBytes (s.rd (Reg.NET_PCFG_TXRING p)) 0 16) 0 % 65536 = len.val → (s.ringBytes (s.rd (Reg.NET_PCFG_TXRING
    p)) 0 16).getD 2 0 ∈ [0, 1, 4, 5] → bytesWord (s.ringBytes (s.rd (Reg.NET_PCFG_TXRING p)) 0 16) 4 / 65536 = 0 → 16 ≤ s.ringFill
    (s.rd (Reg.NET_PCFG_TXRING p)) → recordBytes len.val ≤ s.ringFill (s.rd (Reg.NET_PCFG_TXRING p)) → (∀ a ∈ s.txWords p, s.upsetOf 0
    ((a - arrayBase 0) / 4) = 0) → s.unstruck 9 (fun w => decide (w / 512 = 8 + p.val)) = true → gives (.ethTxRecord p) s (fun t =>
    (spFind t.net.txCur p).map (·.bytes) = some (s.ringBytes (s.rd (Reg.NET_PCFG_TXRING p)) 16 len) ∧ t.rd (Reg.RNG_RD_RD (s.rd
    (Reg.NET_PCFG_TXRING p))) = (s.rd (Reg.RNG_RD_RD (s.rd (Reg.NET_PCFG_TXRING p))) + recordBytes len) % (2 * s.ringSize (s.rd
    (Reg.NET_PCFG_TXRING p))) ∧ onlyChanges [Reg.RNG_RD_RD (s.rd (Reg.NET_PCFG_TXRING p))] [.net] s t)) ∧
  (∀ (p : Fin 8) (len : Fin 1519) (s : State), s.portSends p = true → spFind s.net.txCur p = none → spFind s.net.launch p = none → 14 ≤
    len.val → bytesWord (s.ringBytes (s.rd (Reg.NET_PCFG_TXRING p)) 0 16) 0 % 65536 = len.val → (s.ringBytes (s.rd (Reg.NET_PCFG_TXRING
    p)) 0 16).getD 2 0 = 2 → bytesWord (s.ringBytes (s.rd (Reg.NET_PCFG_TXRING p)) 0 16) 4 / 65536 = 0 → 16 ≤ s.ringFill (s.rd
    (Reg.NET_PCFG_TXRING p)) → recordBytes len.val ≤ s.ringFill (s.rd (Reg.NET_PCFG_TXRING p)) → diff32 s.now (bytesWord (s.ringBytes
    (s.rd (Reg.NET_PCFG_TXRING p)) 0 16) 8) ≤ 0 → gives (.ethTxRecord p) s (fun t => spFind t.net.launch p = some (bytesWord
    (s.ringBytes (s.rd (Reg.NET_PCFG_TXRING p)) 0 16) 8) ∧ onlyChanges [] [.net] s t)) ∧
  (∀ (p : Fin 8) (d : Word) (s : State), s.portSends p = true → spFind s.net.txCur p = none → spFind s.net.launch p = some d.toNat → (∀ a
    ∈ s.txWords p, s.upsetOf 0 ((a - arrayBase 0) / 4) = 0) → s.unstruck 9 (fun w => decide (w / 512 = 8 + p.val)) = true → gives
    (.launchTimeReached p) s (fun t => (spFind t.net.txCur p).map (·.launched) = some (if 0 < diff32 s.now d.toNat then none else some
    d.toNat) ∧ spFind t.net.launch p = none)) ∧
  (∀ (p : Fin 8) (len : Fin 1519) (s : State), s.portSends p = true → spFind s.net.txCur p = none → spFind s.net.launch p = none → 14 ≤
    len.val → bytesWord (s.ringBytes (s.rd (Reg.NET_PCFG_TXRING p)) 0 16) 0 % 65536 = len.val → (s.ringBytes (s.rd (Reg.NET_PCFG_TXRING
    p)) 0 16).getD 2 0 ∈ [0, 1, 4, 5] → bytesWord (s.ringBytes (s.rd (Reg.NET_PCFG_TXRING p)) 0 16) 4 / 65536 = 0 → 16 ≤ s.ringFill
    (s.rd (Reg.NET_PCFG_TXRING p)) → recordBytes len.val ≤ s.ringFill (s.rd (Reg.NET_PCFG_TXRING p)) → (s.txWords p).all
    (s.wordReadable 0) = false → gives (.ethTxRecord p) s (fun t => spFind t.net.txCur p = none ∧ t.flag Reg.NET_ALRM_TXERR = true ∧
    t.rd (Reg.RNG_RD_RD (s.rd (Reg.NET_PCFG_TXRING p))) = (s.rd (Reg.RNG_RD_RD (s.rd (Reg.NET_PCFG_TXRING p))) + recordBytes len) % (2
    * s.ringSize (s.rd (Reg.NET_PCFG_TXRING p))) ∧ t.flag Reg.INT_ERR_VALID = true)) ∧
  (∀ (p : Fin 8) (f : TxFrame) (s : State), spFind s.net.txCur p = some f → bitAt f.flags 2 = false → spFind s.net.launch p = none → gives
    (.ethFrameSent p) s (fun t => (t.sent.filter notMsi).head? = some (.eth p (padFrame f.bytes)) ∧ t.rd (Reg.NET_TXCNT_TXOK p) = min
    (s.rd (Reg.NET_TXCNT_TXOK p) + 1) (2 ^ (Reg.NET_TXCNT_TXOK p).wid - 1) ∧ spFind t.net.txCur p = none ∧ (∀ l ∈ f.launched, bitAt
    f.flags 0 = true → s.net.txq.length < 16 → ∃ e : Fin 9, t.net.txq = s.net.txq ++ [⟨f.tsid, p.val, (l + e.val) % 2 ^ 32⟩]) ∧
    (f.launched = none → bitAt f.flags 0 = true → s.net.txq.length < 16 → ∃ e : Fin 5, t.net.txq = s.net.txq ++ [⟨f.tsid, p.val, (s.now
    + s.rd (Reg.NET_LAT_TXLAT p) + 2 ^ 32 + e.val - 2) % 2 ^ 32⟩]))) ∧
  (∀ (p : Fin 8) (f : TxFrame) (d : Word) (s : State), spFind s.net.txCur p = some f → f.launched = none → bitAt f.flags 2 = false →
    spFind s.net.launch p = some d.toNat → s.portSends p = true → 0 ≤ diff32 s.now d.toNat → (∀ a ∈ s.txWords p, s.upsetOf 0 ((a -
    arrayBase 0) / 4) = 0) → s.unstruck 9 (fun w => decide (w / 512 = 8 + p.val)) = true → gives (.ethFrameSent p) s (fun t =>
    (t.sent.filter notMsi).head? = some (.eth p (padFrame f.bytes)) ∧ (spFind t.net.txCur p).map (·.launched) = some none ∧ spFind
    t.net.launch p = none)) ∧
  (∀ (p : Fin 8) (up : Bool) (s : State), s.regionOn .net = true → s.flag (Reg.NET_PSTAT_LINK p) ≠ up → gives (.ethLinkChange p up) s (fun
    t => t.flag (Reg.NET_PSTAT_LINK p) = up ∧ t.flag Reg.NET_ALRM_LINKCHG = true ∧ onlyChanges [Reg.NET_PSTAT_LINK p,
    Reg.NET_PSTAT_ANDONE p, Reg.NET_ALRM_LINKCHG] [] s t)) ∧
  (∀ (m : Master) (x : TxStamp) (l : List TxStamp) (s : State), s.reaches m false 0x41010030 = true → s.net.txq = x :: l → gives
    (.txqheadRead m) s (fun t => t.net.txq = l ∧ t.bus = [⟨m, 2 ^ 31 + s.rd Reg.PTP_TXQHEAD_LOSTCNT * 2 ^ 16 + x.tsid % 2 ^ 16, false⟩]
    ∧ t.rd Reg.PTP_TXQSTAMP_TIME = x.stamp % 2 ^ 32 ∧ onlyChanges [Reg.PTP_STAT_TXQN, Reg.PTP_TXQTIME_PORT, Reg.PTP_TXQSTAMP_TIME]
    [.bus, .net] s t))

/-- SEQ_GO of a SOFTWARE sequencer begins its delay, SEQ_DELAY_EXPIRY starts the sequence, ADC_ENTRY_RESULT delivers the converted
value of the entry with its residue to its channel. QUEUE_READ answers and removes the oldest entry, and 0xFFFF_FFFF on an empty queue;
an entry whose word has an uncorrectable error fences ACQ_ (the data answered is free); SV_STREAM_STALE clears VALID and sets STALE of
the bound channels. Readings of the model this rests on: log 5, 57, 58, 87, 90, 91, 95. -/
def Obligations.SequencersAndQueues : Prop :=
  (∀ (m : Master) (n : Fin 4) (s : State), s.reaches m true (0x42000100 + 0x10 * n.val) = true → s.works .acq = true → s.seqEnabled n =
    true → s.rd (Reg.ACQ_SEQCFG_SRC n) = 1 → s.flag Reg.ACQ_STAT_CALBUSY = false → s.flag (Reg.ACQ_SEQSTAT_BUSY n) = false → gives
    (.seqGo m n) s (fun t => t.flag (Reg.ACQ_SEQSTAT_BUSY n) = true ∧ spGet t.acq.seqPhase n 0 = 1 ∧ spFind t.clk.timers (tmSeq n) =
    some s.clk.ticks ∧ onlyChanges [Reg.ACQ_SEQSTAT_BUSY n] [.bus, .clk, .acq] s t)) ∧
  (∀ (n : Fin 4) (s : State), spGet s.acq.seqPhase n 0 = 1 → s.seqEntries n ≠ [] → gives (.seqDelayExpiry n) s (fun t => spGet
    t.acq.seqPhase n 0 = 2 ∧ spGet t.acq.seqLeft n [] = s.seqEntries n ∧ t.rd (Reg.ACQ_SEQSTAT_SEQ n) = (s.rd (Reg.ACQ_SEQSTAT_SEQ n) +
    1) % 2 ^ (Reg.ACQ_SEQSTAT_SEQ n).wid ∧ spGet t.acq.seqStart n 0 % 5 = 0)) ∧
  (∀ (n : Fin 4) (e : Fin 32) (raw : List Int) (s : State), s.seqTaken (s.rd (Reg.ACQ_SEQENT_ADC n e)) = some n.val → (spGet s.acq.seqLeft
    n []).find? (fun x => s.rd (Reg.ACQ_SEQENT_ADC n x) = (s.rd (Reg.ACQ_SEQENT_ADC n e))) = some e.val → (s.rd (Reg.ACQ_SEQENT_INPUT n
    e)) < 32 → gives (.adcEntryResult n e raw [] true) s (fun t => t.rd (Reg.ACQ_CHVAL_DATA (s.rd (Reg.ACQ_SEQENT_INPUT n e))) = word16
    (adcConvert (2 ^ min (s.rd (Reg.ACQ_SEQENT_AVG n e)) 4) raw (s.rd (Reg.ACQ_CAL_GAIN (s.physical (s.rd (Reg.ACQ_SEQENT_ADC n e)))))
    (s.rd (Reg.ACQ_CAL_OFFSET (s.physical (s.rd (Reg.ACQ_SEQENT_ADC n e)))))).1 ∧ t.rd (Reg.ACQ_CHVAL_RES (s.rd (Reg.ACQ_SEQENT_INPUT n
    e))) = residue (word16 (adcConvert (2 ^ min (s.rd (Reg.ACQ_SEQENT_AVG n e)) 4) raw (s.rd (Reg.ACQ_CAL_GAIN (s.physical (s.rd
    (Reg.ACQ_SEQENT_ADC n e))))) (s.rd (Reg.ACQ_CAL_OFFSET (s.physical (s.rd (Reg.ACQ_SEQENT_ADC n e)))))).1) % 2 ^ (Reg.ACQ_CHVAL_RES
    (s.rd (Reg.ACQ_SEQENT_INPUT n e))).wid ∧ t.flag (Reg.ACQ_CHVAL_VALID (s.rd (Reg.ACQ_SEQENT_INPUT n e))) = (!(s.rdBit
    Reg.ACQ_OPEN_OPEN (s.rd (Reg.ACQ_SEQENT_INPUT n e)) || s.rdBit Reg.ACQ_SHORT_SHORT (s.rd (Reg.ACQ_SEQENT_INPUT n e)))) ∧ t.flag
    (Reg.ACQ_CHVAL_SAT (s.rd (Reg.ACQ_SEQENT_INPUT n e))) = (adcConvert (2 ^ min (s.rd (Reg.ACQ_SEQENT_AVG n e)) 4) raw (s.rd
    (Reg.ACQ_CAL_GAIN (s.physical (s.rd (Reg.ACQ_SEQENT_ADC n e))))) (s.rd (Reg.ACQ_CAL_OFFSET (s.physical (s.rd (Reg.ACQ_SEQENT_ADC n
    e)))))).2 ∧ spGet t.acq.seqLeft n [] = (spGet s.acq.seqLeft n []).erase e.val)) ∧
  (∀ (m : Master) (q : Fin 4) (x : Nat) (l : List Nat) (s : State), s.reaches m false (0x42000208 + 0x10 * q.val) = true → s.queue q = x
    :: l → l.length < 1024 → s.unstruck 6 (fun w => decide (w = s.queueWord q 0)) = true → gives (.queueRead m q) s (fun t => t.bus =
    [⟨m, x, false⟩] ∧ t.queue q = l ∧ (∀ i : Fin 1024, t.queueWord q i = s.queueWord q (i + 1)) ∧ t.rd (Reg.ACQ_QSTAT_FILL q) =
    l.length ∧ onlyChanges [Reg.ACQ_QSTAT_FILL q] [.bus, .acq] s t)) ∧
  (∀ (m : Master) (q : Fin 4) (x : Nat) (l : List Nat) (s : State), s.reaches m false (0x42000208 + 0x10 * q.val) = true → s.queue q = x
    :: l → s.unreadable 6 (fun w => decide (w = s.queueWord q 0)) = true → gives (.queueRead m q) s (fun t => t.queue q = l ∧ t.fenced
    .acq = true ∧ t.flag Reg.INT_ERR_VALID = true ∧ t.rd (Reg.BST_ECC_UNCORR 6) = min (s.rd (Reg.BST_ECC_UNCORR 6) + 1) (2 ^
    (Reg.BST_ECC_UNCORR 6).wid - 1))) ∧
  (∀ (m : Master) (q : Fin 4) (s : State), s.reaches m false (0x42000208 + 0x10 * q.val) = true → s.queue q = [] → gives (.queueRead m q)
    s (fun t => t.bus = [⟨m, 0xFFFFFFFF, false⟩] ∧ onlyChanges [] [.bus] s t)) ∧
  (∀ (st : Fin 8) (s : State), s.flag (Reg.SVS_SCFG_EN st) = true → gives (.svStreamStale st) s (fun t => (∀ i : Fin 32, s.flag
    (Reg.SVS_BIND_EN i) = true → s.rd (Reg.SVS_BIND_STREAM i) = st → t.flag (Reg.ACQ_CHVAL_VALID (32 + i)) = false ∧ t.flag
    (Reg.ACQ_CHVAL_STALE (32 + i)) = true) ∧ (∀ i : Fin 32, s.rd (Reg.SVS_BIND_STREAM i) ≠ st → t.rd (Reg.ACQ_CHVAL_VALID (32 + i)) =
    s.rd (Reg.ACQ_CHVAL_VALID (32 + i)))))

/-- CAL_START with no sequence running begins the full calibration, CAL_COMPLETE gives every converter that passes its gain and offset
and leaves one that fails as it was, the second failure in a row retiring the spare and stopping the rotation; ROT_SLOT_START releases
the spare, ROT_CAL_COMPLETE gives it its factors, or counts a failure, and lets it sample along, ROT_HANDOVER_DECISION accepts the
hand-over or marks the suspect, and an accepted one takes the position with the next sequence that uses it, once no running sequence
still does; BURNOUT_TEST_START and BURNOUT_TEST_RESULT test one input: a difference of OPEN_THR or more from its latest value counts
towards OPEN and one of SHORT_THR or less towards SHORT, four in a row set the bit, and either bit clears VALID. Readings of the model
this rests on: log 18, 77, 91. -/
def Obligations.CalibrationAndTests : Prop :=
  (∀ (m : Master) (s : State), s.reaches m true 0x42000000 = true → s.idleOrMaint = true → s.flag Reg.ACQ_STAT_CALBUSY = false →
    s.acqQuiet = true → gives (.calStart m) s (fun t => t.flag Reg.ACQ_STAT_CALBUSY = true ∧ spFind t.clk.timers tmCal = some
    s.clk.ticks ∧ onlyChanges [Reg.ACQ_STAT_CALBUSY] [.bus, .clk, .acq] s t)) ∧
  (∀ (factors : List Word) (s : State), factors.length = 13 → s.flag Reg.ACQ_STAT_CALBUSY = true → s.timerOn tmCal = true → gives
    (.calComplete factors) s (fun t => t.flag Reg.ACQ_STAT_CALBUSY = false ∧ t.acq.prevIn = [] ∧ (∀ p : Fin 13, calPasses
    ((factors.getD p 0).toNat) = true → t.rd (Reg.ACQ_CAL_GAIN p) = (factors.getD p 0).toNat / 65536 ∧ t.rd (Reg.ACQ_CAL_OFFSET p) =
    (factors.getD p 0).toNat % 65536 ∧ spFind t.acq.calFails p = none) ∧ (∀ p : Fin 13, calPasses ((factors.getD p 0).toNat) = false →
    t.rd (Reg.ACQ_CAL_GAIN p) = s.rd (Reg.ACQ_CAL_GAIN p) ∧ t.rd (Reg.ACQ_CAL_OFFSET p) = s.rd (Reg.ACQ_CAL_OFFSET p) ∧ spGet
    t.acq.calFails p 0 = min (spGet s.acq.calFails p 0 + 1) 2 ∧ (1 ≤ spGet s.acq.calFails p 0 → s.rd Reg.ACQ_ROTSTAT_SPARE = p.val →
    t.rd Reg.ACQ_ROTSTAT_RETIRED = p.val ∧ t.flag Reg.ACQ_ROTSTAT_HALT = true)))) ∧
  (∀ (s : State), s.works .acq = true → s.flag Reg.ACQ_ROT_EN = true → s.flag Reg.ACQ_ROTSTAT_HALT = false → s.rd Reg.ACQ_ROTSTAT_RELEASED
    = 15 → s.acq.incoming = none → s.rdBit Reg.ACQ_ROTSTAT_SUSPECT (s.rd Reg.ACQ_ROTSTAT_SPARE) = false → gives (.rotSlotStart) s (fun
    t => t.rd Reg.ACQ_ROTSTAT_RELEASED = s.rd Reg.ACQ_ROTSTAT_SPARE ∧ spFind t.clk.timers tmRotCal = some t.clk.ticks ∧ spFind
    t.clk.timers tmRotSlot = some t.clk.ticks ∧ (∀ k ∈ spFind s.clk.timers tmRotSlot, k + ticksMs (10 * max 1 (s.rd Reg.ACQ_ROT_SLOT))
    ≤ t.clk.ticks) ∧ onlyChanges [Reg.ACQ_ROTSTAT_RELEASED, Reg.PTP_ALRM_WRAP, Reg.CST_TSHI_TSHI] [.clk, .sup] s t)) ∧
  (∀ (factors : Word) (s : State), s.rd Reg.ACQ_ROTSTAT_RELEASED < 13 → calPasses factors.toNat = true → gives (.rotCalComplete factors) s
    (fun t => t.acq.incoming = (if s.acq.rotLast then none else some (s.rd Reg.ACQ_ROTSTAT_RELEASED)) ∧ t.acq.overlap = 0 ∧ t.rd
    Reg.ACQ_ROTSTAT_RELEASED = 15 ∧ t.rd (Reg.ACQ_CAL_GAIN (s.rd Reg.ACQ_ROTSTAT_RELEASED)) = factors.toNat / 65536 ∧ t.rd
    (Reg.ACQ_CAL_OFFSET (s.rd Reg.ACQ_ROTSTAT_RELEASED)) = factors.toNat % 65536 ∧ spFind t.acq.calFails (s.rd
    Reg.ACQ_ROTSTAT_RELEASED) = none)) ∧
  (∀ (factors : Word) (p : Fin 13) (s : State), s.rd Reg.ACQ_ROTSTAT_RELEASED = p.val → calPasses factors.toNat = false → gives
    (.rotCalComplete factors) s (fun t => t.rd Reg.ACQ_ROTSTAT_RELEASED = 15 ∧ t.rd (Reg.ACQ_CAL_GAIN p) = s.rd (Reg.ACQ_CAL_GAIN p) ∧
    t.rd (Reg.ACQ_CAL_OFFSET p) = s.rd (Reg.ACQ_CAL_OFFSET p) ∧ spGet t.acq.calFails p 0 = min (spGet s.acq.calFails p 0 + 1) 2 ∧ (if 1
    ≤ spGet s.acq.calFails p 0 ∧ s.rd Reg.ACQ_ROTSTAT_SPARE = p.val then t.rd Reg.ACQ_ROTSTAT_RETIRED = p.val ∧ t.flag
    Reg.ACQ_ROTSTAT_HALT = true ∧ t.acq.incoming = none else t.rd Reg.ACQ_ROTSTAT_RETIRED = s.rd Reg.ACQ_ROTSTAT_RETIRED ∧ t.flag
    Reg.ACQ_ROTSTAT_HALT = s.flag Reg.ACQ_ROTSTAT_HALT ∧ t.acq.incoming = if s.acq.rotLast then none else some p.val))) ∧
  (∀ (p : Fin 13) (s : State), s.acq.incoming = some p.val → 64 ≤ s.acq.overlap → s.acq.diffSum ≤ 64 * s.rd Reg.ACQ_ROT_TOL → gives
    (.rotHandoverDecision) s (fun t => t.acq = { s.acq with takeOver := true } ∧ onlyChanges [] [.acq] s t)) ∧
  (∀ (n : Fin 4) (p : Fin 13) (s : State), spGet s.acq.seqPhase n 0 = 1 → s.acq.incoming = some p.val → s.acq.takeOver = true →
    (s.seqEntries n).any (fun e => s.rd (Reg.ACQ_SEQENT_ADC n e) = s.rd Reg.ACQ_ROTSTAT_POS) = true → (List.range 4).all (fun m =>
    !s.seqWants m (s.rd Reg.ACQ_ROTSTAT_POS)) = true → gives (.seqDelayExpiry n) s (fun t => t.physical (s.rd Reg.ACQ_ROTSTAT_POS) = p
    ∧ t.rd Reg.ACQ_ROTSTAT_SPARE = s.physical (s.rd Reg.ACQ_ROTSTAT_POS) % 16 ∧ t.rd Reg.ACQ_ROTSTAT_POS = (s.rd Reg.ACQ_ROTSTAT_POS +
    1) % 12 ∧ t.acq.incoming = none ∧ t.acq.takeOver = false)) ∧
  (∀ (n : Fin 4) (p : Fin 13) (s : State), spGet s.acq.seqPhase n 0 = 1 → s.acq.incoming = some p.val → s.acq.takeOver = true →
    (List.range 4).any (fun m => s.seqWants m (s.rd Reg.ACQ_ROTSTAT_POS)) = true → gives (.seqDelayExpiry n) s (fun t => t.acq.pos =
    s.acq.pos ∧ t.acq.incoming = some p.val ∧ t.acq.takeOver = true)) ∧
  (∀ (p : Fin 13) (s : State), s.acq.incoming = some p.val → 64 ≤ s.acq.overlap → 64 * s.rd Reg.ACQ_ROT_TOL < s.acq.diffSum →
    s.acq.takeOver = false → gives (.rotHandoverDecision) s (fun t => t.flag Reg.ACQ_ROTSTAT_MISMATCH = true ∧ t.rdBit
    Reg.ACQ_ROTSTAT_SUSPECT p = true ∧ t.acq.pos = s.acq.pos ∧ t.acq.incoming = none)) ∧
  (∀ (c : Fin 32) (s : State), s.itestPick = some c.val → s.works .acq = true → s.acq.itDone = false → s.acq.itCur = none → s.itestGap c =
    true → gives (.burnoutTestStart) s (fun t => t.acq.itCur = some c.val ∧ t.acq.itDone = true ∧ spFind t.clk.timers tmItest = some
    s.clk.ticks ∧ onlyChanges [] [.clk, .acq] s t)) ∧
  (∀ (c : Fin 32) (raw : Int) (s : State), s.acq.itCur = some c.val → gives (.burnoutTestResult raw) s (fun t => t.acq.itCur = none ∧
    spGet t.acq.openRun c 0 = (if s.rd Reg.ACQ_ITHR_OPEN_THR ≤ ((adcConvert 1 [raw] (s.rd (Reg.ACQ_CAL_GAIN (s.physical (spGet
    s.acq.lastConv c 1 - 1)))) (s.rd (Reg.ACQ_CAL_OFFSET (s.physical (spGet s.acq.lastConv c 1 - 1))))).1 - signed 16 (s.rd
    (Reg.ACQ_CHVAL_DATA c))).natAbs then min (spGet s.acq.openRun c 0 + 1) 4 else 0) ∧ spGet t.acq.shortRun c 0 = (if ((adcConvert 1
    [raw] (s.rd (Reg.ACQ_CAL_GAIN (s.physical (spGet s.acq.lastConv c 1 - 1)))) (s.rd (Reg.ACQ_CAL_OFFSET (s.physical (spGet
    s.acq.lastConv c 1 - 1))))).1 - signed 16 (s.rd (Reg.ACQ_CHVAL_DATA c))).natAbs ≤ s.rd Reg.ACQ_ITHR_SHORT_THR then min (spGet
    s.acq.shortRun c 0 + 1) 4 else 0) ∧ t.rdBit Reg.ACQ_OPEN_OPEN c = (s.rdBit Reg.ACQ_OPEN_OPEN c || decide (spGet t.acq.openRun c 0 =
    4)) ∧ t.rdBit Reg.ACQ_SHORT_SHORT c = (s.rdBit Reg.ACQ_SHORT_SHORT c || decide (spGet t.acq.shortRun c 0 = 4)) ∧ t.flag
    (Reg.ACQ_CHVAL_VALID c) = (s.flag (Reg.ACQ_CHVAL_VALID c) && !(t.rdBit Reg.ACQ_OPEN_OPEN c || t.rdBit Reg.ACQ_SHORT_SHORT c)) ∧
    onlyChanges [Reg.ACQ_OPEN_OPEN, Reg.ACQ_SHORT_SHORT, Reg.ACQ_CHVAL_VALID c, Reg.PTP_ALRM_WRAP, Reg.CST_TSHI_TSHI] [.clk, .sup,
    .acq] s t))

/-- ZC_EDGE counts a step forward or backward to the neighbouring sector, takes the index event at the positive crossing of phase A,
counts a change to an invalid code or by two or three sectors as a sector error, and only adopts a valid code after an invalid one;
SECTOR_DEAD_TIMEOUT enters the dead state; IDXARM arms the index; ANG_ENABLE_CHANGE starts the tracker from the dead state. Readings of
the model this rests on: log 74, 82. -/
def Obligations.TrackerSectors : Prop :=
  (∀ (code : Fin 8) (s : State), s.worksNow .ang = true → codeValid code = true → codeValid (s.rd Reg.ANG_STAT_SECTOR) = true →
    s.ang.refCode ≠ 0 → (sectorIndex code + 6 - sectorIndex (s.rd Reg.ANG_STAT_SECTOR)) % 6 = 1 → code.val ≠ 5 → gives (.zcEdge code) s
    (fun t => t.rd Reg.ANG_STAT_SECTOR = code ∧ t.ang.refCode = code ∧ t.ang.netSteps = (s.ang.netSteps + 1) % 6 ∧ t.ang.stepTick =
    s.clk.ticks ∧ t.ang.dir = 1 ∧ t.ang.dead = false ∧ spFind t.clk.timers tmDead = some s.clk.ticks)) ∧
  (∀ (code : Fin 8) (s : State), s.worksNow .ang = true → codeValid code = true → codeValid (s.rd Reg.ANG_STAT_SECTOR) = true →
    s.ang.refCode ≠ 0 → (sectorIndex code + 6 - sectorIndex (s.rd Reg.ANG_STAT_SECTOR)) % 6 = 1 → code.val = 5 → gives (.zcEdge code) s
    (fun t => t.rd Reg.ANG_STAT_SECTOR = 5 ∧ t.ang.refCode = 5 ∧ t.ang.netSteps = (if s.lrd Reg.ANG_CTRL_IDX = 1 ∧ s.ang.idxArmed =
    false then (s.ang.netSteps + 1) % 6 else 0) ∧ (s.lrd Reg.ANG_CTRL_IDX = 1 → s.ang.idxArmed = true → t.flag Reg.ANG_STAT_IDXDONE =
    true) ∧ t.ang.idxArmed = false ∧ t.ang.dir = 1 ∧ t.ang.dead = false ∧ spFind t.clk.timers tmDead = some s.clk.ticks)) ∧
  (∀ (code : Fin 8) (s : State), s.worksNow .ang = true → codeValid code = true → codeValid (s.rd Reg.ANG_STAT_SECTOR) = true →
    s.ang.refCode ≠ 0 → (sectorIndex code + 6 - sectorIndex (s.rd Reg.ANG_STAT_SECTOR)) % 6 = 5 → gives (.zcEdge code) s (fun t => t.rd
    Reg.ANG_STAT_SECTOR = code ∧ t.ang.refCode = code ∧ t.ang.netSteps = (s.ang.netSteps + 5) % 6 ∧ t.ang.stepTick = s.clk.ticks ∧
    t.ang.dir = -1 ∧ t.ang.fwdRun = 0 ∧ (s.ang.dir = 1 → t.flag Reg.ANG_ALRM_SEQREV = true ∧ t.flag Reg.ANG_STAT_SEQREV = true) ∧ t.rd
    Reg.ANG_SECERRCNT_COUNT = s.rd Reg.ANG_SECERRCNT_COUNT ∧ t.ang.idxArmed = s.ang.idxArmed ∧ spFind t.clk.timers tmDead = some
    s.clk.ticks)) ∧
  (∀ (code : Fin 8) (s : State), s.worksNow .ang = true → codeValid code = true → codeValid (s.rd Reg.ANG_STAT_SECTOR) = true →
    s.ang.refCode ≠ 0 → 2 ≤ (sectorIndex code + 6 - sectorIndex (s.rd Reg.ANG_STAT_SECTOR)) % 6 ∧ (sectorIndex code + 6 - sectorIndex
    (s.rd Reg.ANG_STAT_SECTOR)) % 6 ≤ 4 → gives (.zcEdge code) s (fun t => t.rd Reg.ANG_STAT_SECTOR = code ∧ t.ang.refCode = code ∧
    t.flag Reg.ANG_ALRM_SECERR = true ∧ t.rd Reg.ANG_SECERRCNT_COUNT = min (s.rd Reg.ANG_SECERRCNT_COUNT + 1) (2 ^
    Reg.ANG_SECERRCNT_COUNT.wid - 1) ∧ t.ang.netSteps = s.ang.netSteps ∧ t.ang.stepTick = s.ang.stepTick ∧ t.ang.run = 0)) ∧
  (∀ (code : Fin 8) (s : State), s.worksNow .ang = true → codeValid code = true → codeValid (s.rd Reg.ANG_STAT_SECTOR) = false → code.val
    ≠ s.rd Reg.ANG_STAT_SECTOR → gives (.zcEdge code) s (fun t => t.rd Reg.ANG_STAT_SECTOR = code ∧ t.ang.refCode = code ∧
    t.ang.netSteps = s.ang.netSteps ∧ t.rd Reg.ANG_SECERRCNT_COUNT = s.rd Reg.ANG_SECERRCNT_COUNT ∧ t.flag Reg.ANG_ALRM_SECERR = s.flag
    Reg.ANG_ALRM_SECERR)) ∧
  (∀ (code : Fin 8) (s : State), s.worksNow .ang = true → codeValid code = false → code.val ≠ s.rd Reg.ANG_STAT_SECTOR → gives (.zcEdge
    code) s (fun t => t.rd Reg.ANG_STAT_SECTOR = code ∧ t.flag Reg.ANG_ALRM_SECERR = true ∧ t.rd Reg.ANG_SECERRCNT_COUNT = min (s.rd
    Reg.ANG_SECERRCNT_COUNT + 1) (2 ^ Reg.ANG_SECERRCNT_COUNT.wid - 1) ∧ t.ang.netSteps = s.ang.netSteps ∧ t.ang.run = 0)) ∧
  (∀ (s : State), s.worksNow .ang = true → s.timerOn tmDead = true → s.ang.pllOn = false → gives (.sectorDeadTimeout) s (fun t =>
    t.ang.dead = true ∧ t.ang.secValid = false ∧ t.ang.run = 0 ∧ t.ang.idxArmed = true ∧ t.flag Reg.ANG_ALRM_DEAD = true)) ∧
  (∀ (m : Master) (s : State), s.reaches m true 0x42010000 = true → gives (.idxarm m) s (fun t => t.ang.idxArmed = true ∧ t.flag
    Reg.ANG_STAT_IDXDONE = false ∧ onlyChanges [Reg.ANG_STAT_IDXDONE] [.bus, .ang] s t)) ∧
  (∀ (m : Master) (s : State), s.reaches m true 0x42010000 = true → s.rd (blockEn .ang) = 0 → s.running .ang = false → gives
    (.angEnableChange m true) s (fun t => t.works .ang = true ∧ t.ang.dead = true ∧ t.ang.netSteps = 0 ∧ t.ang.secValid = false)) ∧
  (∀ (m : Master) (s : State), s.reaches m true 0x42010000 = true → gives (.angEnableChange m false) s (fun t => t.rd (blockEn .ang) = 0 ∧
    t.ang = s.ang ∧ onlyChanges [blockEn .ang] [.bus] s t))

/-- ANG_FRAME_UPDATE reports the angle, with the compute start of its frame in ATIME, and where the residue of a channel copied for the
frame does not fit it fences the tracker; PLL_PERSISTENCE_EXPIRY lets the PLL take over where its conditions hold; SAW_WORD_RECEIVED
takes a right word and refuses one with a wrong CRC; SAW_TIMEOUT reports the loss. Readings of the model this rests on: log 19, 77, 82.
-/
def Obligations.TrackerFrames : Prop :=
  (∀ (s : State), s.worksNow .ang = true → s.ang.resBad = none → gives (.angFrameUpdate) s (fun t => t.rd Reg.ANG_ATIME_ATIME = s.frm.t0 %
    2 ^ 32 ∧ t.ang.outTick = s.clk.ticks ∧ t.now = s.now ∧ (t.flag Reg.ANG_STAT_VALID = false → t.ang.outHz = 0))) ∧
  (∀ (ch : Fin 64) (s : State), s.worksNow .ang = true → s.ang.resBad = some ch → gives (.angFrameUpdate) s (fun t => t.rd (blockState
    .ang) = 4 ∧ t.flag Reg.ANG_STAT_VALID = false ∧ t.ang.acpOn = [] ∧ (∀ n : Fin 4, t.flag (Reg.ANG_ACPCFG_ARMED n) = false))) ∧
  (∀ (s : State), s.worksNow .ang = true → s.timerOn tmPll = true → s.ang.pllOn = false → s.pllMay = true → gives (.pllPersistenceExpiry)
    s (fun t => t.ang.pllOn = true ∧ t.ang.pllHz = s.ang.secHz ∧ ticksMs 20 ≤ t.timerAge tmPll)) ∧
  (∀ (w : BitVec 48) (c : Nat) (s : State), s.worksNow .ang = true → s.pins.spi0 = 1 → s.ang.sawCs = some c → crc8 40 (w.toNat / 256) =
    w.toNat % 256 → bitAt w.toNat 15 = false → gives (.sawWordReceived w) s (fun t => t.rd Reg.ANG_SAW_ANGLE = w.toNat / 65536 ∧
    t.ang.sawLast = some (w.toNat / 65536, c) ∧ t.ang.sawLost = false ∧ t.ang.sawCs = none ∧ t.timerOn tmSaw = true ∧ t.timerAge tmSaw
    = 0)) ∧
  (∀ (w : BitVec 48) (c : Nat) (s : State), s.worksNow .ang = true → s.pins.spi0 = 1 → s.ang.sawCs = some c → crc8 40 (w.toNat / 256) ≠
    w.toNat % 256 → gives (.sawWordReceived w) s (fun t => t.flag Reg.ANG_ALRM_SAWCRC = true ∧ t.ang = { s.ang with sawCs := none } ∧
    onlyChanges [Reg.ANG_ALRM_SAWCRC, Reg.PTP_ALRM_WRAP, Reg.CST_TSHI_TSHI] [.clk, .sup, .ang] s t)) ∧
  (∀ (s : State), s.worksNow .ang = true → s.lrd Reg.ANG_CTRL_SRC = 1 ∨ s.lrd Reg.ANG_CTRL_SRC = 2 ∨ s.pins.spi0 = 1 → s.timerOn tmSaw =
    true → gives (.sawTimeout) s (fun t => t.flag Reg.ANG_ALRM_SAWTMO = true ∧ t.ang.sawLost = true ∧ t.ang.sawLast = s.ang.sawLast ∧
    t.ang.sawHz = s.ang.sawHz))

/-- ACP_ARM of a SINGLE channel with a valid tracker arms it, without VALID it is disarmed with NOVALID; ACP_FIRE of a ready channel
starts its pulse with its time; ACP_PULSE_END ends it. Readings of the model this rests on: log 68, 82. -/
def Obligations.PointingOutputs : Prop :=
  (∀ (m : Master) (n : Fin 4) (s : State), s.reaches m true (0x42010400 + 0x10 * n.val) = true → s.lrd (Reg.ANG_ACPCFG_MODE n) = 1 → s.lrd
    (Reg.ANG_ACPCFG_EN n) = 1 → s.mode ≠ 10 → s.flag Reg.ANG_STAT_VALID = true → gives (.acpArm m n) s (fun t => t.flag
    (Reg.ANG_ACPCFG_ARMED n) = true ∧ onlyChanges [Reg.ANG_ACPCFG_ARMED n] [.bus, .ang] s t)) ∧
  (∀ (m : Master) (n : Fin 4) (s : State), s.reaches m true (0x42010400 + 0x10 * n.val) = true → s.lrd (Reg.ANG_ACPCFG_MODE n) = 1 → s.lrd
    (Reg.ANG_ACPCFG_EN n) = 1 → s.mode ≠ 10 → s.flag Reg.ANG_STAT_VALID = false → gives (.acpArm m n) s (fun t => t.flag
    (Reg.ANG_ACPCFG_ARMED n) = false ∧ t.flag (Reg.ANG_ACPCFG_NOVALID n) = true ∧ onlyChanges [Reg.ANG_ACPCFG_ARMED n,
    Reg.ANG_ACPCFG_NOVALID n] [.bus, .ang] s t)) ∧
  (∀ (m : Master) (n : Fin 4) (s : State), s.reaches m true (0x42010400 + 0x10 * n.val) = true → s.lrd (Reg.ANG_ACPCFG_MODE n) ≠ 1 → gives
    (.acpArm m n) s (fun t => spFind t.ang.acpReq n = some 1 ∧ onlyChanges [] [.bus, .ang] s t)) ∧
  (∀ (n : Fin 4) (s : State), s.acpReady n = true → gives (.acpFire n) s (fun t => t.flag (Reg.ANG_ACPCFG_FIRED n) = true ∧ t.rd
    (Reg.ANG_ACPTIME_TIME n) = t.now ∧ (spFind t.ang.acpOn n).isSome = true ∧ (s.lrd (Reg.ANG_ACPCFG_MODE n) = 1 → t.flag
    (Reg.ANG_ACPCFG_ARMED n) = false))) ∧
  (∀ (n : Fin 4) (s : State), (spFind s.ang.acpOn n).isSome = true → gives (.acpPulseEnd n) s (fun t => spFind t.ang.acpOn n = none ∧
    t.timerOn (tmAcp n) = false))

/-- FORMING_FRAME in a mode in which the core computes leaves FVALID set, INIT clear, the compute start in ATIME and 17 words of output
with their valid bit; in FORM_GRID and FORM_ISLAND, beyond the first frame, with valid measurements and without stage 2, the states
after it are those of the equations of R98 to R101 as exactly as the device holds them (2 units of Q2.30, and of the machine angle 2
units of 2^-48 turns), and the reference vector is that of R102; outside the modes in which it computes FVALID is cleared and the
angle, frequency and voltage states are held; a residue mismatch fences FRM_ and trips. STAGE2_END, IHOLD_TRIP and PRF_LOAD act.
Readings of the model this rests on: log 19, 20, 24, 75, 83, 84, 85. -/
def Obligations.FormingFrames : Prop :=
  (∀ (s : State), s.worksNow .frm = true → s.frmComputes s.mode = true → gives (.formingFrame none none) s (fun t => t.flag
    Reg.FRM_STAT_FVALID = true ∧ t.flag Reg.FRM_STAT_INIT = false ∧ t.rd Reg.FRM_ATIME_ATIME = s.frm.t0 % 2 ^ 32 ∧ t.frm.out.length =
    17 ∧ t.frm.out.getD 16 0 % 2 = 1 ∧ t.rd Reg.FRM_VM_VM = pattern 32 (fxTo 30 t.frm.vm) ∧ t.rd Reg.FRM_OMEGA_OMEGA = pattern 32 (fxTo
    46 t.frm.omega / 65536))) ∧
  (∀ (s : State), s.worksNow .frm = true → s.mode = mFormGrid ∨ s.mode = mFormIsland → s.flag Reg.FRM_STAT_INIT = false → s.frm.wOver =
    none → s.frm.dv = 0 → s.frm.stage2 = false → s.rd Reg.FRM_SEQSTAT_SUB ∉ [4, 5, 6] → s.chValid Reg.FRM_VSEL_CHA Reg.FRM_VSEL_CHB
    Reg.FRM_VSEL_CHC = true → s.chValid Reg.FRM_ISEL_CHA Reg.FRM_ISEL_CHB Reg.FRM_ISEL_CHC = true → gives (.formingFrame none none) s
    (fun t => (t.frm.pf - s.pfNext).natAbs ≤ 2 ^ 31 ∧ (t.frm.qf - s.qfNext).natAbs ≤ 2 ^ 31 ∧ (t.frm.vm - s.vmNext).natAbs ≤ 2 ^ 31 ∧
    (t.frm.pm - s.pmNext).natAbs ≤ 2 ^ 31 ∧ (t.frm.omega - s.omegaNext).natAbs ≤ 3 * 2 ^ 30 ∧ (fxTurn (t.frm.theta -
    s.thetaNext)).natAbs ≤ 2 ^ 13 ∧ (t.frm.e - s.eNext).natAbs ≤ 2 ^ 31 ∧ (t.frm.x - s.xNext).natAbs ≤ 2 ^ 31 ∧ (t.frm.stage2 = false →
    s.lrd Reg.FRM_RTCFG_NSEQ ≠ 1 → t.frm.vref = s.vrefNext t.frm.k))) ∧
  (∀ (s : State), s.worksNow .frm = true → s.frmComputes s.mode = false → gives (.formingFrame none none) s (fun t => t.flag
    Reg.FRM_STAT_FVALID = false ∧ t.frm.theta = s.frm.theta ∧ t.frm.omega = s.frm.omega ∧ t.frm.vm = s.frm.vm ∧ t.rd
    Reg.FRM_THETA_THETA = s.rd Reg.FRM_THETA_THETA)) ∧
  (∀ (ch : BitVec 8) (s : State), s.worksNow .frm = true → gives (.formingFrame (some ch) none) s (fun t => t.fenced .frm = true ∧ t.flag
    Reg.FRM_STAT_FVALID = false ∧ t.flag Reg.SUP_TRIP_FRMFENCE = true ∧ t.frm.theta = s.frm.theta ∧ (isForming s.mode = true →
    t.ctl.tripPend = true))) ∧
  (∀ (ch : BitVec 8) (s : State), s.worksNow .prf = true → s.worksNow .frm = false → gives (.formingFrame none (some ch)) s (fun t =>
    t.fenced .prf = true ∧ t.flag Reg.FRM_STAT_FVALID = false ∧ (∀ n : Fin 8, (t.prfCh n).y = (s.prfCh n).y))) ∧
  (∀ (s : State), s.frm.stage2 = true → 8 ≤ s.frm.s2ok → gives (.stage2End) s (fun t => t.frm.stage2 = false ∧ t.frm.s2ok = 0 ∧ t.frm.vref
    = s.frm.vref ∧ onlyChanges [] [.frm] s t)) ∧
  (∀ (s : State), s.worksNow .frm = true → isForming s.mode = true → max 1 (s.lrd Reg.FRM_IHOLD_IHOLD) ≤ s.frm.noCur → gives (.iholdTrip)
    s (fun t => t.flag Reg.FRM_ALRM_IHOLD = true ∧ t.flag Reg.SUP_TRIP_IHOLD = true ∧ t.ctl.tripPend = true ∧ onlyChanges
    [Reg.FRM_ALRM_IHOLD, Reg.SUP_TRIP_IHOLD, Reg.SUP_TRIP_FIRST, Reg.SUP_TRIPTIME_TIME] [.ctl] s t)) ∧
  (∀ (m : Master) (n : Fin 8) (s : State), s.reaches m true (0x43010110 + 0x20 * n.val) = true → gives (.prfLoad m n) s (fun t => t.flag
    (Reg.PRF_CFG_LOAD n) = true ∧ onlyChanges [Reg.PRF_CFG_LOAD n] [.bus] s t))

/-- RIDE_THROUGH_EXIT returns to the mode it was entered from; ISLAND_DETECT takes FORM_GRID to FORM_ISLAND for each of its causes,
with ISLANDED set; BREAKER_CLOSED_DETECT takes FORM_ISLAND to FORM_GRID with ISLANDED clear. BSARM_WRITE in READY starts the claim
logic in WAIT_DEAD, WAIT_DEAD_EXPIRY goes to WAIT_SLOT with its slot, CLAIM_SLOT_EXPIRY lets the slot wait pass, the claim itself being
made at the next frame start, JOIN_SETTLE ends JOIN. Readings of the model this rests on: log 5, 26, 86. -/
def Obligations.IslandsAndBlackStart : Prop :=
  (∀ (s : State), s.mode = mRideThrough → s.timerOn tmRt = true → s.frm.rtFrom = mFormGrid ∨ s.frm.rtFrom = mFormIsland → gives
    (.rideThroughExit) s (fun t => t.mode = s.frm.rtFrom ∧ t.rd Reg.SUP_MODE_PREV = mRideThrough ∧ t.flag Reg.SUP_MODE_CHG = true)) ∧
  (∀ (s : State), s.mode = mFormGrid → s.lrd Reg.FRM_SEQCTRL_BRKEN = 1 → gives (.islandDetect .breaker) s (fun t => t.mode = mFormIsland ∧
    t.flag Reg.FRM_SEQSTAT_ISLANDED = true ∧ t.rd Reg.SUP_MODE_PREV = mFormGrid)) ∧
  (∀ (s : State), s.mode = mFormGrid → s.timerOn tmIsAngle = true → gives (.islandDetect .angle) s (fun t => t.mode = mFormIsland ∧ t.flag
    Reg.FRM_SEQSTAT_ISLANDED = true)) ∧
  (∀ (s : State), s.mode = mFormGrid → s.timerOn tmIsDead = true → gives (.islandDetect .deadGrid) s (fun t => t.mode = mFormIsland ∧
    t.flag Reg.FRM_SEQSTAT_ISLANDED = true)) ∧
  (∀ (s : State), s.mode = mFormIsland → s.lrd Reg.FRM_SEQCTRL_BRKEN = 1 → gives (.breakerClosedDetect) s (fun t => t.mode = mFormGrid ∧
    t.flag Reg.FRM_SEQSTAT_ISLANDED = false)) ∧
  (∀ (s : State), s.mode = mResync → s.frm.fired = true → s.timerOn tmClose = true → s.lrd Reg.FRM_SEQCTRL_BRKEN = 1 → gives
    (.resyncCloseTimeout) s (fun t => t.flag Reg.FRM_SEQSTAT_CLOSEFAIL = true ∧ t.frm.fired = false ∧ t.rd Reg.FRM_SEQSTAT_SUB = 8 ∧
    t.mode = mResync ∧ t.timerOn tmNoArm = true)) ∧
  (∀ (s : State), s.mode = mResync → s.frm.fired = true → s.timerOn tmClose = true → s.lrd Reg.FRM_SEQCTRL_BRKEN ≠ 1 → gives
    (.resyncCloseTimeout) s (fun t => t.mode = mFormGrid ∧ t.flag Reg.FRM_SEQSTAT_ISLANDED = false)) ∧
  (∀ (s : State), s.mode = mResync → s.timerOn tmGrid = true → gives (.resyncGridTimeout) s (fun t => t.mode = mFormIsland ∧ t.rd
    Reg.SUP_MODE_PREV = mResync)) ∧
  (∀ (m : Master) (v : Word) (s : State), s.reaches m true 0x430000AC = true → s.mode = mReady → s.flag Reg.FRM_SEQCTRL_BSARM = false →
    v.toNat % 2 = 1 → gives (.bsarmWrite m v) s (fun t => t.flag Reg.FRM_SEQCTRL_BSARM = true ∧ t.rd Reg.FRM_SEQSTAT_SUB = 1 ∧ t.rd
    Reg.FRM_SEQSTAT_ATTEMPT = 0 ∧ t.timerOn tmDeadBus = false ∧ t.flag Reg.FRM_SEQCTRL_NOCLAIM = bitAt v.toNat 1)) ∧
  (∀ (s : State), s.claims = true → s.rd Reg.FRM_SEQSTAT_SUB = 1 → s.timerOn tmDeadBus = true → gives (.waitDeadExpiry) s (fun t => t.rd
    Reg.FRM_SEQSTAT_SUB = 2 ∧ t.rd Reg.FRM_SEQSTAT_SLOT = s.claimSlot % 2 ^ Reg.FRM_SEQSTAT_SLOT.wid ∧ t.mode = mReady)) ∧
  (∀ (s : State), s.claims = true → s.rd Reg.FRM_SEQSTAT_SUB = 2 → s.timerOn tmSlot = true → gives (.claimSlotExpiry) s (fun t =>
    s.slotWait ≤ t.timerAge tmSlot ∧ t.rd Reg.FRM_SEQSTAT_SUB = 2 ∧ t.mode = mReady ∧ onlyChanges [Reg.PTP_ALRM_WRAP,
    Reg.CST_TSHI_TSHI] [.clk, .sup] s t)) ∧
  (∀ (s : State), s.mode = mBlackStart → s.rd Reg.FRM_SEQSTAT_SUB = 5 → s.timerOn tmJoin = true → gives (.joinSettle) s (fun t => t.rd
    Reg.FRM_SEQSTAT_SUB = 6 ∧ t.mode = mBlackStart ∧ t.timerOn tmJoin = false))

/-- Where a tile can carry it out, each of CLR, LDA, MUL, MAC, MSU, ADD, SUB, ADDA, SUBA, SHA, NEG, ABS, MAX, MIN and LIM leaves its
exact result, saturated, in its accumulator, every other accumulator as it was, and the tile behind the instruction. Readings of the
model this rests on: log 27, 28. -/
def Obligations.AccumulatorOperations : Prop :=
  (∀ (t : Fin 128) (c : Fin 800) (a b : Fin 65536) (s : State), s.armCan t c 2 a b = true → gives (.clr t ⟨c, .clear⟩) s (fun u =>
    accBecomes s t c 2 (0) u)) ∧
  (∀ (t : Fin 128) (c : Fin 800) (a b : Fin 65536) (s : State), s.armCan t c 3 a b = true → gives (.lda t c .clear) s (fun u => accBecomes
    s t c 3 (ext a) u)) ∧
  (∀ (t : Fin 128) (c : Fin 800) (a b : Fin 65536) (s : State), s.armCan t c 4 a b = true → gives (.mul t c .clear) s (fun u => accBecomes
    s t c 4 (q15 a * q15 b) u)) ∧
  (∀ (t : Fin 128) (c : Fin 800) (a b : Fin 65536) (s : State), s.armCan t c 5 a b = true → gives (.mac t c .clear) s (fun u => accBecomes
    s t c 5 (s.armAcc t (s.armAt t).acc + q15 a * q15 b) u)) ∧
  (∀ (t : Fin 128) (c : Fin 800) (a b : Fin 65536) (s : State), s.armCan t c 6 a b = true → gives (.msu t c .clear) s (fun u => accBecomes
    s t c 6 (s.armAcc t (s.armAt t).acc - q15 a * q15 b) u)) ∧
  (∀ (t : Fin 128) (c : Fin 800) (a b : Fin 65536) (s : State), s.armCan t c 7 a b = true → gives (.add t c .clear) s (fun u => accBecomes
    s t c 7 (s.armAcc t (s.armAt t).acc + ext a) u)) ∧
  (∀ (t : Fin 128) (c : Fin 800) (a b : Fin 65536) (s : State), s.armCan t c 8 a b = true → gives (.sub t c .clear) s (fun u => accBecomes
    s t c 8 (s.armAcc t (s.armAt t).acc - ext a) u)) ∧
  (∀ (t : Fin 128) (c : Fin 800) (a b : Fin 65536) (s : State), s.armCan t c 9 a b = true → gives (.adda t c .clear) s (fun u =>
    accBecomes s t c 9 (s.armAcc t (s.armAt t).acc + s.armAcc t ((s.armAt t).mod % 4)) u)) ∧
  (∀ (t : Fin 128) (c : Fin 800) (a b : Fin 65536) (s : State), s.armCan t c 10 a b = true → gives (.suba t c .clear) s (fun u =>
    accBecomes s t c 10 (s.armAcc t (s.armAt t).acc - s.armAcc t ((s.armAt t).mod % 4)) u)) ∧
  (∀ (t : Fin 128) (c : Fin 800) (a b : Fin 65536) (s : State), s.armCan t c 11 a b = true → gives (.sha t c .clear) s (fun u =>
    accBecomes s t c 11 (if 0 ≤ max (-15) (signed 5 (s.armAt t).mod) then s.armAcc t (s.armAt t).acc * 2 ^ (max (-15) (signed 5
    (s.armAt t).mod)).toNat else s.armAcc t (s.armAt t).acc / 2 ^ (-(max (-15) (signed 5 (s.armAt t).mod))).toNat) u)) ∧
  (∀ (t : Fin 128) (c : Fin 800) (a b : Fin 65536) (s : State), s.armCan t c 12 a b = true → gives (.neg t c .clear) s (fun u =>
    accBecomes s t c 12 (-s.armAcc t (s.armAt t).acc) u)) ∧
  (∀ (t : Fin 128) (c : Fin 800) (a b : Fin 65536) (s : State), s.armCan t c 13 a b = true → gives (.abs t c .clear) s (fun u =>
    accBecomes s t c 13 (((s.armAcc t (s.armAt t).acc).natAbs : Int)) u)) ∧
  (∀ (t : Fin 128) (c : Fin 800) (a b : Fin 65536) (s : State), s.armCan t c 14 a b = true → gives (.max t c .clear) s (fun u =>
    accBecomes s t c 14 (max (s.armAcc t (s.armAt t).acc) (ext a)) u)) ∧
  (∀ (t : Fin 128) (c : Fin 800) (a b : Fin 65536) (s : State), s.armCan t c 15 a b = true → gives (.min t c .clear) s (fun u =>
    accBecomes s t c 15 (min (s.armAcc t (s.armAt t).acc) (ext a)) u)) ∧
  (∀ (t : Fin 128) (c : Fin 800) (a b : Fin 65536) (s : State), s.armCan t c 16 a b = true → gives (.lim t c .clear) s (fun u =>
    accBecomes s t c 16 (min (max (s.armAcc t (s.armAt t).acc) (ext a)) (ext b)) u))

/-- Where a tile can carry it out, STR, MOV and SEL leave their word at the destination, and SIN, COS, ATN, SQR, DIV and MAG, outside
their domain limits, the exact value to within 2 units, DIV of equal words and MAG of a sum of squares of 1.0 the exact +1.0, which is
stored as 0x7FFF, SIN of a quarter turn and COS of 0 exactly 0x7FFF; every accumulator is as it was. Readings of the model this rests
on: log 19, 27, 28. -/
def Obligations.WordOperations : Prop :=
  (∀ (t : Fin 128) (c : Fin 800) (a b : Fin 65536) (s : State), s.armCan t c 17 a b = true → gives (.str t c .clear) s (fun u =>
    destBecomes s t c 17 (pattern 16 (satInt 16 (rhe ((s.armAcc t (s.armAt t).acc) * 2 ^ ((s.armAt t).mod % 16)) 32768))) u)) ∧
  (∀ (t : Fin 128) (c : Fin 800) (a b : Fin 65536) (s : State), s.armCan t c 18 a b = true → gives (.mov t c .clear) s (fun u =>
    destBecomes s t c 18 (a) u)) ∧
  (∀ (t : Fin 128) (c : Fin 800) (a b : Fin 65536) (s : State), s.armCan t c 19 a b = true → gives (.sel t c .clear) s (fun u =>
    destBecomes s t c 19 (if 0 ≤ s.armAcc t (s.armAt t).acc then a.val else b.val) u)) ∧
  (∀ (t : Fin 128) (c : Fin 800) (a b : Fin 65536) (s : State), s.armCan t c 36 a b = true → q15 b ≠ 0 → a = b → gives (.div t c .clear) s
    (fun u => destBecomes s t c 36 (0x7FFF) u)) ∧
  (∀ (t : Fin 128) (c : Fin 800) (a b : Fin 65536) (s : State), s.armCan t c 37 a b = true → q15 a * q15 a + q15 b * q15 b = 1073741824 →
    gives (.mag t c .clear) s (fun u => destBecomes s t c 37 (0x7FFF) u)) ∧
  (∀ (t : Fin 128) (c : Fin 800) (a b : Fin 65536) (s : State), s.armCan t c 32 a b = true → a.val ≠ 16384 → gives (.sin t c .clear) s
    (fun u => ∃ e : Fin 5, destBecomes s t c 32 (trigWord 15 (fxCosSin (a.val * (fxOne / 65536))).2 e) u)) ∧
  (∀ (t : Fin 128) (c : Fin 800) (a b : Fin 65536) (s : State), s.armCan t c 33 a b = true → a.val ≠ 0 → gives (.cos t c .clear) s (fun u
    => ∃ e : Fin 5, destBecomes s t c 33 (trigWord 15 (fxCosSin (a.val * (fxOne / 65536))).1 e) u)) ∧
  (∀ (t : Fin 128) (c : Fin 800) (a b : Fin 65536) (s : State), s.armCan t c 34 a b = true → a.val ≠ 0 ∨ b.val ≠ 0 → gives (.atn t c
    .clear) s (fun u => ∃ e : Fin 5, destBecomes s t c 34 (pattern 16 (trigCount 16 (fxAtan2 (q15 a) (q15 b)) e)) u)) ∧
  (∀ (t : Fin 128) (c : Fin 800) (a b : Fin 65536) (s : State), s.armCan t c 35 a b = true → 0 ≤ q15 a → gives (.sqr t c .clear) s (fun u
    => ∃ e : Fin 5, destBecomes s t c 35 (trigWord 15 (fxSqrt (fxQ15 (q15 a))) e) u)) ∧
  (∀ (t : Fin 128) (c : Fin 800) (a b : Fin 65536) (s : State), s.armCan t c 36 a b = true → q15 b ≠ 0 → a ≠ b → gives (.div t c .clear) s
    (fun u => ∃ e : Fin 5, destBecomes s t c 36 (trigWord 15 (if q15 b < 0 then -q15 a * fxOne / -q15 b else q15 a * fxOne / q15 b) e)
    u)) ∧
  (∀ (t : Fin 128) (c : Fin 800) (a b : Fin 65536) (s : State), s.armCan t c 37 a b = true → q15 a * q15 a + q15 b * q15 b ≠ 1073741824 →
    gives (.mag t c .clear) s (fun u => ∃ e : Fin 5, destBecomes s t c 37 (trigWord 15 (fxSqrt ((q15 a * q15 a + q15 b * q15 b) *
    (fxOne / 1073741824))) e) u)) ∧
  (∀ (t : Fin 128) (c : Fin 800) (a b : Fin 65536) (s : State), s.armCan t c 32 a b = true → a.val = 16384 → gives (.sin t c .clear) s
    (fun u => destBecomes s t c 32 (0x7FFF) u)) ∧
  (∀ (t : Fin 128) (c : Fin 800) (a b : Fin 65536) (s : State), s.armCan t c 33 a b = true → a.val = 0 → gives (.cos t c .clear) s (fun u
    => destBecomes s t c 33 (0x7FFF) u))

/-- Where a tile can carry them out: ATN of A = 0 and B = 0 gives 0x0000, SQR of A < 0 gives 0x0000, and DIV by B = 0 gives 0x7FFF for
A > 0, 0x8000 for A < 0 and 0x0000 for A = 0; DOMAIN of ARM_ALRM is set each time. -/
def Obligations.DomainLimits : Prop :=
  (∀ (t : Fin 128) (c : Fin 800) (a b : Fin 65536) (s : State), s.armCan t c 34 a b = true → a.val = 0 → b.val = 0 → gives (.atn t c
    .clear) s (fun u => destBecomes s t c 34 (0) u ∧ u.flag Reg.ARM_ALRM_DOMAIN = true)) ∧
  (∀ (t : Fin 128) (c : Fin 800) (a b : Fin 65536) (s : State), s.armCan t c 35 a b = true → q15 a < 0 → gives (.sqr t c .clear) s (fun u
    => destBecomes s t c 35 (0) u ∧ u.flag Reg.ARM_ALRM_DOMAIN = true)) ∧
  (∀ (t : Fin 128) (c : Fin 800) (a b : Fin 65536) (s : State), s.armCan t c 36 a b = true → q15 b = 0 → gives (.div t c .clear) s (fun u
    => destBecomes s t c 36 (if 0 < q15 a then 0x7FFF else if q15 a < 0 then 0x8000 else 0) u ∧ u.flag Reg.ARM_ALRM_DOMAIN = true))

/-- NOP only goes on; END ends the tile's program; LDX and STX move the 40-bit pattern of an accumulator from and to three data words;
an illegal instruction, and a residue mismatch, fault the tile and fence ARM_. Readings of the model this rests on: log 27, 87. -/
def Obligations.ArmatureControl : Prop :=
  (∀ (t : Fin 128) (c : Fin 800) (a b : Fin 65536) (s : State), s.armCan t c 0 a b = true → gives (.nop t c) s (fun u => armAdvances s u t
    c 0 ∧ u.arm.acc = s.arm.acc ∧ u.arm.dat = s.arm.dat ∧ u.arm.flight = (s.armArrived c).arm.flight ∧ u.arm.pend = s.arm.pend ∧
    onlyChanges [] [.arm] s u)) ∧
  (∀ (t : Fin 128) (c : Fin 800) (x : ArmTile) (s : State), spFind s.arm.tiles t = some x → s.armStands x = true → c.val = x.at_ →
    s.upsetOf 4 (256 * t + x.pc) = 0 → (s.armAt t).opc = 1 → gives (.endOp t c) s (fun u => (spFind u.arm.tiles t).map (·.ended) = some
    true ∧ u.arm.lastEnd = max s.arm.lastEnd (c + 1) ∧ onlyChanges [Reg.ARM_ALRM_PORTRESID] [.arm] s u)) ∧
  (∀ (t : Fin 128) (c : Fin 800) (a b : Fin 65536) (s : State), s.armCan t c 20 a b = true → (∀ k : Fin 3, s.upsetOf 5 (1024 * t +
    (s.armAt t).a + k) = 0) → (residue (spGet s.arm.dat (1024 * t + (s.armAt t).a) 0) + residue (spGet s.arm.dat (1024 * t + (s.armAt
    t).a + 1) 0) + residue (spGet s.arm.dat (1024 * t + (s.armAt t).a + 2) 0)) % 15 = residue (spGet s.arm.dat (1024 * t + (s.armAt
    t).a) 0 + spGet s.arm.dat (1024 * t + (s.armAt t).a + 1) 0 * 2 ^ 16 + spGet s.arm.dat (1024 * t + (s.armAt t).a + 2) 0 % 256 * 2 ^
    32) → gives (.ldx t c .clear) s (fun u => accBecomes s t c 20 (signed 40 (spGet s.arm.dat (1024 * t + (s.armAt t).a) 0 + spGet
    s.arm.dat (1024 * t + (s.armAt t).a + 1) 0 * 2 ^ 16 + spGet s.arm.dat (1024 * t + (s.armAt t).a + 2) 0 % 256 * 2 ^ 32)) u)) ∧
  (∀ (t : Fin 128) (c : Fin 800) (a b : Fin 65536) (s : State), s.armCan t c 21 a b = true → gives (.stx t c .clear) s (fun u => (∀ k :
    Fin 3, spGet u.arm.dat (1024 * t + (s.armAt t).d + k) 0 = pattern 48 (s.armAcc t (s.armAt t).acc) / 2 ^ (16 * k.val) % 65536) ∧
    u.arm.acc = s.arm.acc ∧ armAdvances s u t c 21)) ∧
  (∀ (t : Fin 128) (c : Fin 800) (x : ArmTile) (s : State), spFind s.arm.tiles t = some x → s.armStands x = true → c.val = x.at_ →
    s.running .arm = true → s.arm.faulted = false → s.upsetOf 4 (256 * t + x.pc) = 0 → armLegal t (s.armAt t) = false → gives
    (.illegalInstruction t c) s (fun u => u.fenced .arm = true ∧ u.flag Reg.ARM_STAT_RUN = false ∧ u.flag Reg.ARM_ALRM_ILLOP = true ∧
    u.rd Reg.ARM_FAULT_KIND = fkIllop ∧ u.rd Reg.ARM_FAULT_TILE = t ∧ u.rd Reg.ARM_FAULT_ADDR = x.pc ∧ u.flag Reg.SUP_TRIP_ARMFENCE =
    true)) ∧
  (∀ (t : Fin 128) (c : Fin 800) (a b : Fin 65536) (k : Fin 16) (s : State), s.armCan t c 18 a b = true → s.running .arm = true →
    s.arm.faulted = false → gives (.mov t c { ArmHit.clear with out := 1 <<< k.val }) s (fun u => u.fenced .arm = true ∧ u.flag
    Reg.ARM_STAT_RUN = false ∧ u.flag Reg.ARM_ALRM_RESERR = true ∧ u.rd Reg.ARM_FAULT_KIND = fkResidue ∧ u.flag Reg.SUP_TRIP_ARMFENCE =
    true ∧ u.arm.tiles = []))

/-- FABRIC_START starts every tile that holds a program at its first slot; a word that arrives is appended to its input queue; the
deadline with every tile ended delivers the pending bank with AVALID and its residues, with a tile still running it counts an overrun,
in OVRTOT and, but for a RUN1 schedule, in OVRCNT, names the tiles in OVRTILE, and delivers the previous bank with AVALID as it stands
until OVRLIM overruns in a row clear it and trip; a due commit copies every shadow, whether a schedule runs or not; RUN1 is taken in
IDLE and MAINTENANCE. Readings of the model this rests on: log 27, 28, 29. -/
def Obligations.ArmatureSchedule : Prop :=
  (∀ (s : State), s.worksNow .arm = true → s.flag Reg.ARM_STAT_RUN = false → s.arm.ran = false → s.frmComputes s.mode = true → s.flag
    Reg.FRM_STAT_FVALID = true → s.arm.commitDue = false → gives (.fabricStart) s (fun u => u.flag Reg.ARM_STAT_RUN = true ∧ (∀ t : Fin
    128, s.armHolds t = true → spFind u.arm.tiles t = some ⟨0, 0, false⟩) ∧ (∀ t : Fin 128, s.armHolds t = false → spFind u.arm.tiles t
    = none) ∧ u.arm.queues = [] ∧ u.arm.flight = [])) ∧
  (∀ (t : Fin 128) (p : Fin 8) (w : ArmWord) (s : State), s.arm.flight.filter (fun w => w.dst = 8 * t.val + p.val) = [w] → gives
    (.portWordArrival t p) s (fun u => u.armQueue (8 * t + p) = s.armQueue (8 * t + p) ++ [(w.cycle, w.val)] ∧ u.arm.flight =
    s.arm.flight.erase w ∧ onlyChanges [Reg.ARM_ALRM_PORTRESID] [.arm] s u)) ∧
  (∀ (s : State), s.flag Reg.ARM_STAT_RUN = true → s.armAllEnded = true → s.arm.run1Now = false → s.arm.flight = [] → gives
    (.armatureDeadline) s (fun u => u.flag Reg.ARM_STAT_RUN = false ∧ u.flag Reg.ARM_STAT_AVALID = true ∧ u.rd Reg.ARM_OVR_OVRCNT = 0 ∧
    (∀ w : Fin 32, u.rd (Reg.ARM_RBANK_DATA w) = spGet s.arm.pend w 0 % 65536 ∧ u.rd (Reg.ARM_RBANK_RES w) = spGet s.arm.pend w 0 /
    65536 % 16))) ∧
  (∀ (s : State), s.flag Reg.ARM_STAT_RUN = true → s.armAllEnded = false → s.arm.run1Now = false → s.arm.flight = [] → gives
    (.armatureDeadline) s (fun u => u.flag Reg.ARM_STAT_RUN = false ∧ u.flag Reg.ARM_ALRM_OVERRUN = true ∧ u.rd Reg.ARM_SLACK_MINSLACK
    = 0 ∧ u.rd Reg.ARM_OVR_OVRTOT = min (s.rd Reg.ARM_OVR_OVRTOT + 1) (2 ^ Reg.ARM_OVR_OVRTOT.wid - 1) ∧ (∀ (j : Fin 4) (k : Fin 32),
    u.rdBit (Reg.ARM_OVRTILE_OVR j) k = ((spFind s.arm.tiles (32 * j.val + k.val)).map (fun x => !x.ended)).getD false) ∧ u.arm.dat =
    s.arm.dat ∧ u.arm.acc = s.arm.acc ∧ (∀ w : Fin 32, u.rd (Reg.ARM_RBANK_DATA w) = s.rd (Reg.ARM_RBANK_DATA w) ∧ u.rd
    (Reg.ARM_RBANK_RES w) = s.rd (Reg.ARM_RBANK_RES w)) ∧ u.rd Reg.ARM_OVR_OVRCNT = min (s.rd Reg.ARM_OVR_OVRCNT + 1) (2 ^
    Reg.ARM_OVR_OVRCNT.wid - 1) ∧ (if max 1 (s.lrd Reg.ARM_OVR_OVRLIM) ≤ u.rd Reg.ARM_OVR_OVRCNT then u.flag Reg.ARM_ALRM_OVRTRIP =
    true ∧ u.flag Reg.ARM_STAT_AVALID = false ∧ u.flag Reg.SUP_TRIP_OVRTRIP = true else u.flag Reg.ARM_STAT_AVALID = s.flag
    Reg.ARM_STAT_AVALID ∧ u.flag Reg.ARM_ALRM_OVRTRIP = s.flag Reg.ARM_ALRM_OVRTRIP))) ∧
  (∀ (s : State), s.flag Reg.ARM_STAT_RUN = true → s.armAllEnded = false → s.arm.run1Now = true → s.arm.flight = [] → gives
    (.armatureDeadline) s (fun u => u.flag Reg.ARM_STAT_RUN = false ∧ u.flag Reg.ARM_ALRM_OVERRUN = true ∧ u.rd Reg.ARM_SLACK_MINSLACK
    = 0 ∧ u.rd Reg.ARM_OVR_OVRTOT = min (s.rd Reg.ARM_OVR_OVRTOT + 1) (2 ^ Reg.ARM_OVR_OVRTOT.wid - 1) ∧ (∀ (j : Fin 4) (k : Fin 32),
    u.rdBit (Reg.ARM_OVRTILE_OVR j) k = ((spFind s.arm.tiles (32 * j.val + k.val)).map (fun x => !x.ended)).getD false) ∧ u.arm.dat =
    s.arm.dat ∧ u.arm.acc = s.arm.acc ∧ (∀ w : Fin 32, u.rd (Reg.ARM_RBANK_DATA w) = s.rd (Reg.ARM_RBANK_DATA w) ∧ u.rd
    (Reg.ARM_RBANK_RES w) = s.rd (Reg.ARM_RBANK_RES w)) ∧ u.rd Reg.ARM_OVR_OVRCNT = s.rd Reg.ARM_OVR_OVRCNT ∧ u.flag
    Reg.ARM_STAT_AVALID = s.flag Reg.ARM_STAT_AVALID)) ∧
  (∀ (m : Master) (s : State), s.reaches m true 0x43020000 = true → s.idleOrMaint = true → s.works .arm = true → gives (.armRun1 m true) s
    (fun u => u.arm.run1 = true ∧ onlyChanges [] [.bus, .arm] s u)) ∧
  (∀ (m : Master) (s : State), s.reaches m true 0x43020000 = true → gives (.pcommit m) s (fun u => u.flag Reg.ARM_STAT_PCPEND = true ∧
    u.arm.commitNext = (s.arm.commitDue || s.arm.commitNext) ∧ onlyChanges [Reg.ARM_STAT_PCPEND] [.bus, .arm] s u)) ∧
  (∀ (s : State), s.arm.commitDue = true → s.flag Reg.ARM_STAT_RUN = false → s.arm.ran = false → gives (.fabricStart) s (fun u =>
    u.arm.shadow = [] ∧ u.arm.commitDue = false ∧ u.flag Reg.ARM_STAT_PCPEND = s.arm.commitNext ∧ (∀ (t : Fin 128) (a : Fin 64), spGet
    u.arm.dat (1024 * t.val + 960 + a.val) 0 % 65536 = spGet s.arm.shadow (1024 * t.val + 960 + a.val) (spGet s.arm.dat (1024 * t.val +
    960 + a.val) 0) % 65536)))

/-- A write of a data word stores it, of a parameter word its shadow; the two words of a program slot, written by the same master in
MAINTENANCE with ARM_ off, store the instruction. Readings of the model this rests on: log 27, 87. -/
def Obligations.TileMemories : Prop :=
  (∀ (m : Master) (t : Fin 128) (a : Fin 1024) (v : Word) (s : State), s.reaches m true (tileDataAddr t a) = true → a.val < 960 → gives
    (.tileDataWrite m t a v) s (fun u => spGet u.arm.dat (1024 * t + a) 0 = v.toNat % 65536 ∧ (∀ k : Fin 1024, k ≠ a → spGet u.arm.dat
    (1024 * t + k) 0 = spGet s.arm.dat (1024 * t + k) 0) ∧ onlyChanges [] [.bus, .arm, .upset] s u)) ∧
  (∀ (m : Master) (t : Fin 128) (a : Fin 1024) (v : Word) (s : State), s.reaches m true (tileDataAddr t a) = true → 960 ≤ a.val → gives
    (.tileDataWrite m t a v) s (fun u => spFind u.arm.shadow (1024 * t + a) = some (v.toNat % 65536) ∧ u.arm.dat = s.arm.dat ∧
    onlyChanges [] [.bus, .arm] s u)) ∧
  (∀ (m : Master) (t : Fin 128) (slot : Fin 256) (v : Word) (s : State), s.reaches m true (tileProgAddr t slot) = true → s.armMayProgram m
    = true → gives (.programFirstWordWrite m t slot v) s (fun u => spFind u.arm.staging m = some (t.val, slot.val, v.toNat) ∧
    u.arm.prog = s.arm.prog ∧ onlyChanges [] [.bus, .arm] s u)) ∧
  (∀ (m : Master) (t : Fin 128) (slot : Fin 256) (v w : Word) (s : State), s.reaches m true (tileProgAddr t slot + 4) = true →
    s.armMayProgram m = true → spFind s.arm.staging m = some (t.val, slot.val, w.toNat) → gives (.programSecondWordWrite m t slot v) s
    (fun u => spGet u.arm.prog (256 * t + slot) 0 = w.toNat + v.toNat % 65536 * 2 ^ 32 ∧ spFind u.arm.staging m = none ∧ onlyChanges []
    [.bus, .arm, .upset] s u))

/-- LINK_FRAME_LAUNCH of a port whose frame is due sends one frame of its slots with right codes, HOPS 0, VER 1 and the APPLY of the
period; LINK_FRAME_RECEIVED takes no field of a frame with a wrong code and counts it; of a right frame it takes REACH, RT, the epoch,
and of each processed slot with a right code the status word. Readings of the model this rests on: log 43, 44, 45, 95. -/
def Obligations.LinkFrames : Prop :=
  (∀ (p : Fin 32) (bad : List (Fin 512)) (s : State), s.works (lnkBlock p.val) = true → (s.port p).due = true → launchMode s.mode = true →
    s.nslot p ≤ 512 → s.widths [Reg.LNK_CFG_NSLOT p, Reg.LNK_CFG2_SPLIT p, Reg.LNK_CFG_PEER p, Reg.LNK_CFG2_CHAINB p, Reg.LNK_CFG2_CSIG
    p, Reg.LNK_RT_RT p, Reg.LNK_CFG_END p, Reg.LNK_CFG_HOLD p, Reg.MIR_EPOCH_EPOCH, Reg.MQT_LFRAME_NOW] = true → gives
    (.linkFrameLaunch p bad) s (fun t => (t.port p).due = false ∧ frameCrcOk (t.lastLink p) = true ∧ hcrcOk (headerOf (t.lastLink p)) =
    true ∧ (t.lastLink p).length = 36 + 12 * s.nslot p ∧ hHops (headerOf (t.lastLink p)) = 0 ∧ hVer (headerOf (t.lastLink p)) = 1 ∧
    hNslot (headerOf (t.lastLink p)) = s.nslot p ∧ hApply (headerOf (t.lastLink p)) = (s.frm.t0 + s.frameNs * (1 + s.rd
    (Reg.LNK_CFG_LAT p))) % 2 ^ 32 ∧ (t.port p).apply = (s.frm.t0 + s.frameNs * (1 + s.rd (Reg.LNK_CFG_LAT p))) % 2 ^ 32)) ∧
  (∀ (p : Fin 32) (ret : Bool) (f : List Byte) (rt : BitVec 24) (s : State), s.portHears p = true → frameCrcOk (f.map BitVec.toNat) =
    false ∨ hcrcOk (headerOf (f.map BitVec.toNat)) = false → gives (.linkFrameReceived p ret f rt) s (fun t => t.flag
    (Reg.LNK_ALRM_CRCERR p) = true ∧ t.rd (Reg.LNK_CNT_CRCERR p) = min (s.rd (Reg.LNK_CNT_CRCERR p) + 1) (2 ^ (Reg.LNK_CNT_CRCERR
    p).wid - 1) ∧ (t.port p).good = 0 ∧ (t.port p).steady = 0 ∧ onlyChanges [Reg.LNK_ALRM_CRCERR p, Reg.LNK_CNT_CRCERR p] [.lnk] s t)) ∧
  (∀ (p : Fin 32) (ret : Bool) (f : List Byte) (rt : BitVec 24) (s : State), s.portHears p = true → frameCrcOk (f.map BitVec.toNat) = true
    → hcrcOk (headerOf (f.map BitVec.toNat)) = true → bitsOf (headerOf (f.map BitVec.toNat)) 197 10 = bitsOf (s.chainBits p) 197 10 →
    hHops (headerOf (f.map BitVec.toNat)) ≠ 0 ∨ hEnd (headerOf (f.map BitVec.toNat)) ≠ s.rd (Reg.LNK_CFG_END p) → s.nslot p ≤ 512 →
    gives (.linkFrameReceived p ret f rt) s (fun t => t.rd (Reg.LNK_REACH_REACH p) = hHops (headerOf (f.map BitVec.toNat)) ∧ t.rd
    (Reg.LNK_RT_RT p) = rt.toNat ∧ (t.port p).good = (s.port p).good + 1 ∧ hEpoch (headerOf (f.map BitVec.toNat)) ≤ t.rd
    Reg.MIR_EPSEEN_EPSEEN ∧ (∀ j : Fin 512, j.val < s.nslot p → t.flag (Reg.LNK_NODE_REACHED p j) = slotReached (headerOf (f.map
    BitVec.toNat)) j) ∧ (∀ j : Fin 512, j.val < s.nslot p → slotReached (headerOf (f.map BitVec.toNat)) j = true → slotOk (s.portIndex
    p j) true (frameSlot (f.map BitVec.toNat) j) = true → t.rd (Reg.LNK_NODE_STATUS p j) = leNat (frameSlot (f.map BitVec.toNat) j) %
    65536)))

/-- LINK_RX_ALIGN takes DOWN to ALIGN and LINK_RX_LOS any state but ERROR, which stays, to DOWN, with LOS; LINK_RANGE_START takes ALIGN
to RANGE after eight right frames; LINK_IDCHECK_START goes on to IDCHECK with the reference of REACH, and stops in ERROR where more
nodes answer than slots or the round trip is too long; RESTART begins again; LINK_BREAK degrades the port, and LINK_SWAP_DETECTED stops
it in ERROR. A write of the point mirror for a present submodule queues the operation where its queue of four has room, and is refused
with PQFULL where it is full, or with STATE where no submodule is present; POINT_REPLY_TIMEOUT repeats an operation three times and
then gives it up with PTIMEOUT. Readings of the model this rests on: log 46, 47. -/
def Obligations.LinkBringUpAndPoints : Prop :=
  (∀ (p : Fin 32) (invert : Bool) (s : State), s.works (lnkBlock p.val) = true → s.lstate p = lDown → (s.port p).lost = false → gives
    (.linkRxAlign p invert) s (fun t => t.lstate p = lAlign ∧ (t.port p).aligned = true ∧ (t.port p).good = 0 ∧ (invert = true → t.flag
    (Reg.LNK_STAT_RXPINV p) = !s.flag (Reg.LNK_STAT_RXPINV p) ∨ 1 < s.rd (Reg.LNK_STAT_RXPINV p)) ∧ onlyChanges [Reg.LNK_STAT_LSTATE p,
    Reg.LNK_STAT_RXPINV p] [.lnk] s t)) ∧
  (∀ (p : Fin 32) (s : State), s.works (lnkBlock p.val) = true → (s.port p).aligned = true → gives (.linkRxLos p) s (fun t => t.lstate p =
    (if s.lstate p = lError then lError else lDown) ∧ (t.port p).aligned = false ∧ t.flag (Reg.LNK_ALRM_LOS p) = true ∧ onlyChanges
    [Reg.LNK_STAT_LSTATE p, Reg.LNK_ALRM_LOS p] [.lnk] s t)) ∧
  (∀ (p : Fin 32) (s : State), s.lstate p = lAlign → 8 ≤ (s.port p).good → gives (.linkRangeStart p) s (fun t => t.lstate p = lRange ∧
    (t.port p).steady = 0 ∧ onlyChanges [Reg.LNK_STAT_LSTATE p] [.lnk] s t)) ∧
  (∀ (p : Fin 32) (s : State), s.lstate p = lRange → 16 ≤ (s.port p).steady → s.nslot p ≤ 512 → (∀ j : Fin 512, j.val ∈ s.reachedSlots p →
    stBit (s.rd (Reg.LNK_NODE_STATUS p j)) 6 = true) → s.rd (Reg.LNK_REACH_REACH p) ≤ s.nslot p → s.rd (Reg.LNK_RT_RT p) ≤ s.rtLimit p
    → s.reachedSlots p ≠ [] → gives (.linkIdcheckStart p) s (fun t => t.lstate p = lIdcheck ∧ t.rd (Reg.LNK_REACH_REF p) = s.rd
    (Reg.LNK_REACH_REACH p) % 2 ^ (Reg.LNK_REACH_REF p).wid ∧ (t.port p).refRt = s.rd (Reg.LNK_RT_RT p) ∧ (s.rd (Reg.LNK_REACH_REACH p)
    < s.nslot p → t.flag (Reg.LNK_ALRM_COUNT p) = true) ∧ (∀ j : Fin 512, j.val ∈ s.reachedSlots p → t.flag (Reg.LNK_NODE_IDOK p j) =
    false))) ∧
  (∀ (p : Fin 32) (s : State), s.works (lnkBlock p.val) = true → s.lstate p = lRange → 16 ≤ (s.port p).steady → s.nslot p ≤ 512 → (∀ j :
    Fin 512, j.val ∈ s.reachedSlots p → stBit (s.rd (Reg.LNK_NODE_STATUS p j)) 6 = true) → s.nslot p < s.rd (Reg.LNK_REACH_REACH p) →
    gives (.linkIdcheckStart p) s (fun t => t.lstate p = lError ∧ t.flag (Reg.LNK_ALRM_COUNT p) = true ∧ onlyChanges
    [Reg.LNK_STAT_LSTATE p, Reg.LNK_ALRM_COUNT p] [.lnk] s t)) ∧
  (∀ (p : Fin 32) (s : State), s.lstate p = lRange → 16 ≤ (s.port p).steady → s.nslot p ≤ 512 → (∀ j : Fin 512, j.val ∈ s.reachedSlots p →
    stBit (s.rd (Reg.LNK_NODE_STATUS p j)) 6 = true) → s.works (lnkBlock p.val) = true → s.rd (Reg.LNK_REACH_REACH p) ≤ s.nslot p →
    s.rtLimit p < s.rd (Reg.LNK_RT_RT p) → gives (.linkIdcheckStart p) s (fun t => t.lstate p = lError ∧ t.flag (Reg.LNK_ALRM_LONG p) =
    true ∧ onlyChanges [Reg.LNK_STAT_LSTATE p, Reg.LNK_ALRM_LONG p] [.lnk] s t)) ∧
  (∀ (m : Master) (p : Fin 32) (s : State), s.reaches m true (lnkBase p) = true → s.nslot p ≤ 512 → gives (.restart m p) s (fun t =>
    t.lstate p = (if s.works (lnkBlock p.val) = true ∧ (s.port p).aligned = true then lAlign else lDown) ∧ (∀ j : Fin 512, j.val <
    s.nslot p → t.flag (Reg.LNK_NODE_IDOK p j) = false ∧ t.flag (Reg.LNK_NODE_ADMITTED p j) = false) ∧ (t.port p).good = 0 ∧ (t.port
    p).lost = false)) ∧
  (∀ (p : Fin 32) (s : State), s.lstate p = lUp ∨ s.lstate p = lDegraded → 2 ≤ (s.port p).low → gives (.linkBreak p) s (fun t => t.flag
    (Reg.LNK_ALRM_BREAK p) = true ∧ t.lstate p = lDegraded ∧ (t.port p).base = s.rd (Reg.LNK_REACH_REACH p) ∧ onlyChanges
    [Reg.LNK_ALRM_BREAK p, Reg.LNK_STAT_LSTATE p] [.lnk] s t)) ∧
  (∀ (p : Fin 32) (s : State), s.works (lnkBlock p.val) = true → gives (.linkSwapDetected p) s (fun t => t.flag (Reg.LNK_ALRM_SWAP p) =
    true ∧ t.lstate p = lError ∧ onlyChanges [Reg.LNK_ALRM_SWAP p, Reg.LNK_STAT_LSTATE p] [.lnk] s t)) ∧
  (∀ (m : Master) (a : BitVec 18) (v : Word) (s : State), s.reaches m true (0x30000000 + 4 * a.toNat) = true → s.flag (Reg.MOD_SM_PRESENT
    (a.toNat / 32)) = true → (s.pt (a.toNat / 32)).queue.length < 4 → gives (.pointMirrorWrite m a v) s (fun t => (t.pt (a.toNat /
    32)).queue = (s.pt (a.toNat / 32)).queue ++ [(a.toNat % 32, v.toNat)] ∧ (t.pt (a.toNat / 32)).op = (s.pt (a.toNat / 32)).op ∧ t.bus
    = [⟨m, 0, false⟩] ∧ onlyChanges [Reg.LNK_PSTAT_PPEND ((a.toNat / 32) / 256)] [.bus, .lnk] s t)) ∧
  (∀ (m : Master) (a : BitVec 18) (v : Word) (s : State), s.reaches m true (0x30000000 + 4 * a.toNat) = true → s.flag (Reg.MOD_SM_PRESENT
    (a.toNat / 32)) = true → 4 ≤ (s.pt (a.toNat / 32)).queue.length → gives (.pointMirrorWrite m a v) s (fun t => t.flag
    (Reg.LNK_ALRM_PQFULL ((a.toNat / 32) / 256)) = true ∧ t.rd (Reg.LNK_PERR_KIND ((a.toNat / 32) / 256)) = 3 ∧ t.lnk = s.lnk ∧ t.rd
    Reg.INT_PERRCNT_COUNT = min (s.rd Reg.INT_PERRCNT_COUNT + 1) (2 ^ Reg.INT_PERRCNT_COUNT.wid - 1))) ∧
  (∀ (m : Master) (a : BitVec 18) (v : Word) (s : State), s.reaches m true (0x30000000 + 4 * a.toNat) = true → s.flag (Reg.MOD_SM_PRESENT
    (a.toNat / 32)) = false → s.flag Reg.INT_PERR_VALID = false → gives (.pointMirrorWrite m a v) s (fun t => t.rd Reg.INT_PERR_KIND =
    peState ∧ t.rd Reg.INT_PERRADDR_ADDR = 0x30000000 + 4 * a.toNat ∧ t.rd Reg.INT_PERR_MASTER = m.val ∧ onlyChanges
    [Reg.INT_PERRCNT_COUNT, Reg.INT_PERR_VALID, Reg.INT_PERR_KIND, Reg.INT_PERR_MASTER, Reg.INT_PERRADDR_ADDR] [.bus] s t)) ∧
  (∀ (j : Fin 8192) (o : PointOp) (s : State), (s.pt j).op = some o → o.again = false → 4 ≤ o.age → o.tries < 3 → gives
    (.pointReplyTimeout j) s (fun t => (t.pt j).op = some { o with tries := o.tries + 1, again := true } ∧ (t.pt j).queue = (s.pt
    j).queue ∧ onlyChanges [] [.lnk] s t)) ∧
  (∀ (j : Fin 8192) (o : PointOp) (s : State), (s.pt j).op = some o → o.again = false → 4 ≤ o.age → 3 ≤ o.tries → o.bring = false → gives
    (.pointReplyTimeout j) s (fun t => (t.pt j).op = none ∧ t.flag (Reg.LNK_ALRM_PTIMEOUT o.port) = true ∧ t.rd (Reg.LNK_PERR_KIND
    o.port) = 2 ∧ t.rd (Reg.LNK_PERR_ADDR o.port) = (j.val * 32 + o.point) % 2 ^ (Reg.LNK_PERR_ADDR o.port).wid ∧ onlyChanges
    [Reg.LNK_ALRM_PTIMEOUT o.port, Reg.LNK_PERR_KIND o.port, Reg.LNK_PERR_ADDR o.port, Reg.LNK_PSTAT_PTOUT o.port] [.lnk] s t))

/-- MODULATOR_FRAME modulates where its conditions hold: in a forming mode ACTIVE is then set with the compute start in ATIME; where
they do not hold every submodule is blocked; with nearest-level modulation each arm inserts the count of submodules for the whole
frame, and by NLPWM the one pulse, that its reference word asks for (R184 to R186), from the candidates in priority order (R190: after
blocked frames the first of them; with SWMAX = 0 those inserted before as far as the count allows; with SWMAX = 255 no exchange beyond
BAND is left to make), an unavailable submodule is bypassed; at the frame start the Rasp ranks the available submodules of each arm by
the key of R187; with carriers each submodule starts the frame inserted where R194 has it so; a residue mismatch fences MOD_ with a
trip. TELEMETRY_STALE marks a submodule whose telemetry is older than TELHOLD. Readings of the model this rests on: log 40, 41, 87, 95.
-/
def Obligations.Modulation : Prop :=
  (∀ (s : State), s.modulates = true → isForming s.mode = true → s.unreadable 7 (fun w => decide (16384 ≤ w)) = false → gives
    (.modulatorFrame none none) s (fun t => t.flag Reg.MOD_STAT_ACTIVE = true ∧ t.rd Reg.MOD_ATIME_ATIME = s.frm.t0 % 2 ^ 32 ∧
    t.mod.blocked = false ∧ t.frm = s.frm ∧ t.mode = s.mode)) ∧
  (∀ (s : State), s.modulates = true → isForming s.mode = false → s.unreadable 7 (fun w => decide (16384 ≤ w)) = false → gives
    (.modulatorFrame none none) s (fun t => t.flag Reg.MOD_STAT_ACTIVE = false ∧ t.mod.cmds = [] ∧ t.rd Reg.MOD_ATIME_ATIME = s.frm.t0
    % 2 ^ 32)) ∧
  (∀ (s : State), s.modulates = false → gives (.modulatorFrame none none) s (fun t => t.mod.cmds = [] ∧ t.mod.blocked = true ∧ t.flag
    Reg.MOD_STAT_ACTIVE = false ∧ (s.unreadable 7 (fun w => decide (16384 ≤ w)) = false → isForming s.mode = true → s.formingDropped =
    false → s.worksNow .mod = true → s.flag Reg.FRM_STAT_FVALID = false ∨ s.flag Reg.ARM_STAT_AVALID = false → t.flag
    Reg.MOD_ALRM_INVREF = true) ∧ (s.unstruck 7 (fun _ => true) = true → onlyChanges [Reg.MOD_STAT_ACTIVE, Reg.MOD_ALRM_INVREF] [.mod]
    s t))) ∧
  (∀ (a : Fin 12) (s : State), s.modulates = true → isForming s.mode = true → s.unreadable 7 (fun w => decide (16384 ≤ w)) = false →
    s.armMembers a ≠ [] → s.lrd (Reg.MOD_ARMCFG_MODE a) ≠ 2 → ((s.armMod a).order.isPerm (s.armAvail a)) = true → gives
    (.modulatorFrame none none) s (fun t => t.rd (Reg.MOD_ARMSTAT_NINS a) = s.wholeCount a ∧ t.rd (Reg.MOD_ARMSTAT_NAVAIL a) =
    (s.armAvail a).length ∧ t.rd (Reg.MOD_ARMLEV_NLEV a) = pattern 16 (s.levelPol a * (s.wholeCount a : Nat)) ∧ t.rd
    (Reg.MOD_ARMLEV_FRAC a) = s.pulseWidth a ∧ (65536 * (s.levelMembers a).length < (s.levelAsked a).natAbs → t.flag
    Reg.MOD_ALRM_LEVSAT = true ∧ t.rdBit Reg.MOD_ALRMARM_LEVSAT a = true) ∧ (t.armMod a).polR = s.levelPol a ∧ (t.armMod a).carry = (if
    s.lrd (Reg.MOD_ARMCFG_MODE a) = 1 ∧ s.pulseWidth a = 0 then s.levelPol a * ((s.levelMag a : Nat) - (65536 * s.wholeCount a : Nat))
    else 0))) ∧
  (∀ (a : Fin 12) (s : State), s.modulates = true → isForming s.mode = true → s.unreadable 7 (fun w => decide (16384 ≤ w)) = false →
    s.armMembers a ≠ [] → s.lrd (Reg.MOD_ARMCFG_MODE a) ≠ 2 → ((s.armMod a).order.isPerm (s.armAvail a)) = true → gives
    (.modulatorFrame none none) s (fun t => (∀ j ∈ s.armMembers a, (s.flag (Reg.MOD_SM_AVAIL j) = false → spGet t.mod.cmds j 0x80 = if
    s.bypReq a j = true then 64 else 0) ∧ (s.flag (Reg.MOD_SM_AVAIL j) = true → j ∉ s.candidates a → spGet t.mod.cmds j 0x80 = 0)) ∧
    ((s.candidates a).filter (fun j => spGet t.mod.cmds j 0x80 = insBits (s.levelPol a))).length = s.wholeCount a ∧ (∀ j ∈ s.candidates
    a, spGet t.mod.cmds j 0x80 = insBits (s.levelPol a) ∨ spGet t.mod.cmds j 0x80 = if s.pulseWidth a ≠ 0 ∧ (s.candidates a).find? (fun
    k => decide (spGet t.mod.cmds k 0x80 ≠ insBits (s.levelPol a))) = some j then pulseBits (s.levelPol a) (s.pulseWidth a) else 0))) ∧
  (∀ (a : Fin 12) (s : State), s.modulates = true → isForming s.mode = true → s.unreadable 7 (fun w => decide (16384 ≤ w)) = false →
    s.armMembers a ≠ [] → s.lrd (Reg.MOD_ARMCFG_MODE a) ≠ 2 → ((s.armMod a).order.isPerm (s.armAvail a)) = true → s.mod.blocked = true
    → gives (.modulatorFrame none none) s (fun t => ∀ j ∈ s.candidates a, spGet t.mod.cmds j 0x80 = insBits (s.levelPol a) ↔
    (s.candidates a).idxOf j < s.wholeCount a)) ∧
  (∀ (a : Fin 12) (j k : Fin 8192) (s : State), s.modulates = true → isForming s.mode = true → s.unreadable 7 (fun w => decide (16384 ≤
    w)) = false → s.armMembers a ≠ [] → s.lrd (Reg.MOD_ARMCFG_MODE a) ≠ 2 → ((s.armMod a).order.isPerm (s.armAvail a)) = true → s.lrd
    (Reg.RSP_BAND_SWMAX a) = 0 → ((s.candidates a).filter (s.wasIn a)).length ≤ s.wholeCount a → j.val ∈ s.candidates a → k.val ∈
    s.candidates a → gives (.modulatorFrame none none) s (fun t => (s.wasIn a j = true → spGet t.mod.cmds j 0x80 = insBits (s.levelPol
    a)) ∧ (s.wasIn a j = false → s.wasIn a k = false → before (s.candidates a) j k = true → spGet t.mod.cmds k 0x80 = insBits
    (s.levelPol a) → spGet t.mod.cmds j 0x80 = insBits (s.levelPol a)))) ∧
  (∀ (a : Fin 12) (j k : Fin 8192) (s : State), s.modulates = true → isForming s.mode = true → s.unreadable 7 (fun w => decide (16384 ≤
    w)) = false → s.armMembers a ≠ [] → s.lrd (Reg.MOD_ARMCFG_MODE a) ≠ 2 → ((s.armMod a).order.isPerm (s.armAvail a)) = true → s.lrd
    (Reg.RSP_BAND_SWMAX a) = 0 → s.wholeCount a < ((s.candidates a).filter (s.wasIn a)).length → j.val ∈ s.candidates a → k.val ∈
    s.candidates a → gives (.modulatorFrame none none) s (fun t => (spGet t.mod.cmds j 0x80 = insBits (s.levelPol a) → s.wasIn a j =
    true) ∧ (s.wasIn a j = true → s.wasIn a k = true → before (s.candidates a) j k = true → spGet t.mod.cmds k 0x80 = insBits
    (s.levelPol a) → spGet t.mod.cmds j 0x80 = insBits (s.levelPol a)))) ∧
  (∀ (a : Fin 12) (i b : Fin 8192) (s : State), s.modulates = true → isForming s.mode = true → s.unreadable 7 (fun w => decide (16384 ≤
    w)) = false → s.armMembers a ≠ [] → s.lrd (Reg.MOD_ARMCFG_MODE a) ≠ 2 → ((s.armMod a).order.isPerm (s.armAvail a)) = true → s.lrd
    (Reg.RSP_BAND_SWMAX a) = 255 → (s.candidates a).Pairwise (fun j k => if s.levelPol a = (s.armMod a).polR then signed 16 (s.rd
    (Reg.RSP_KEY_KEY j)) ≤ signed 16 (s.rd (Reg.RSP_KEY_KEY k)) else signed 16 (s.rd (Reg.RSP_KEY_KEY k)) ≤ signed 16 (s.rd
    (Reg.RSP_KEY_KEY j))) → i.val ∈ s.candidates a → b.val ∈ s.candidates a → before (s.candidates a) b i = true → s.mayMove a i = true
    → s.mayMove a b = true → gives (.modulatorFrame none none) s (fun t => spGet t.mod.cmds i.val 0x80 = insBits (s.levelPol a) → spGet
    t.mod.cmds b.val 0x80 = insBits (s.levelPol a) ∨ (signed 16 (s.rd (Reg.RSP_KEY_KEY i)) - signed 16 (s.rd (Reg.RSP_KEY_KEY
    b))).natAbs ≤ s.lrd (Reg.RSP_BAND_BAND a))) ∧
  (∀ (a : Fin 12) (i : Fin 8192) (j : Nat) (s : State), s.modulates = true → isForming s.mode = true → s.unreadable 7 (fun w => decide
    (16384 ≤ w)) = false → s.lrd (Reg.MOD_ARMCFG_MODE a) = 2 → (s.armMembers a)[i.val]? = some j → s.flag (Reg.MOD_SM_AVAIL j) = true →
    gives (.modulatorFrame none none) s (fun t => spGet t.mod.cmds j 0x80 % 4 = if (s.levelPol a = -1 ∧ s.rd (Reg.MOD_SM_TYPE j) % 2 =
    0) ∨ s.carrierOn a j i (s.armMembers a).length (if (s.armMod a).mode = 2 ∧ s.mod.blocked = false ∧ (s.armMod a).cper = s.cper a
    then (s.armMod a).cnt % s.cper a else 0) = false then 0 else if s.levelPol a = 1 then 1 else 2)) ∧
  (∀ (x : FrameIn) (a : Fin 12) (s : State), s.flag (Reg.PTP_TRGCFG_EN 0) = true → s.regionOn .net = true → s.regionOn .mod = true → gives
    (.frameStart x) s (fun t => t.rd Reg.MOD_ATIME_ATIME = t.frm.t0 % 2 ^ 32 ∧ (t.works .rsp = true → ((t.armMod a).order.isPerm
    (t.armAvail a)) = true ∧ (t.armMod a).order.Pairwise (fun j k => signed 16 (t.rd (Reg.RSP_KEY_KEY j)) < signed 16 (t.rd
    (Reg.RSP_KEY_KEY k)) ∨ (t.rd (Reg.RSP_KEY_KEY j) = t.rd (Reg.RSP_KEY_KEY k) ∧ j < k)) ∧ (∀ j ∈ t.armAvail a, t.rd (Reg.RSP_KEY_KEY
    j) = pattern 16 (satInt 16 (t.keyOf a j))) ∧ (s.mod.blocked = true → (t.armMod a).polR = 1)))) ∧
  (∀ (slot : Fin 8192) (rsp : Option (Fin 8192)) (s : State), s.worksNow .mod = true → gives (.modulatorFrame (some slot) rsp) s (fun t =>
    t.fenced .mod = true ∧ t.flag Reg.MOD_ALRM_RESERR = true ∧ t.flag Reg.SUP_TRIP_MODFENCE = true ∧ t.mod.cmds = [] ∧ t.mod.blocked =
    true ∧ t.flag Reg.MOD_STAT_ACTIVE = false)) ∧
  (∀ (j : Fin 8192) (s : State), s.flag (Reg.MOD_SM_PRESENT j) = true → s.telOld j = true → s.flag (Reg.MOD_SM_STALE j) = false → gives
    (.telemetryStale j) s (fun t => t.flag (Reg.MOD_SM_STALE j) = true ∧ ((spFind s.mod.tel j).isSome = true → t.flag
    Reg.MOD_ALRM_TELSTALE = true) ∧ onlyChanges [Reg.MOD_SM_STALE j, Reg.MOD_ALRM_TELSTALE] [] s t))

/-- NODE_FRAME_PROCESS of a right frame sends it on, on the other side, with HOPS one higher and right codes, its own slot an uplink
slot and every other slot as it was; the highest epoch with ACTIVE is kept; a command that meets the conditions of R226 is kept for its
apply time. A frame on the D side that tells of swapped sides is answered with the swap notice. NODE_FRAME_REPEAT sends the returning
frame unchanged and measures the round trip. Readings of the model this rests on: log 21, 48. -/
def Obligations.NodeFrames : Prop :=
  (∀ (j : Fin 8192) (fromD : Bool) (f : List Byte) (arr : Nat) (x : NodeSense) (s : State), frameCrcOk (f.map BitVec.toNat) = true →
    hcrcOk (headerOf (f.map BitVec.toNat)) = true → hHops (headerOf (f.map BitVec.toNat)) < hNslot (headerOf (f.map BitVec.toNat)) →
    fromD = false ∨ hEnd (headerOf (f.map BitVec.toNat)) = 1 ∨ hTopo (headerOf (f.map BitVec.toNat)) ≠ 0 ∨ spGet (s.node j).side 0 0 ≠
    0 → gives (.nodeFrameProcess j fromD f arr x) s (fun t => frameCrcOk (t.lastNode j (!fromD) false) = true ∧ hcrcOk (headerOf
    (t.lastNode j (!fromD) false)) = true ∧ hHops (headerOf (t.lastNode j (!fromD) false)) = hHops (headerOf (f.map BitVec.toNat)) + 1
    ∧ slotOk (slotIndex (headerOf (f.map BitVec.toNat)) (if hEnd (headerOf (f.map BitVec.toNat)) = 0 then hHops (headerOf (f.map
    BitVec.toNat)) else hNslot (headerOf (f.map BitVec.toNat)) - 1 - hHops (headerOf (f.map BitVec.toNat)))) true (frameSlot
    (t.lastNode j (!fromD) false) (if hEnd (headerOf (f.map BitVec.toNat)) = 0 then hHops (headerOf (f.map BitVec.toNat)) else hNslot
    (headerOf (f.map BitVec.toNat)) - 1 - hHops (headerOf (f.map BitVec.toNat)))) = true ∧ (∀ k : Fin 1024, k.val < hNslot (headerOf
    (f.map BitVec.toNat)) → k.val ≠ (if hEnd (headerOf (f.map BitVec.toNat)) = 0 then hHops (headerOf (f.map BitVec.toNat)) else hNslot
    (headerOf (f.map BitVec.toNat)) - 1 - hHops (headerOf (f.map BitVec.toNat))) → frameSlot (t.lastNode j (!fromD) false) k =
    frameSlot (f.map BitVec.toNat) k) ∧ ((s.node j).st ≠ nInit → hActive (headerOf (f.map BitVec.toNat)) = true → (t.node j).eh = max
    (s.node j).eh (hEpoch (headerOf (f.map BitVec.toNat)))) ∧ onlyNode j s t ∧ onlyChanges [] [.sent, .nodes] s t)) ∧
  (∀ (j : Fin 8192) (fromD : Bool) (f : List Byte) (arr : Nat) (x : NodeSense) (s : State), frameCrcOk (f.map BitVec.toNat) = true →
    hcrcOk (headerOf (f.map BitVec.toNat)) = true → hHops (headerOf (f.map BitVec.toNat)) < hNslot (headerOf (f.map BitVec.toNat)) →
    fromD = false ∨ hEnd (headerOf (f.map BitVec.toNat)) = 1 ∨ hTopo (headerOf (f.map BitVec.toNat)) ≠ 0 ∨ spGet (s.node j).side 0 0 ≠
    0 → hVer (headerOf (f.map BitVec.toNat)) = 1 → hActive (headerOf (f.map BitVec.toNat)) = true → hCsig (headerOf (f.map
    BitVec.toNat)) = (s.node j).csig → (s.node j).eh ≤ hEpoch (headerOf (f.map BitVec.toNat)) → (s.node j).admitted = true → ((s.node
    j).header j (headerOf (f.map BitVec.toNat)) arr s.clk.ticks).sync = true → slotOk (slotIndex (headerOf (f.map BitVec.toNat)) (if
    hEnd (headerOf (f.map BitVec.toNat)) = 0 then hHops (headerOf (f.map BitVec.toNat)) else hNslot (headerOf (f.map BitVec.toNat)) - 1
    - hHops (headerOf (f.map BitVec.toNat)))) false (frameSlot (f.map BitVec.toNat) (if hEnd (headerOf (f.map BitVec.toNat)) = 0 then
    hHops (headerOf (f.map BitVec.toNat)) else hNslot (headerOf (f.map BitVec.toNat)) - 1 - hHops (headerOf (f.map BitVec.toNat)))) =
    true → 250 ≤ (diff32 (hApply (headerOf (f.map BitVec.toNat))) ((((s.node j).header j (headerOf (f.map BitVec.toNat)) arr
    s.clk.ticks).timeAt arr).toNat / 20 + ((f.map BitVec.toNat).length + 3) * 4)) → (diff32 (hApply (headerOf (f.map BitVec.toNat)))
    ((((s.node j).header j (headerOf (f.map BitVec.toNat)) arr s.clk.ticks).timeAt arr).toNat / 20 + ((f.map BitVec.toNat).length + 3)
    * 4)) ≤ ((2 * (hPeriod (headerOf (f.map BitVec.toNat)) * 500) : Nat) : Int) → (s.node j).cur = none → gives (.nodeFrameProcess j
    fromD f arr x) s (fun t => (t.node j).cmds.any (fun c => decide (c.apply = hApply (headerOf (f.map BitVec.toNat)))) = true ∧
    (t.node j).eh = hEpoch (headerOf (f.map BitVec.toNat)) ∧ onlyNode j s t)) ∧
  (∀ (j : Fin 8192) (f : List Byte) (arr : Nat) (x : NodeSense) (s : State), hcrcOk (headerOf (f.map BitVec.toNat)) = true → hEnd
    (headerOf (f.map BitVec.toNat)) = 0 → hTopo (headerOf (f.map BitVec.toNat)) = 0 → spGet (s.node j).side 0 0 = 0 → gives
    (.nodeFrameProcess j true f arr x) s (fun t => t.sent.filter notMsi = .swap j :: s.sent.filter notMsi ∧ onlyChanges [] [.sent] s t)) ∧
  (∀ (j : Fin 8192) (fromD : Bool) (f : List Byte) (arr : Nat) (s : State), gives (.nodeFrameRepeat j fromD f arr) s (fun t => t.lastNode
    j (!fromD) true = (f.map BitVec.toNat) ∧ (∀ a ∈ spFind (s.node j).left (sideNo fromD), spGet (t.node j).rtt (sideNo fromD) 0 =
    ((arr : Int) - a).toNat) ∧ (t.node j).st = (s.node j).st ∧ onlyNode j s t ∧ onlyChanges [] [.sent, .nodes] s t))

/-- NODE_SELF_TEST_PASS, NODE_FOLD, NODE_UNFOLD, NODE_APPLY, NODE_HOLD_ENTRY, NODE_BLOCK_ENTRY, NODE_ACQUIRE_TIMEOUT,
NODE_PROTECTION_TRIP and NODE_RX_ALIGN change the states of their node as R214, R217, R224 and R228 say, and no other node. Readings of
the model this rests on: log 48, 49. -/
def Obligations.NodeStates : Prop :=
  (∀ (j : Fin 8192) (s : State), (s.node j).st = nInit → gives (.nodeSelfTestPass j) s (fun t => (t.node j) =
    { (s.node j) with st := nAcquire, hdrTick := s.clk.ticks } ∧ onlyNode j s t ∧ onlyChanges [] [.nodes] s t)) ∧
  (∀ (j : Fin 8192) (d : Bool) (s : State), spGet (s.node j).side (sideNo d) 0 = 0 ∨ 2 ≤ spGet (s.node j).noRet (sideNo d) 0 → gives
    (.nodeFold j d) s (fun t => spGet (t.node j).fold (sideNo d) 0 = 1 ∧ (t.node j).st = (s.node j).st ∧ onlyNode j s t ∧ onlyChanges
    [] [.nodes] s t)) ∧
  (∀ (j : Fin 8192) (d : Bool) (s : State), spGet (s.node j).fold (sideNo d) 0 = 1 → 8 ≤ spGet (s.node j).ret (sideNo d) 0 → gives
    (.nodeUnfold j d) s (fun t => spGet (t.node j).fold (sideNo d) 0 = 0 ∧ (t.node j).st = (s.node j).st ∧ onlyNode j s t ∧ onlyChanges
    [] [.nodes] s t)) ∧
  (∀ (j : Fin 8192) (c : NodeCmd) (r : List NodeCmd) (s : State), (s.node j).st = nRun ∨ (s.node j).st = nHold ∨ (s.node j).st = nBlocked
    → (s.node j).cmds = c :: r → gives (.nodeApply j 0) s (fun t => (t.node j).st = nRun ∧ (t.node j).cur = some c ∧ (t.node j).cmds =
    r ∧ ((s.node j).byp = false → (t.node j).sw = c.code 0) ∧ (t.node j).byp = ((s.node j).byp || bitAt c.bits 6) ∧ onlyNode j s t)) ∧
  (∀ (j : Fin 8192) (k : Fin 2) (c : NodeCmd) (s : State), (s.node j).st = nRun → (s.node j).ran = true → (s.node j).cur = some c → gives
    (.nodeApply j k.succ) s (fun t => ((s.node j).byp = false → (t.node j).sw = c.code k.succ) ∧ (t.node j).st = nRun ∧ (t.node j).cur
    = some c ∧ onlyNode j s t)) ∧
  (∀ (j : Fin 8192) (c : NodeCmd) (s : State), (s.node j).st = nRun → (s.node j).ran = true → (s.node j).cur = some c → (s.node j).cmdBy
    ((c.apply + c.per) % 2 ^ 32) = false → gives (.nodeHoldEntry j) s (fun t => (t.node j) = { (s.node j) with st := nHold } ∧ onlyNode
    j s t)) ∧
  (∀ (j : Fin 8192) (c : NodeCmd) (s : State), (s.node j).st = nHold → (s.node j).cur = some c → (s.node j).cmdBy ((c.apply + (c.hold + 1)
    * c.per) % 2 ^ 32) = false → gives (.nodeBlockEntry j) s (fun t => (t.node j).st = nBlocked ∧ ((s.node j).byp = false → (t.node
    j).sw = 4) ∧ (t.node j).holdCnt = min ((s.node j).holdCnt + c.hold) 65535 ∧ onlyNode j s t)) ∧
  (∀ (j : Fin 8192) (s : State), (s.node j).st ≠ nInit → (s.node j).st ≠ nFault → (s.node j).st ≠ nAcquire → gives (.nodeAcquireTimeout j)
    s (fun t => (t.node j).st = nAcquire ∧ (t.node j).admitted = false ∧ (t.node j).sync = false ∧ (t.node j).cmds = [] ∧ ((s.node
    j).byp = false → (t.node j).sw = 4) ∧ onlyNode j s t)) ∧
  (∀ (j : Fin 8192) (cause : Fin 16) (sw : Fin 5) (s : State), (s.node j).st ≠ nInit → gives (.nodeProtectionTrip j cause sw) s (fun t =>
    (t.node j).st = nFault ∧ (t.node j).cause = cause ∧ ((s.node j).byp = false → (t.node j).sw = sw) ∧ (t.node j).byp = (s.node j).byp
    ∧ onlyNode j s t ∧ onlyChanges [] [.nodes] s t)) ∧
  (∀ (j : Fin 8192) (d aligned invert : Bool) (s : State), gives (.nodeRxAlign j d aligned invert) s (fun t => spGet (t.node j).side
    (sideNo d) 0 = (if aligned then 1 else 0) ∧ (invert = true → spGet (t.node j).inv (sideNo d) 0 = 1 - spGet (s.node j).inv (sideNo
    d) 0) ∧ (invert = false → (t.node j).inv = (s.node j).inv) ∧ (t.node j).st = (s.node j).st ∧ onlyNode j s t ∧ onlyChanges []
    [.nodes] s t))

/-- RENEW_SEND sends a RENEW with the lease end counted from its sending time on every path; a RENEW received extends LE of a member
that does not hold the Mallet and is answered with ACK; an ACK moves the holder's LE to that of the RENEW acknowledged; a RELEASE and a
HANDOVER are kept for the claim; a copy already seen, and a message with a wrong CRC, change no lease. Readings of the model this rests
on: log 50. -/
def Obligations.LeaseMessages : Prop :=
  (∀ (s : State), s.paired = true → s.works .mir = true → s.mir.holds = true → s.mir.hoOut = none → s.mir.renewing = false ∨
    (s.atFrameStart = true ∧ s.mir.renews.head?.all (fun r => r.2.2 != s.now) = true) → gives (.renewSend) s (fun t => t.mir.renews =
    (s.mir.seq, (t.now + s.leaseNs + 2 ^ 32 - s.skewNs) % 2 ^ 32, t.now) :: s.mir.renews ∧ t.mir.seq = (s.mir.seq + 1) % 2 ^ 32 ∧ (∀ p
    : Fin 4, p.val ∈ s.leasePaths → Sent.lease p 0 (s.rd Reg.MIR_CFG_MEMBER) (s.rd Reg.MIR_EPOCH_EPOCH) (s.rd Reg.MIR_EPSEEN_EPSEEN)
    ((t.now + s.leaseNs + 2 ^ 32 - s.skewNs) % 2 ^ 32) s.mir.seq 0 s.tellState ∈ t.sent) ∧ t.mir.renewing = true ∧ t.rd Reg.MIR_LE_LE =
    s.rd Reg.MIR_LE_LE)) ∧
  (∀ (x : LeaseMsg) (s : State), s.paired = true → s.works .mir = true → x.crcOk = true → x.member.val ≠ s.rd Reg.MIR_CFG_MEMBER → 2 ≤
    x.path.val ∨ s.rd Reg.MIR_CFG_PAIR ≠ 2 → x.seq.toNat ∉ s.mir.seqSeen → s.mir.holds = false → s.widths [Reg.MIR_LE_LE,
    Reg.MIR_EPSEEN_EPSEEN] = true → gives (.leaseRenewReceived x) s (fun t => t.rd Reg.MIR_LE_LE = (if 0 < diff32 x.le.toNat (s.rd
    Reg.MIR_LE_LE) then x.le.toNat else s.rd Reg.MIR_LE_LE) ∧ t.mir.renewSeen = true ∧ t.mir.released = none ∧ t.mir.holds = false ∧
    t.rd Reg.MIR_EPSEEN_EPSEEN = max (s.rd Reg.MIR_EPSEEN_EPSEEN) (max x.epoch.toNat x.seen.toNat) ∧ (∀ p : Fin 4, p.val ∈ s.leasePaths
    → Sent.lease p 1 (s.rd Reg.MIR_CFG_MEMBER) (s.rd Reg.MIR_EPOCH_EPOCH) (t.rd Reg.MIR_EPSEEN_EPSEEN) x.le.toNat s.mir.seq 0
    s.tellState ∈ t.sent) ∧ t.mir.seq = (s.mir.seq + 1) % 2 ^ 32 ∧ onlyChanges [Reg.MIR_LE_LE, Reg.MIR_EPSEEN_EPSEEN,
    Reg.MIR_STAT_PARTNER] [.clk, .sent, .mir] s t)) ∧
  (∀ (x : LeaseMsg) (r : Nat × Nat × Nat) (s : State), s.paired = true → s.works .mir = true → x.crcOk = true → x.member.val ≠ s.rd
    Reg.MIR_CFG_MEMBER → 2 ≤ x.path.val ∨ s.rd Reg.MIR_CFG_PAIR ≠ 2 → x.seq.toNat ∉ s.mir.seqSeen → s.mir.holds = true → x.epoch.toNat
    ≤ s.rd Reg.MIR_EPOCH_EPOCH → s.mir.renews.find? (fun r => decide (r.2.1 = x.le.toNat)) = some r → gives (.leaseAckReceived x) s
    (fun t => t.rd Reg.MIR_LE_LE = x.le.toNat ∧ t.mir.renews = s.mir.renews.takeWhile (fun q => q.2.1 ≠ x.le.toNat) ∧ t.mir.renewing =
    false ∧ t.mir.ackSent = r.2.2 ∧ t.mir.holds = true ∧ onlyChanges [Reg.MIR_LE_LE, Reg.MIR_EPSEEN_EPSEEN, Reg.MIR_STAT_PARTNER]
    [.clk, .mir] s t)) ∧
  (∀ (x : LeaseMsg) (s : State), s.paired = true → s.works .mir = true → x.crcOk = true → x.member.val ≠ s.rd Reg.MIR_CFG_MEMBER → 2 ≤
    x.path.val ∨ s.rd Reg.MIR_CFG_PAIR ≠ 2 → x.seq.toNat ∉ s.mir.seqSeen → gives (.leaseReleaseReceived x) s (fun t => t.flag
    Reg.MIR_ALRM_RELEASED = true ∧ t.mir.released = some s.now ∧ t.mir.partnerShadow = x.shadow ∧ t.mir.partnerDiffers = x.differs ∧
    t.flag Reg.MIR_STAT_PARTNER = true ∧ (∀ p : Fin 4, p.val ∈ s.leasePaths → t.sent.any
    (fun y => match y with | .lease q 1 _ _ _ le _ _ _ => decide (q = p.val ∧ le = x.le.toNat) | _ => false) = true))) ∧
  (∀ (x : LeaseMsg) (s : State), s.paired = true → s.works .mir = true → x.crcOk = true → x.member.val ≠ s.rd Reg.MIR_CFG_MEMBER → 2 ≤
    x.path.val ∨ s.rd Reg.MIR_CFG_PAIR ≠ 2 → x.seq.toNat ∉ s.mir.seqSeen → gives (.leaseHandoverReceived x) s (fun t => t.flag
    Reg.MIR_ALRM_RELEASED = true ∧ t.mir.hoIn = some x.frame.toNat ∧ t.sent.filter notMsi = s.sent.filter notMsi)) ∧
  (∀ (x : LeaseMsg) (s : State), s.paired = true → s.works .mir = true → x.crcOk = true → x.member.val ≠ s.rd Reg.MIR_CFG_MEMBER → 2 ≤
    x.path.val ∨ s.rd Reg.MIR_CFG_PAIR ≠ 2 → x.seq.toNat ∈ s.mir.seqSeen → gives (.leaseRenewReceived x) s (fun t => t.mir = s.mir ∧
    t.rd Reg.MIR_LE_LE = s.rd Reg.MIR_LE_LE ∧ t.flag Reg.MIR_STAT_PARTNER = true ∧ onlyChanges [Reg.MIR_STAT_PARTNER] [.clk] s t)) ∧
  (∀ (x : LeaseMsg) (s : State), x.crcOk = false → gives (.leaseHandoverReceived x) s (fun t => onlyChanges [] [] s t))

/-- MALLET_CLAIM of a shadow whose conditions hold takes the Mallet with the next epoch of its parity; PAIR_IDLE_WAIT_END takes it, or
lets the device enter SHADOW at the next frame start where the partner has been heard; HANDOVER of a WARM holder names the frame four
ahead and sends it to the partner; MIR_EPOCH takes only a higher value, in IDLE and MAINTENANCE. Readings of the model this rests on:
log 22, 50, 67. -/
def Obligations.MalletClaims : Prop :=
  (∀ (e : Nat) (s : State), s.paired = true → s.works .mir = true → s.atFrameStart = true → s.flag Reg.MIR_CTRL_CLAIMEN = true → s.mode =
    mShadow → s.mir.holds = false → (if s.mir.hoIn = some (s.rd Reg.MQT_LFRAME_NOW) then true else s.leaseOut && s.chainQuiet) = true →
    s.newEpoch = some e → gives (.malletClaim) s (fun t => t.mir.holds = true ∧ t.rd Reg.MIR_EPOCH_EPOCH = e ∧ t.rd
    Reg.MIR_EPSEEN_EPSEEN = e ∧ s.rd Reg.MIR_EPSEEN_EPSEEN < e ∧ (s.rd Reg.MIR_CFG_MEMBER < 2 → e % 2 = s.rd Reg.MIR_CFG_MEMBER) ∧ t.rd
    Reg.MIR_STAT_ROLE = 1 ∧ t.flag Reg.MIR_ALRM_CLAIMED = true ∧ t.mode = s.claimMode % 2 ^ Reg.SUP_MODE_MODE.wid ∧ t.rd
    Reg.MIR_CLAIMTIME_TIME = s.now % 2 ^ 32)) ∧
  (∀ (e : Nat) (s : State), s.ctl.reqWait = true → s.mode = mIdle → s.timerOn tmIdleWait = true → s.mir.active = none → s.mir.renewSeen =
    false → s.newEpoch = some e → gives (.pairIdleWaitEnd) s (fun t => t.mir.holds = true ∧ t.rd Reg.MIR_EPOCH_EPOCH = e ∧
    t.ctl.reqWait = false ∧ t.mode = mIdle ∧ t.timerOn tmIdleWait = false)) ∧
  (∀ (s : State), s.ctl.reqWait = true → s.mode = mIdle → s.timerOn tmIdleWait = true → s.mir.renewSeen = true → gives (.pairIdleWaitEnd)
    s (fun t => t.ctl.shadowDue = true ∧ t.mode = mIdle ∧ t.mir = s.mir ∧ t.ctl.reqWait = false ∧ t.ctl.req = s.ctl.req ∧ t.timerOn
    tmIdleWait = false)) ∧
  (∀ (m : Master) (s : State), s.reaches m true 0x41030000 = true → s.rd Reg.MIR_CFG_PAIR = 1 → s.mir.holds = true → s.works .mir = true →
    s.rd Reg.MIR_STAT_LANES ≠ 0 → s.mir.partnerShadow = true → s.mir.partnerDiffers = false → (signed 32 (s.rd
    Reg.MIR_TOFS_TOFS)).natAbs ≤ 200 → s.mir.hoOut = none → gives (.handover m) s (fun t => t.mir.hoOut = some ((s.rd
    Reg.MQT_LFRAME_NOW + 4) % 2 ^ 16) ∧ t.rd Reg.MIR_LE_LE = (s.frm.t0 + (if s.latTwo then 6 else 5) * s.frameNs) % 2 ^ 32 ∧
    t.mir.holds = true ∧ t.bus = [⟨m, 0, false⟩] ∧ (∀ p : Fin 4, p.val ∈ s.leasePaths → t.sent.any
    (fun y => match y with | .lease q 3 _ _ _ _ _ f _ => decide (q = p.val ∧ f = (s.rd Reg.MQT_LFRAME_NOW + 4) % 2 ^ 16) | _ => false)
    = true) ∧ onlyChanges [Reg.MIR_LE_LE] [.bus, .clk, .sent, .mir] s t)) ∧
  (∀ (m : Master) (v : Word) (s : State), s.reaches m true 0x41030018 = true → s.idleOrMaint = true → s.rd Reg.MIR_EPOCH_EPOCH < v.toNat →
    gives (.mirEpochWrite m v) s (fun t => t.rd Reg.MIR_EPOCH_EPOCH = v.toNat ∧ t.rd Reg.MIR_EPSEEN_EPSEEN = max (s.rd
    Reg.MIR_EPSEEN_EPSEEN) v.toNat % 2 ^ 32 ∧ t.bus = [⟨m, 0, false⟩] ∧ onlyChanges [Reg.MIR_EPOCH_EPOCH, Reg.MIR_EPSEEN_EPSEEN] [.bus]
    s t)) ∧
  (∀ (m : Master) (v : Word) (s : State), s.reaches m true 0x41030018 = true → s.idleOrMaint = false ∨ v.toNat ≤ s.rd Reg.MIR_EPOCH_EPOCH
    → s.flag Reg.INT_PERR_VALID = false → gives (.mirEpochWrite m v) s (fun t => t.rd Reg.MIR_EPOCH_EPOCH = s.rd Reg.MIR_EPOCH_EPOCH ∧
    t.rd Reg.INT_PERR_KIND = (if s.idleOrMaint = false then peBusyMode else peState) ∧ onlyChanges [Reg.INT_PERRCNT_COUNT,
    Reg.INT_PERR_VALID, Reg.INT_PERR_KIND, Reg.INT_PERR_MASTER, Reg.INT_PERRADDR_ADDR] [.bus] s t))

/-- MIRROR_RECORD_SEND of a WARM holder sends the record of the compute on its lanes; MIRROR_RECORD_RECEIVED keeps the right record of
the frame for the next compute start, refuses one with another digest under IMGDIFF, and counts a broken one as missed, and one that
its own buffer cannot give fences MIR_ and is missed or not sent; the loss of a lane is reported; HEARTBEAT_SEND, HBLOST, SNAPSHOT_SEND
and SNAPLATE act as R246 and R267 say. Readings of the model this rests on: log 23, 51, 87, 95. -/
def Obligations.MirrorAndHeartbeats : Prop :=
  (∀ (s : State), s.rd Reg.MIR_CFG_PAIR = 1 → s.mir.holds = true → s.works .mir = true → s.recordLanes ≠ 0 → s.unreadable 9 (fun w =>
    decide (w / 2048 = 7)) = false → gives (.mirrorRecordSend) s (fun t => (t.sent.filter notMsi).head?.any
    (fun x => match x with | .record l r => decide (l = s.recordLanes ∧ r.frame.toNat = s.rd Reg.MQT_LFRAME_NOW % 65536 ∧ r.epoch.toNat = s.rd Reg.MIR_EPOCH_EPOCH % 2 ^ 32 ∧ r.mode.val = s.mode % 16 ∧ r.digest = s.mir.digest ∧ r.words = t.mirWords.map (BitVec.ofNat 32) ∧ r.ok = true) | _ => false)
    = true ∧ t.mir = s.mir)) ∧
  (∀ (r : MirRecord) (s : State), s.rd Reg.MIR_CFG_PAIR = 1 → s.mode = mShadow → s.works .mir = true → r.ok = true → r.digest =
    s.mir.digest → r.frame.toNat = s.rd Reg.MQT_LFRAME_NOW → s.unstruck 9 (fun w => decide (w / 2048 = 6)) = true → gives
    (.mirrorRecordReceived r) s (fun t => t.mir = { s.mir with differs := false, keep := some r } ∧ t.flag Reg.MIR_STAT_PARTNER = true
    ∧ onlyChanges [Reg.MIR_STAT_PARTNER] [.clk, .mir] s t)) ∧
  (∀ (r : MirRecord) (s : State), s.rd Reg.MIR_CFG_PAIR = 1 → s.mode = mShadow → s.works .mir = true → r.ok = true → r.digest ≠
    s.mir.digest → s.unreadable 9 (fun w => decide (w / 2048 = 6)) = false → gives (.mirrorRecordReceived r) s (fun t => t.flag
    Reg.MIR_ALRM_IMGDIFF = true ∧ t.mir.differs = true)) ∧
  (∀ (r : MirRecord) (s : State), s.rd Reg.MIR_CFG_PAIR = 1 → s.mode = mShadow → s.works .mir = true → r.ok = false → s.mir.missed = false
    → s.unstruck 9 (fun w => decide (w / 2048 = 6)) = true → gives (.mirrorRecordReceived r) s (fun t => t.mir.keep = s.mir.keep ∧
    t.mir.missed = true ∧ t.mir.missRun = min (s.mir.missRun + 1) 4 ∧ (3 = s.mir.missRun → t.flag Reg.MIR_ALRM_MISS = true) ∧ t.rd
    Reg.MIR_CNT_MISS = min (s.rd Reg.MIR_CNT_MISS + 1) (2 ^ Reg.MIR_CNT_MISS.wid - 1) ∧ onlyChanges [Reg.MIR_STAT_PARTNER,
    Reg.MIR_CNT_MISS, Reg.MIR_ALRM_MISS] [.clk, .mir] s t)) ∧
  (∀ (r : MirRecord) (s : State), s.rd Reg.MIR_CFG_PAIR = 1 → s.mode = mShadow → s.works .mir = true → s.mir.missed = false → s.unreadable
    9 (fun w => decide (w / 2048 = 6)) = true → gives (.mirrorRecordReceived r) s (fun t => t.mir.keep = s.mir.keep ∧ t.mir.differs =
    s.mir.differs ∧ t.mir.missed = true ∧ t.rd Reg.MIR_CNT_MISS = min (s.rd Reg.MIR_CNT_MISS + 1) (2 ^ Reg.MIR_CNT_MISS.wid - 1) ∧
    t.fenced .mir = true)) ∧
  (∀ (s : State), s.rd Reg.MIR_CFG_PAIR = 1 → s.mir.holds = true → s.works .mir = true → s.unreadable 9 (fun w => decide (w / 2048 = 7)) =
    true → gives (.mirrorRecordSend) s (fun t => t.sent.filter notMsi = s.sent.filter notMsi ∧ t.fenced .mir = true)) ∧
  (∀ (l : Fin 2) (s : State), gives (.mirrorLaneLoss l) s (fun t => t.rdBit Reg.MIR_STAT_LANES l = false ∧ t.rdBit Reg.MIR_STAT_LANES (1 -
    l.val) = s.rdBit Reg.MIR_STAT_LANES (1 - l.val) ∧ t.flag Reg.MIR_ALRM_MIRLANE = true ∧ (s.rd Reg.MIR_STAT_LANES = 2 ^ l.val →
    t.sup.sem.any (fun e => decide (e.2 = 6)) = false) ∧ onlyChanges [Reg.MIR_STAT_LANES, Reg.MIR_ALRM_MIRLANE, Reg.SEM_ALRM_AUTOREL]
    [.sup] s t)) ∧
  (∀ (l : Fin 2) (s : State), s.regionOn .net = true → gives (.mirrorLaneAlign l) s (fun t => t.rdBit Reg.MIR_STAT_LANES l = true ∧
    t.rdBit Reg.MIR_STAT_LANES (1 - l.val) = s.rdBit Reg.MIR_STAT_LANES (1 - l.val) ∧ onlyChanges [Reg.MIR_STAT_LANES] [] s t)) ∧
  (∀ (s : State), s.paired = true → s.works .mir = true → gives (.heartbeatSend) s (fun t => (∀ p : Fin 8, p.val ∈ s.hbPorts →
    Sent.heartbeat p (s.rd Reg.MIR_EPOCH_EPOCH) ∈ t.sent) ∧ spFind t.clk.timers tmHbTx = some t.clk.ticks ∧ t.mir = s.mir)) ∧
  (∀ (s : State), s.paired = true → s.works .mir = true → s.flag Reg.MIR_STAT_PARTNER = true → s.timerOn tmHbRx = true → gives (.hblost) s
    (fun t => t.flag Reg.MIR_ALRM_HBLOST = true ∧ t.timerOn tmHbRx = false ∧ t.mir = s.mir ∧ onlyChanges [Reg.MIR_ALRM_HBLOST,
    Reg.MIR_STAT_PARTNER, Reg.PTP_ALRM_WRAP, Reg.CST_TSHI_TSHI] [.clk, .sup] s t)) ∧
  (∀ (s : State), s.rd Reg.MIR_CFG_PAIR = 2 → s.mir.holds = true → s.works .mir = true → gives (.snapshotSend) s (fun t => (t.sent.filter
    notMsi).head?.any
    (fun x => match x with | .snapshot k g _ w => decide (k = s.mode ∧ g = (List.range 8).map (fun n => s.rd (Reg.PRF_TGT_TGT n)) ∧ w = (List.range 32).map (fun n => s.rd (Reg.MIR_TXW_DATA n))) | _ => false)
    = true ∧ spFind t.clk.timers tmSnapTx = some t.clk.ticks ∧ t.mir = s.mir)) ∧
  (∀ (s : State), s.rd Reg.MIR_CFG_PAIR = 2 → s.mode = mShadow → s.works .mir = true → s.timerOn tmSnap = true → gives (.snaplate) s (fun
    t => t.flag Reg.MIR_ALRM_SNAPLATE = true ∧ t.rd Reg.MIR_SNAP_AGE = t.snapAge % 2 ^ Reg.MIR_SNAP_AGE.wid ∧ t.timerOn tmSnap = true))

/-- PAIR_ENABLE of a configuration that R273 and R276 allow enables the pair with its carries at 0 and both switches off, else it is
refused with CFGERR; PAIR_PERIOD_START begins the next period on its grid with MODE as it then stands and the active fault inputs
judged, with both switches off where a row from 1 to 5 of R282 holds; PAIR_OUTPUT_EDGE carries out the next placed edge; PAIR_DISABLE
stops the pair with both switches off. Readings of the model this rests on: log 52, 78, 94. -/
def Obligations.CouplingPairs : Prop :=
  (∀ (m : Master) (p : Fin 12) (s : State), s.reaches m true (0x47000100 + 0x20 * p.val) = true → s.pairRefused p = false → s.flag
    (Reg.LBR_PCFG_PEN p) = false → (s.pair p).two = 0 → gives (.pairEnable m p) s (fun t => t.flag (Reg.LBR_PCFG_PEN p) = true ∧
    (t.pair p).ch = 0 ∧ (t.pair p).cl = 0 ∧ (t.pair p).hOn = false ∧ (t.pair p).lOn = false ∧ (t.pair p).plan = [] ∧ (t.pair p).next =
    (if s.flag (Reg.LBR_PCFG_SYNC p) then none else some s.nowQ) ∧ t.bus = [⟨m, 0, false⟩] ∧ onlyChanges [Reg.LBR_PCFG_PEN p,
    Reg.LBR_PSTAT_STAGE p, Reg.LBR_CARRY_CARRYH p, Reg.LBR_CARRY_CARRYL p] [.bus, .brg] s t)) ∧
  (∀ (m : Master) (p : Fin 12) (s : State), s.reaches m true (0x47000100 + 0x20 * p.val) = true → s.pairRefused p = true → gives
    (.pairEnable m p) s (fun t => t.flag Reg.LBR_ALRM_CFGERR = true ∧ t.rd (Reg.LBR_PCFG_PEN p) = s.rd (Reg.LBR_PCFG_PEN p) ∧ t.pair p
    = s.pair p ∧ onlyChanges [Reg.LBR_ALRM_CFGERR] [.bus, .brg] s t)) ∧
  (∀ (m : Master) (p : Fin 12) (s : State), s.reaches m true (0x47000100 + 0x20 * p.val) = true → (s.pair p).two = 0 → gives (.pairDisable
    m p) s (fun t => t.flag (Reg.LBR_PCFG_PEN p) = false ∧ (t.pair p).hOn = false ∧ (t.pair p).lOn = false ∧ (t.pair p).plan = [] ∧
    (t.pair p).next = none ∧ onlyChanges [Reg.LBR_PCFG_PEN p, Reg.LBR_PSTAT_STAGE p, Reg.LBR_CARRY_CARRYH p, Reg.LBR_CARRY_CARRYL p]
    [.bus, .brg] s t)) ∧
  (∀ (p : Fin 12) (n : Nat) (s : State), (s.pair p).next = some n → s.pairRuns p = true → s.flag Reg.LBR_STAT_HALTED = false → s.rd
    (Reg.LBR_PER_PERIOD p) ≠ 0 → gives (.pairPeriodStart p none) s (fun t => (t.pair p).start = n + (s.nowQ - n) / (5 * s.rd
    (Reg.LBR_PER_PERIOD p)) * (5 * s.rd (Reg.LBR_PER_PERIOD p)) ∧ (t.pair p).next = some ((t.pair p).start + 5 * s.rd
    (Reg.LBR_PER_PERIOD p)) ∧ (t.pair p).began = true ∧ (t.pair p).start ≤ t.nowQ ∧ (t.pair p).mode = s.rd (Reg.LBR_PCFG_MODE p) ∧ (∀ k
    : Fin 4, bitAt (t.pair p).cut k.val = decide (k.val ∈ s.pairFaults p)))) ∧
  (∀ (p : Fin 12) (n : Nat) (s : State), (s.pair p).next = some n → s.pairRuns p = true → s.flag Reg.LBR_STAT_HALTED = false → (s.pair
    p).two = 0 → s.flag (Reg.LBR_PSTAT_RTRIP p) = true ∨ s.flag (Reg.LBR_PSTAT_CFLT p) = true ∨ s.pairInhibited p = true ∨ s.pairFaults
    p ≠ [] → gives (.pairPeriodStart p none) s (fun t => (t.pair p).hOn = false ∧ (t.pair p).lOn = false ∧ (t.pair p).plan = [] ∧
    (t.pair p).acted = true)) ∧
  (∀ (p : Fin 12) (exc : List (Fin 12 × Bool)) (e : Edge) (r : List Edge) (s : State), (s.pair p).plan = e :: r → s.pairFrozen p = false →
    gives (.pairOutputEdge p exc) s (fun t => (t.pair p).plan = r ∧ (e.hi = true → (t.pair p).hOn = e.on ∧ (t.pair p).lOn = (s.pair
    p).lOn) ∧ (e.hi = false → (t.pair p).lOn = e.on ∧ (t.pair p).hOn = (s.pair p).hOn) ∧ (t.pair p).next = (s.pair p).next ∧ e.time ≤
    t.nowQ ∧ onlyChanges [Reg.PTP_ALRM_WRAP, Reg.CST_TSHI_TSHI] [.clk, .sup, .brg] s t))

/-- A fault input that becomes active latches, reports and is recorded among the first eight detections, and cuts every running pair of
its mask; a hard detection, and a soft one at the end of blanking, set RTRIP of every pair of the mask and start its two-step turn-off;
the SOFT stages start in order, staggered, and end with the pair off. Readings of the model this rests on: log 52, 78, 94. -/
def Obligations.FaultAndRogowski : Prop :=
  (∀ (n : Fin 4) (steps : Nat) (s : State), s.works .prt = true → s.flag (Reg.PRT_FLTCFG_EN n) = true → s.rd (Reg.PRT_FLTCFG_DGL n) ≤
    steps → s.faultActs n = false → gives (.faultInputActive ⟨n, steps⟩) s (fun t => t.flag (Reg.PRT_FLTSTAT_LIVE n) = true ∧ t.flag
    (Reg.PRT_FLTSTAT_LATCH n) = true ∧ t.flag Reg.PRT_ALRM_FLT = true ∧ (∀ p : Fin 12, bitAt (s.rd (Reg.PRT_FLTCFG_PAIRS n)) p = true →
    t.flag (Reg.LBR_PSTAT_FTRIP p) = true) ∧ (∀ p : Fin 12, bitAt (s.rd (Reg.PRT_FLTCFG_PAIRS n)) p = false → t.pair p = s.pair p) ∧
    (s.flag (Reg.PRT_FLTSTAT_LATCH n) = false → s.flag (Reg.PRT_FLTCFG_ACT n) = true → t.flag Reg.SUP_TRIP_FLT = true) ∧ (s.rd
    Reg.PRT_FICNT_COUNT < 8 → t.rd Reg.PRT_FICNT_COUNT = s.rd Reg.PRT_FICNT_COUNT + 1 ∧ t.rd Reg.PRT_FICNT_OVF = s.rd
    Reg.PRT_FICNT_OVF) ∧ (8 ≤ s.rd Reg.PRT_FICNT_COUNT → t.flag Reg.PRT_FICNT_OVF = true ∧ t.rd Reg.PRT_FICNT_COUNT = s.rd
    Reg.PRT_FICNT_COUNT))) ∧
  (∀ (n : Fin 4) (p : Fin 12) (steps : Nat) (s : State), s.works .prt = true → s.flag (Reg.PRT_FLTCFG_EN n) = true → s.rd
    (Reg.PRT_FLTCFG_DGL n) ≤ steps → s.faultActs n = false → bitAt (s.rd (Reg.PRT_FLTCFG_PAIRS n)) p = true → s.pairRuns p = true →
    (s.pair p).began = true → s.pairAbove p = false → gives (.faultInputActive ⟨n, steps⟩) s (fun t => t.flag (Reg.LBR_PSTAT_FTRIP p) =
    true ∧ bitAt (t.pair p).cut n = true ∧ (bitAt (s.pair p).cut n = false → (s.pair p).two = 0 → (t.pair p).hOn = false ∧ (t.pair
    p).lOn = false))) ∧
  (∀ (n : Fin 4) (steps : Nat) (s : State), s.regionOn .grd = true → s.rd (Reg.PRT_FLTCFG_DGL n) ≤ steps → gives (.faultInputInactive ⟨n,
    steps⟩) s (fun t => t.flag (Reg.PRT_FLTSTAT_LIVE n) = false ∧ t.rd (Reg.PRT_FLTSTAT_LATCH n) = s.rd (Reg.PRT_FLTSTAT_LATCH n) ∧ (∀
    p : Fin 12, t.pair p = s.pair p) ∧ onlyChanges [Reg.PRT_FLTSTAT_LIVE n] [.brg] s t)) ∧
  (∀ (n : Fin 4) (steps : Nat) (s : State), steps < s.rd (Reg.PRT_FLTCFG_DGL n) → gives (.faultInputInactive ⟨n, steps⟩) s (fun t =>
    onlyChanges [] [] s t)) ∧
  (∀ (n : Fin 12) (soft : Bool) (s : State), s.rogOn n = true → s.flag (Reg.PRT_ROGSTAT_HLIVE n) = false → gives (.rogDetection n soft
    true) s (fun t => t.flag Reg.PRT_ALRM_HARD = true ∧ t.flag (Reg.PRT_ROGSTAT_HLIVE n) = true ∧ (∀ p : Fin 12, bitAt (s.rd
    (Reg.PRT_ROGCFG_PAIRS n)) p = true → t.flag (Reg.LBR_PSTAT_RTRIP p) = true ∧ ((s.pair p).two = 0 → s.pairOut p = some ((true,
    false), (false, false)) → (t.pair p).two = 1 ∧ (t.pair p).heldH = true ∧ (t.pair p).heldL = false)) ∧ (∀ p : Fin 12, bitAt (s.rd
    (Reg.PRT_ROGCFG_PAIRS n)) p = false → t.pair p = s.pair p) ∧ (s.flag (Reg.PRT_ROGCFG_ACT n) = true → t.flag Reg.SUP_TRIP_ROG =
    true))) ∧
  (∀ (n : Fin 12) (s : State), (s.rog n).blank ≠ 0 → s.rogOn n = true → s.flag (Reg.PRT_ROGSTAT_SLIVE n) = true → gives (.rogBlankEnd n) s
    (fun t => t.flag Reg.PRT_ALRM_SOFT = true ∧ (t.rog n).blank = 0 ∧ (s.rog n).blank ≤ t.nowQ ∧ (∀ p : Fin 12, bitAt (s.rd
    (Reg.PRT_ROGCFG_PAIRS n)) p = true → t.flag (Reg.LBR_PSTAT_RTRIP p) = true))) ∧
  (∀ (p : Fin 12) (s : State), s.brg.softQ.head? = some p.val → (s.pair p).two = 1 → gives (.rogSoftStageStart p) s (fun t => (t.pair
    p).two = 2 ∧ t.brg.softQ = s.brg.softQ.tail ∧ t.brg.lastSoft = some (t.pair p).softAt ∧ (∀ l ∈ s.brg.lastSoft, l + 5 * s.rd
    Reg.PRT_STAG_STAGGER ≤ (t.pair p).softAt) ∧ (t.pair p).softAt ≤ t.nowQ ∧ s.nowQ ≤ (t.pair p).softAt)) ∧
  (∀ (p : Fin 12) (s : State), (s.pair p).two = 2 → gives (.rogSoftStageEnd p) s (fun t => (t.pair p).two = 0 ∧ (t.pair p).hOn = false ∧
    (t.pair p).lOn = false ∧ (s.pair p).softAt + (s.pair p).softT ≤ t.nowQ ∧ t.rd (Reg.LBR_PSTAT_RTRIP p) = s.rd (Reg.LBR_PSTAT_RTRIP
    p))) ∧
  (∀ (n : Fin 12) (s : State), gives (.rogThresholdUpdate n) s (fun t => (t.rog n).hard = s.rd (Reg.PRT_ROGTHR_HARD n) ∧ (t.rog n).soft =
    s.rd (Reg.PRT_ROGTHR_SOFT n) ∧ (t.rog n).blank = (s.rog n).blank ∧ onlyChanges [] [.brg] s t))

/-- COIL_CHECK keeps the bias voltage and counts open and shorted coils to three; the polarity test starts on enabled channels and ends
after 16 edges; an OV_CONTROLLER_RESULT switches its output on at VON and VOV and off at VOFF; 100 us of invalid results give the
output FS; FICLR clears the first-in records. Readings of the model this rests on: log 52, 78. -/
def Obligations.CoilsAndOvervoltage : Prop :=
  (∀ (n : Fin 12) (vb : BitVec 16) (s : State), s.rogOn n = true → gives (.coilCheck n vb) s (fun t => t.rd (Reg.PRT_ROGSTAT_VBIAS n) =
    vb.toNat % 2 ^ (Reg.PRT_ROGSTAT_VBIAS n).wid ∧ (t.rog n).openRun = (if 10000 ≤ vb.toNat then min ((s.rog n).openRun + 1) 3 else 0)
    ∧ (t.rog n).shortRun = (if vb.toNat ≤ 20 then min ((s.rog n).shortRun + 1) 3 else 0) ∧ ((t.rog n).openRun = 3 → t.flag
    (Reg.PRT_ROGSTAT_OPEN n) = true) ∧ ((t.rog n).shortRun = 3 → t.flag (Reg.PRT_ROGSTAT_SHORT n) = true) ∧ spFind t.clk.timers (tmCoil
    n) = some t.clk.ticks)) ∧
  (∀ (m : Master) (s : State), s.reaches m true 0x47010000 = true → gives (.polarityTestStart m) s (fun t => (∀ n : Fin 12, s.flag
    (Reg.PRT_ROGCFG_EN n) = true → (t.rog n).test = some (0, 0) ∧ t.flag (Reg.PRT_ROGSTAT_PTDONE n) = false) ∧ (∀ n : Fin 12, s.flag
    (Reg.PRT_ROGCFG_EN n) = false → t.rog n = s.rog n) ∧ t.bus = [⟨m, 0, false⟩])) ∧
  (∀ (n : Fin 12) (k neg : Nat) (s : State), (s.rog n).test = some (k, neg) → 16 ≤ k → gives (.polarityTestDone n) s (fun t => (t.rog
    n).test = none ∧ t.flag (Reg.PRT_ROGSTAT_PTDONE n) = true ∧ (12 ≤ neg → t.flag (Reg.PRT_ROGSTAT_REV n) = true ∧ t.flag
    Reg.PRT_ALRM_REV = true) ∧ (neg < 12 → t.rd (Reg.PRT_ROGSTAT_REV n) = s.rd (Reg.PRT_ROGSTAT_REV n)) ∧ onlyChanges
    [Reg.PRT_ROGSTAT_PTDONE n, Reg.PRT_ROGSTAT_REV n, Reg.PRT_ALRM_REV] [.brg] s t)) ∧
  (∀ (c : Fin 2) (s : State), s.works .prt = true → s.flag (Reg.PRT_OVCFG_EN c) = true → s.flag (Reg.ACQ_CHVAL_VALID (s.rd
    (Reg.PRT_OVCFG_CH c))) = true → signed 16 (s.rd (Reg.PRT_OVTHR_VOFF c)) < signed 16 (s.rd (Reg.PRT_OVTHR_VON c)) → gives
    (.ovControllerResult c) s (fun t => t.flag (Reg.PRT_OVSTAT_ON c) = (if signed 16 (s.rd (Reg.PRT_OVLVL_VOV c)) ≤ (signed 16 (s.rd
    (Reg.ACQ_CHVAL_DATA (s.rd (Reg.PRT_OVCFG_CH c))))) ∨ signed 16 (s.rd (Reg.PRT_OVTHR_VON c)) ≤ (signed 16 (s.rd (Reg.ACQ_CHVAL_DATA
    (s.rd (Reg.PRT_OVCFG_CH c))))) then true else if (signed 16 (s.rd (Reg.ACQ_CHVAL_DATA (s.rd (Reg.PRT_OVCFG_CH c))))) ≤ signed 16
    (s.rd (Reg.PRT_OVTHR_VOFF c)) then false else s.flag (Reg.PRT_OVSTAT_ON c)) ∧ t.rd (Reg.PRT_OVSTAT_LAST c) = s.rd
    (Reg.ACQ_CHVAL_DATA (s.rd (Reg.PRT_OVCFG_CH c))) % 65536 ∧ t.flag (Reg.PRT_OVSTAT_VLIVE c) = decide (signed 16 (s.rd
    (Reg.PRT_OVLVL_VOV c)) ≤ (signed 16 (s.rd (Reg.ACQ_CHVAL_DATA (s.rd (Reg.PRT_OVCFG_CH c)))))) ∧ t.timerOn (tmOvInv c) = false)) ∧
  (∀ (c : Fin 2) (s : State), s.works .prt = true → s.flag (Reg.PRT_OVCFG_EN c) = true → s.flag (Reg.ACQ_CHVAL_VALID (s.rd
    (Reg.PRT_OVCFG_CH c))) = false → gives (.ovControllerResult c) s (fun t => t.flag (Reg.PRT_OVSTAT_CHVINV c) = true ∧ t.flag
    Reg.PRT_ALRM_CHVINV = true ∧ t.timerOn (tmOvInv c) = true ∧ t.rd (Reg.PRT_OVSTAT_ON c) = s.rd (Reg.PRT_OVSTAT_ON c) ∧ onlyChanges
    [Reg.PRT_OVSTAT_CHVINV c, Reg.PRT_ALRM_CHVINV] [.clk] s t)) ∧
  (∀ (c : Fin 2) (s : State), s.timerOn (tmOvInv c) = true → s.flag (Reg.PRT_OVCFG_EN c) = true → s.works .prt = true → s.flag
    (Reg.ACQ_CHVAL_VALID (s.rd (Reg.PRT_OVCFG_CH c))) = false → gives (.ovInvalidTimeout c) s (fun t => t.flag (Reg.PRT_OVSTAT_ON c) =
    s.flag (Reg.PRT_OVCFG_FS c) ∧ t.timerOn (tmOvInv c) = false)) ∧
  (∀ (m : Master) (s : State), s.reaches m true 0x47010000 = true → gives (.ficlr m) s (fun t => t.rd Reg.PRT_FICNT_COUNT = 0 ∧ t.flag
    Reg.PRT_FICNT_OVF = false ∧ (∀ k : Fin 8, t.rd (Reg.PRT_FISRC_KIND k) = 0 ∧ t.rd (Reg.PRT_FISRC_PAIRS k) = 0 ∧ t.rd
    (Reg.PRT_FITIME_TIME k) = 0) ∧ t.bus = [⟨m, 0, false⟩] ∧ t.brg = { s.brg with fiAt := [] }))

/-- A filtered level is shown and starts or stops the discrepancy time; a scan energises exactly the output pairs that R303 allows and
sets the internal inhibit; a discrepancy whose time has passed sets DISCL at the scan; test pulses begin and end on their channel;
read-back faults latch FAULT; a copy mismatch and a wrong configuration CRC fence SAF_ with every output off and the inhibit active;
the accepted network commands and the time-outs act as R314 and R315 say. Readings of the model this rests on: log 53, 79. -/
def Obligations.SafetyPath : Prop :=
  (∀ (n : Fin 8) (b level : Bool) (s : State), s.regionOn .grd = true → gives (.safetyInputFiltered n b level) s (fun t => t.flag (if b
    then Reg.SAF_INSTAT_BLIVE n else Reg.SAF_INSTAT_ALIVE n) = level ∧ t.timerOn (tmDisc n) = t.safDisagree n ∧ onlyChanges
    [Reg.SAF_INSTAT_ALIVE n, Reg.SAF_INSTAT_BLIVE n] [.clk, .saf] s t)) ∧
  (∀ (rb : BitVec 8) (s : State), s.safOn = true → gives (.safetyScan rb) s (fun t => (∀ m : Fin 4, t.flag (Reg.SAF_OUTSTAT_ON m) =
    (t.outReady m && (!t.flag (Reg.SAF_OUTCFG_RST m) || bitAt t.saf.manual m))) ∧ (∀ m : Fin 4, t.flag (Reg.SAF_OUTSTAT_RBA m) = bitAt
    rb.toNat (2 * m) ∧ t.flag (Reg.SAF_OUTSTAT_RBB m) = bitAt rb.toNat (2 * m + 1)) ∧ t.flag Reg.SAF_STAT_INH = ((List.range 4).any
    (fun m => bitAt (s.rd Reg.SAF_INHCFG_INHOUT) m && !t.flag (Reg.SAF_OUTSTAT_ON m))) ∧ t.saf.scan = t.clk.ticks ∧ t.saf.cmds = [])) ∧
  (∀ (rb : BitVec 8) (s : State), s.safOn = false → s.regionOn .grd = true → gives (.safetyScan rb) s (fun t => (∀ m : Fin 4, t.flag
    (Reg.SAF_OUTSTAT_ON m) = false) ∧ (s.works .saf = false → t.flag Reg.SAF_STAT_INH = true) ∧ (s.mode = mPrecharge → s.works .saf =
    false → t.flag Reg.SUP_TRIP_INHIBIT = true))) ∧
  (∀ (n : Fin 8) (s : State), s.timerOn (tmDisc n) = true → s.safOn = true → gives (.discrepancyTimeout n) s (fun t => ticksMs (s.rd
    (Reg.SAF_INCFG_DISC n)) ≤ t.timerAge (tmDisc n) ∧ t.rd (Reg.SAF_INSTAT_DISCL n) = s.rd (Reg.SAF_INSTAT_DISCL n) ∧ onlyChanges
    [Reg.PTP_ALRM_WRAP, Reg.CST_TSHI_TSHI] [.clk, .sup] s t)) ∧
  (∀ (rb : BitVec 8) (n : Fin 8) (s : State), s.safOn = true → s.timerOn (tmDisc n) = true → s.safDisagree n = true → ticksMs (s.rd
    (Reg.SAF_INCFG_DISC n)) ≤ s.timerAge (tmDisc n) → gives (.safetyScan rb) s (fun t => t.flag (Reg.SAF_INSTAT_DISCL n) = true ∧
    t.flag Reg.SAF_ALRM_DISCERR = true)) ∧
  (∀ (c : Fin 8) (s : State), s.safOn = true → s.flag (Reg.SAF_OUTSTAT_ON (c / 2)) = true → s.flag (Reg.SAF_OUTCFG_TPEN (c / 2)) = true →
    s.saf.pulse = none → gives (.testPulseStart c) s (fun t => t.saf.pulse = some (c.val, t.clk.ticks) ∧ (∀ m : Fin 4, t.rd
    (Reg.SAF_OUTSTAT_ON m) = s.rd (Reg.SAF_OUTSTAT_ON m)) ∧ onlyChanges [Reg.PTP_ALRM_WRAP, Reg.CST_TSHI_TSHI] [.clk, .sup, .saf] s t)) ∧
  (∀ (rb : BitVec 8) (c : Fin 8) (a : Nat) (s : State), s.saf.pulse = some (c.val, a) → gives (.testPulseEnd rb) s (fun t => t.saf.pulse =
    none ∧ t.rd (Reg.SAF_OUTSTAT_TESTCNT (c.val / 2)) = min (s.rd (Reg.SAF_OUTSTAT_TESTCNT (c.val / 2)) + 1) (2 ^
    (Reg.SAF_OUTSTAT_TESTCNT (c.val / 2)).wid - 1) ∧ (bitAt rb.toNat c = true → t.flag (Reg.SAF_OUTSTAT_FAULT (c.val / 2)) = true ∧
    t.flag (Reg.SAF_OUTSTAT_ON (c.val / 2)) = false) ∧ a + ticksUs (s.rd Reg.SAF_TEST_TPW) ≤ t.clk.ticks)) ∧
  (∀ (c : Fin 8) (a : Nat) (s : State), s.safOn = true → spFind s.saf.offAt (c.val / 2) = some a → s.flag (Reg.SAF_OUTSTAT_ON (c.val / 2))
    = false → gives (.readbackTimeout c true) s (fun t => t.flag (Reg.SAF_OUTSTAT_FAULT (c.val / 2)) = true ∧ t.flag (if c.val % 2 = 0
    then Reg.SAF_OUTSTAT_RBA (c.val / 2) else Reg.SAF_OUTSTAT_RBB (c.val / 2)) = true ∧ a + ticksUs 500 ≤ t.clk.ticks)) ∧
  (∀ (m : Master) (s : State), s.reaches m true 0x47020000 = true → gives (.safetyPtest m) s (fun t => t.saf =
    { s.saf with ptest := true } ∧ t.bus = [⟨m, 0, false⟩] ∧ onlyChanges [] [.bus, .saf] s t)) ∧
  (∀ (s : State), s.safOn = true → gives (.safetyCopyMismatch) s (fun t => t.fenced .saf = true ∧ t.flag Reg.SAF_ALRM_INTERR = true ∧ (∀ m
    : Fin 4, t.flag (Reg.SAF_OUTSTAT_ON m) = false) ∧ t.flag Reg.SAF_STAT_INH = true ∧ t.ctl.classD = true)) ∧
  (∀ (s : State), s.safOn = true → crc32Section s.safImage ≠ s.saf.crc2 → gives (.safetyCfgCrcCheck) s (fun t => t.fenced .saf = true ∧
    t.flag Reg.SAF_ALRM_CFGCRC = true ∧ t.rd Reg.SAF_CFGCRC_CRC = crc32Section s.safImage % 2 ^ 32 ∧ (∀ m : Fin 4, t.flag
    (Reg.SAF_OUTSTAT_ON m) = false) ∧ t.flag Reg.SAF_STAT_INH = true ∧ t.ctl.classD = true)) ∧
  (∀ (s : State), s.safOn = true → crc32Section s.safImage = s.saf.crc2 → gives (.safetyCfgCrcCheck) s (fun t => t.rd Reg.SAF_CFGCRC_CRC =
    s.saf.crc2 % 2 ^ 32 ∧ t.saf = s.saf ∧ spFind t.clk.timers tmSafCrc = some t.clk.ticks ∧ onlyChanges [Reg.SAF_CFGCRC_CRC,
    Reg.PTP_ALRM_WRAP, Reg.CST_TSHI_TSHI] [.clk, .sup] s t)) ∧
  (∀ (x : Nat × List Nat × Nat) (s : State), s.saf.copy = some x → s.netSafe = true → gives (.safetyCompareTimeout) s (fun t => t.flag
    Reg.SAF_ALRM_NETDIFF = true ∧ t.saf = { s.saf with copy := none, netDem := true } ∧ t.rd Reg.SAF_NETSTAT_NDIFF = min (s.rd
    Reg.SAF_NETSTAT_NDIFF + 1) (2 ^ Reg.SAF_NETSTAT_NDIFF.wid - 1))) ∧
  (∀ (s : State), s.saf.cmds.head? = some 1 → s.netSafe = true → gives (.safetyNetPermit) s (fun t => t.saf =
    { s.saf with cmds := s.saf.cmds.tail, netDem := false, permit := some s.clk.ticks } ∧ onlyChanges [] [.saf] s t)) ∧
  (∀ (s : State), s.saf.cmds.head? = some 2 → s.netSafe = true → gives (.safetyNetDemand) s (fun t => t.saf =
    { s.saf with cmds := s.saf.cmds.tail, netDem := true } ∧ onlyChanges [] [.saf] s t)) ∧
  (∀ (s : State), s.saf.cmds.head? = some 3 → gives (.safetyNetReset) s (fun t => t.saf =
    { s.saf with cmds := s.saf.cmds.tail, rst := true } ∧ onlyChanges [] [.saf] s t)) ∧
  (∀ (s : State), s.saf.cmds.head? = some 4 → gives (.safetyNetPtest) s (fun t => t.saf =
    { s.saf with cmds := s.saf.cmds.tail, ptest := true } ∧ onlyChanges [] [.saf] s t)) ∧
  (∀ (a : Nat) (s : State), s.saf.permit = some a → s.netSafe = true → gives (.nettmo) s (fun t => t.saf =
    { s.saf with permit := none, netDem := true } ∧ (s.saf.netDem = false → t.flag Reg.SAF_ALRM_NETTMO = true) ∧ a + ticksMs (10 * s.rd
    Reg.SAF_NETCFG_NETTMO) ≤ t.clk.ticks))

/-- CAST_ARM, and CAST_REARM after an end, arm the lowest FREE segment, or set NOSEG where there is none; a CST_ROW writes the eight
words of the row to its place in the segment and nothing else in memory; MEASUREMENT_COMPLETE writes the header and makes the segment
DONE; SWTRIG is kept for the next row; CST_HOLD and CST_REL move a DONE segment to HELD and FREE. Readings of the model this rests on:
log 54. -/
def Obligations.Recorder : Prop :=
  (∀ (m : Master) (ncast : BitVec 12) (ovw : Bool) (g : Nat) (s : State), s.reaches m true 0x42020000 = true → s.works .cst = true →
    s.cst.cast = none → s.castQuiet = false → (s.wr Reg.CST_CTRL_OVW (if ovw then 1 else 0)).segToArm = some g → gives (.castArm m
    ncast ovw) s (fun t => t.segState g = sgArmed ∧ (t.cst.cast.map (fun c => (c.seg, c.base, c.rows, c.trig))) = some (g, 0x20000000 +
    g * s.rd Reg.CST_SEGCFG_SEGSZ * 1024, 0, none) ∧ t.cst.left = ncast.toNat ∧ (t.cst.cont = true ↔ ncast.toNat = 0) ∧ t.cst.evt = 0 ∧
    t.rd Reg.CST_CTRL_NCAST = ncast.toNat ∧ onlyChanges [Reg.CST_CTRL_NCAST, Reg.CST_CTRL_OVW, Reg.CST_SEG_STATE g, Reg.CST_SEG_SEQ g,
    Reg.CST_DONE_NDONE] [.bus, .cst] s t)) ∧
  (∀ (m : Master) (ncast : BitVec 12) (ovw : Bool) (s : State), s.reaches m true 0x42020000 = true → s.works .cst = true → s.cst.cast =
    none → s.castQuiet = false → (s.wr Reg.CST_CTRL_OVW (if ovw then 1 else 0)).segToArm = none → gives (.castArm m ncast ovw) s (fun t
    => t.flag Reg.CST_ALRM_NOSEG = true ∧ t.cst.cast = none ∧ t.cst.await = true ∧ onlyChanges [Reg.CST_CTRL_NCAST, Reg.CST_CTRL_OVW,
    Reg.CST_ALRM_NOSEG] [.bus, .cst] s t)) ∧
  (∀ (g : Nat) (s : State), s.works .cst = true → s.cst.cast = none → s.cst.await = true → s.castWanted = true → s.castQuiet = false →
    s.segToArm = some g → gives (.castRearm) s (fun t => t.segState g = sgArmed ∧ t.cst.cast.map (fun c => (c.seg, c.rows, c.trig)) =
    some (g, 0, none) ∧ t.cst.await = false ∧ t.cst.left = s.cst.left ∧ t.cst.evt = 0)) ∧
  (∀ (c : Cast) (s : State), s.works .cst = true → s.castQuiet = false → s.cst.cast = some c → s.flag Reg.CST_ROWCFG_RATE = false → (∀ k :
    Fin 8, s.castWord (c.srcs.getD k 0) < 65536) → c.srcs.length = 8 → gives (.cstRow none) s (fun t => (∀ k : Fin 8, (bitAt
    (c.srcs.getD k 0) 15 = false ∨ c.srcs.getD k 0 / 2 ^ 9 % 8 ≠ 6) → t.memRead ((c.base + 64 + 16 * (c.rows % max 1 (c.pre + c.post)))
    + 2 * k) 2 = s.castWord (c.srcs.getD k 0)) ∧ onlyBytes (c.base + 64 + 16 * (c.rows % max 1 (c.pre + c.post))) 16 s t ∧
    (t.cst.cast.map Cast.rows = some (c.rows + 1) ∨ (t.cst.cast = none ∧ t.segState c.seg = sgMeas ∧ t.cst.meas.getLast?.map Cast.rows
    = some (c.rows + 1))))) ∧
  (∀ (c : Cast) (r : List Cast) (s : State), s.cst.meas = c :: r → s.regionOn .acq = true → s.castQuiet = false → gives
    (.measurementComplete) s (fun t => (s.cst.await = false → t.segState c.seg = sgDone) ∧ t.rd Reg.CST_LAST_SEG = c.seg % 2 ^
    Reg.CST_LAST_SEG.wid ∧ t.cst.meas = r ∧ t.rd Reg.CST_CNT_CASTS = min (s.rd Reg.CST_CNT_CASTS + 1) (2 ^ Reg.CST_CNT_CASTS.wid - 1) ∧
    t.memRead c.base 4 = 0x54534143 ∧ t.memRead (c.base + 4) 4 = c.seq % 2 ^ 32 ∧ (s.upset = [] → onlyBytes c.base 64 s t) ∧ max
    c.ended s.cst.free + c.preN + c.postN ≤ t.clk.ticks)) ∧
  (∀ (m : Master) (s : State), s.reaches m true 0x42020000 = true → gives (.swtrig m) s (fun t => bitAt t.cst.evt 3 = true ∧ (∀ k : Fin 3,
    bitAt t.cst.evt k = bitAt s.cst.evt k) ∧ t.bus = [⟨m, 0, false⟩] ∧ onlyChanges [] [.bus, .cst] s t)) ∧
  (∀ (m : Master) (seg : BitVec 12) (s : State), s.reaches m true 0x4202003C = true → seg.toNat < s.nseg → s.segState seg.toNat = sgDone →
    gives (.cstHold m seg) s (fun t => t.segState seg.toNat = sgHeld ∧ t.rd Reg.CST_DONE_NDONE = (s.rd Reg.CST_DONE_NDONE - 1) % 2 ^
    Reg.CST_DONE_NDONE.wid ∧ t.bus = [⟨m, 0, false⟩] ∧ t.cst = s.cst ∧ onlyChanges [Reg.CST_SEG_STATE seg.toNat, Reg.CST_DONE_NDONE]
    [.bus] s t)) ∧
  (∀ (m : Master) (seg : BitVec 12) (s : State), s.reaches m true 0x42020038 = true → seg.toNat < s.nseg → s.segState seg.toNat = sgDone ∨
    s.segState seg.toNat = sgHeld → s.cst.await = false → gives (.cstRel m seg) s (fun t => t.segState seg.toNat = sgFree ∧ t.bus =
    [⟨m, 0, false⟩] ∧ t.cst = s.cst ∧ onlyChanges [Reg.CST_SEG_STATE seg.toNat, Reg.CST_DONE_NDONE] [.bus] s t)) ∧
  (∀ (m : Master) (seg : BitVec 12) (s : State), s.reaches m true 0x4202003C = true → s.nseg ≤ seg.toNat ∨ s.segState seg.toNat ≠ sgDone →
    s.flag Reg.INT_PERR_VALID = false → gives (.cstHold m seg) s (fun t => t.rd Reg.INT_PERR_KIND = peState ∧ t.rd
    Reg.INT_PERRADDR_ADDR = 0x4202003C ∧ onlyChanges [Reg.INT_PERRCNT_COUNT, Reg.INT_PERR_VALID, Reg.INT_PERR_KIND,
    Reg.INT_PERR_MASTER, Reg.INT_PERRADDR_ADDR] [.bus] s t))

/-- A scrub pass corrects a word with one wrong bit, whichever it is, and counts it, and counts a word with two as uncorrectable; an SI
above SILOAD is not doubled (the model's choice, log 62); PRT_ and PTP_ fence on an error they find; LBIST and MBIST are taken in IDLE
and MAINTENANCE and run through their regions and arrays; their results are those reported, and a logic test goes on to the drain of
the next region; ABORT lets the test end after its present part, without a verdict on it; a word of the transparent test that reads
back wrong sets TBFAIL. Readings of the model this rests on: log 32, 61, 62, 63, 87, 95. -/
def Obligations.ScrubbingAndTests : Prop :=
  (∀ (a : Fin 11) (w : Fin 65536) (b : Fin 64) (late : Bool) (s : State), s.upset = [] → s.flag Reg.BST_CTRL_EN = true → (arrayRegions
    a).all s.regionOn = true → bitAt s.bst.arrays a = false → b.val < arrayBits a + hammingBits (arrayBits a) + 1 → a.val ≠ 1 → gives
    (.scrubPass a [.bits w.val (2 ^ b.val)] late) s (fun t => t.upset = [] ∧ t.rd (Reg.BST_ECC_CORR a) = min (s.rd (Reg.BST_ECC_CORR a)
    + 1) (2 ^ (Reg.BST_ECC_CORR a).wid - 1) ∧ t.rd (Reg.BST_ECC_UNCORR a) = s.rd (Reg.BST_ECC_UNCORR a) ∧ onlyBytes 0 0 s t ∧ t.arm =
    s.arm ∧ (late = true → t.flag Reg.BST_ALRM_SCRLATE = true) ∧ spFind t.clk.timers (tmScrub a) = some t.clk.ticks)) ∧
  (∀ (a : Fin 11) (w : Fin 65536) (b c : Fin 64) (late : Bool) (s : State), s.upset = [] → s.flag Reg.BST_CTRL_EN = true → (arrayRegions
    a).all s.regionOn = true → bitAt s.bst.arrays a = false → b.val < arrayBits a + hammingBits (arrayBits a) + 1 → c.val < arrayBits a
    + hammingBits (arrayBits a) + 1 → b ≠ c → gives (.scrubPass a [.bits w.val (2 ^ b.val + 2 ^ c.val)] late) s (fun t => t.rd
    (Reg.BST_ECC_UNCORR a) = min (s.rd (Reg.BST_ECC_UNCORR a) + 1) (2 ^ (Reg.BST_ECC_UNCORR a).wid - 1) ∧ t.rd (Reg.BST_ECC_CORR a) =
    s.rd (Reg.BST_ECC_CORR a) ∧ t.upsetOf a w = 2 ^ b.val + 2 ^ c.val ∧ onlyBytes 0 0 s t)) ∧
  (∀ (a : Fin 11) (struck : List Strike) (late : Bool) (s : State), s.flag Reg.BST_CTRL_EN = true → (arrayRegions a).any s.regionOn = true
    → bitAt s.bst.arrays a = false → s.widths [Reg.BST_SCR_SI a, Reg.BST_SCR_SILOAD a] = true → s.rd (Reg.BST_SCR_SILOAD a) < s.rd
    (Reg.BST_SCR_SI a) → gives (.scrubPass a struck late) s (fun t => t.rd (Reg.BST_ECC_CORR a) = s.rd (Reg.BST_ECC_CORR a) → s.rd
    (Reg.BST_ECC_CORR a) < 0xFFFF → spGet s.bst.corr a 0 = 0 → 1 ≤ s.rd (Reg.BST_CTHR_CTHR a) → t.rd (Reg.BST_SCR_SI a) = s.rd
    (Reg.BST_SCR_SI a))) ∧
  (∀ (a : Fin 11) (prt late : Bool) (s : State), s.regionOn (if prt then .grd else .net) = true → gives (.scrubPass a [.fence prt] late) s
    (fun t => t.fenced (if prt then .prt else .ptp) = true ∧ t.mem = s.mem)) ∧
  (∀ (m : Master) (rmask : BitVec 8) (c : Nat) (r : List Nat) (s : State), s.reaches m true bstCmdAddr = true → s.idleOrMaint = true →
    s.flag Reg.BST_CTRL_EN = true → s.fenced .bst = false → s.rd Reg.BST_STAT_RUN = 0 → ([2, 3, 4, 5, 6, 7, 8].filter (fun c => bitAt
    rmask.toNat (c - 1) && s.rdBit Reg.SUP_RGN_CTRL_PWR (c - 1))) = c :: r → gives (.lbist m rmask) s (fun t => t.rd Reg.BST_STAT_RUN =
    1 ∧ t.bst.lbCur = some c ∧ t.bst.lbLeft = r ∧ t.bst.abort = false ∧ t.bus = [⟨m, 0, false⟩])) ∧
  (∀ (m : Master) (rmask : BitVec 8) (s : State), s.reaches m true bstCmdAddr = true → s.idleOrMaint = true → s.flag Reg.BST_CTRL_EN =
    true → s.fenced .bst = false → s.rd Reg.BST_STAT_RUN = 0 → ([2, 3, 4, 5, 6, 7, 8].filter (fun c => bitAt rmask.toNat (c - 1) &&
    s.rdBit Reg.SUP_RGN_CTRL_PWR (c - 1))) = [] → gives (.lbist m rmask) s (fun t => t.rd Reg.BST_STAT_RUN = 0 ∧ t.flag
    Reg.BST_ALRM_DONE = true ∧ t.bst.lbCur = none)) ∧
  (∀ (sig : Word) (r : Region) (s : State), s.bst.lbCur = some (regionCode r) → r ≠ .sup → s.bst.lbOn = true → s.bst.abort = false →
    s.bst.lbLeft = [] → gives (.lbistRegionDone sig true) s (fun t => t.rdBit Reg.BST_RESULT_LPASS (regionCode r - 1) = true ∧ t.rdBit
    Reg.BST_RESULT_LFAIL (regionCode r - 1) = false ∧ t.rd (Reg.BST_LSIG_SIG (regionCode r - 1)) = sig.toNat ∧ t.rd Reg.BST_STAT_RUN =
    0 ∧ t.flag Reg.BST_ALRM_DONE = true)) ∧
  (∀ (sig : Word) (r : Region) (s : State), s.bst.lbCur = some (regionCode r) → r ≠ .sup → s.bst.lbOn = true → s.bst.abort = false →
    s.bst.lbLeft = [] → gives (.lbistRegionDone sig false) s (fun t => t.rdBit Reg.BST_RESULT_LFAIL (regionCode r - 1) = true ∧ t.rdBit
    Reg.BST_RESULT_LPASS (regionCode r - 1) = false ∧ t.flag Reg.BST_ALRM_LBFAIL = true ∧ t.rdBit Reg.SUP_RGN_STAT_LOST (regionBit r) =
    true ∧ t.rd Reg.BST_STAT_RUN = 0 ∧ t.flag Reg.BST_ALRM_DONE = true)) ∧
  (∀ (sig : Word) (good : Bool) (r : Region) (c : Nat) (rest : List Nat) (s : State), s.bst.lbCur = some (regionCode r) → r ≠ .sup →
    s.bst.lbOn = true → s.bst.abort = false → s.bst.lbLeft = c :: rest → (regionOf c).isSome = true → c ≠ 1 → gives (.lbistRegionDone
    sig good) s (fun t => t.rd Reg.BST_STAT_RUN = s.rd Reg.BST_STAT_RUN ∧ t.bst.lbCur = some c ∧ t.bst.lbLeft = rest ∧ t.bst.lbOn =
    false ∧ spFind t.ctl.drain c = some 3 ∧ t.rdBit Reg.BST_RESULT_LPASS (regionCode r - 1) = good ∧ t.rdBit Reg.BST_RESULT_LFAIL
    (regionCode r - 1) = !good ∧ t.rd (Reg.BST_LSIG_SIG (regionCode r - 1)) = sig.toNat ∧ (good = false → t.rdBit Reg.SUP_RGN_STAT_LOST
    (regionBit r) = true))) ∧
  (∀ (sig : Word) (good : Bool) (r : Region) (s : State), s.bst.lbCur = some (regionCode r) → r ≠ .sup → s.bst.lbOn = true → s.bst.abort =
    true → gives (.lbistRegionDone sig good) s (fun t => t.rd Reg.BST_STAT_RUN = 0 ∧ t.flag Reg.BST_ALRM_DONE = true ∧ t.bst.lbCur =
    none ∧ t.bst.lbLeft = [] ∧ t.rd (Reg.BST_LSIG_SIG (regionCode r - 1)) = s.rd (Reg.BST_LSIG_SIG (regionCode r - 1)) ∧ t.rdBit
    Reg.BST_RESULT_LPASS (regionCode r - 1) = s.rdBit Reg.BST_RESULT_LPASS (regionCode r - 1) ∧ t.rdBit Reg.BST_RESULT_LFAIL
    (regionCode r - 1) = s.rdBit Reg.BST_RESULT_LFAIL (regionCode r - 1))) ∧
  (∀ (m : Master) (amask : BitVec 16) (s : State), s.reaches m true bstCmdAddr = true → s.idleOrMaint = true → s.flag Reg.BST_CTRL_EN =
    true → s.fenced .bst = false → s.rd Reg.BST_STAT_RUN = 0 → gives (.mbist m amask) s (fun t => t.rd Reg.BST_STAT_RUN = 2 ∧ (∀ a :
    Fin 16, bitAt t.bst.arrays a = (decide (1 ≤ a.val ∧ a.val ≤ 9) && bitAt amask.toNat a && (arrayRegions a).all s.regionOn)) ∧ (bitAt
    t.bst.arrays 2 = true → (t.mem.all (fun c => !(decide (0x20000000 ≤ c.1) && decide (c.1 < 0x20C00000)))) = true) ∧ (bitAt
    t.bst.arrays 5 = true → t.arm.dat = []) ∧ t.bus = [⟨m, 0, false⟩])) ∧
  (∀ (failed : List (Fin 11 × Word)) (s : State), s.rd Reg.BST_STAT_RUN = 2 → s.bst.abort = false → s.bst.arrays < 1024 → gives
    (.mbistDone failed) s (fun t => t.rd Reg.BST_STAT_RUN = 0 ∧ t.flag Reg.BST_ALRM_DONE = true ∧ t.bst.arrays = 0 ∧ (∀ a : Fin 11,
    bitAt s.bst.arrays a = true → t.rdBit Reg.BST_RESULT_MFAIL a = failed.any (fun e => decide (e.1 = a))))) ∧
  (∀ (m : Master) (s : State), s.reaches m true bstCmdAddr = true → s.rd Reg.BST_STAT_RUN ≠ 0 → gives (.abort m) s (fun t => t.bst =
    { s.bst with abort := true, lbLeft := [] } ∧ t.rd Reg.BST_STAT_RUN = s.rd Reg.BST_STAT_RUN ∧ onlyChanges [] [.bus, .bst] s t)) ∧
  (∀ (a : Fin 11) (w : Nat) (last : Bool) (s : State), s.tbQuiet a w = true → s.upsetOf a w = 0 → gives (.transparentTestWord a w false
    last) s (fun t => (last = true → t.rd (Reg.BST_TB_PASSES a) = (s.rd (Reg.BST_TB_PASSES a) + 1) % 2 ^ (Reg.BST_TB_PASSES a).wid) ∧
    t.bst = { s.bst with tb := if last then none else some a.val } ∧ onlyChanges [Reg.BST_TB_PASSES a] [.bst] s t)) ∧
  (∀ (a : Fin 11) (w : Nat) (last : Bool) (s : State), s.tbQuiet a w = true → s.upsetOf a w = 0 → gives (.transparentTestWord a w true
    last) s (fun t => t.flag Reg.BST_ALRM_TBFAIL = true ∧ onlyBytes 0 0 s t))

/-- A judgement reports the worst slacks and raises vset by one step below SLKLO, by two below SLKCRIT, never above VMAXSET, and keeps
it in the band; the derating, the restoring, the base capture, the measurements and the log act as R451 to R457 say; the PMBus master
confirms a set point within 10 mV, and after three repeats reports AVSFAIL; TJ and condensation are reported. Readings of the model
this rests on: log 33, 34, 35, 39, 64, 65. -/
def Obligations.AgeingAndPower : Prop :=
  (∀ (core sup : BitVec 16) (s : State), s.works .pat = true → s.flag Reg.PAT_CTRL_PLANV = true → s.flag Reg.PWR_STAT_BUSY = false →
    s.flag Reg.PWR_CFG_EN = true → s.flag Reg.PAT_STAT_PLANSTOP = false → ((5 * s.rd Reg.PAT_SCFG_SLKCRIT : Nat) : Int) ≤ (min (signed
    16 core.toNat) (signed 16 sup.toNat)) → (min (signed 16 core.toNat) (signed 16 sup.toNat)) < ((5 * s.rd Reg.PAT_SCFG_SLKLO : Nat) :
    Int) → s.rd Reg.PWR_VSET_VSET ≤ s.rd Reg.PAT_VCFG_VMAXSET → gives (.patinaJudgement core sup) s (fun t => t.rd Reg.PWR_VSET_VSET =
    min (s.rd Reg.PAT_VCFG_VMAXSET) (s.rd Reg.PWR_VSET_VSET + s.rd Reg.PAT_VCFG_VSTEP) % 2 ^ Reg.PWR_VSET_VSET.wid ∧ t.rd
    Reg.PAT_SLACK_CORE = core.toNat ∧ t.rd Reg.PAT_SLACK_SUP = sup.toNat ∧ ((min (signed 16 core.toNat) (signed 16 sup.toNat)) ≤ ((5 *
    s.rd Reg.PAT_SCFG_SLKHI : Nat) : Int) → t.bst.hiRun = 0) ∧ (s.rd Reg.PWR_VSET_VSET = s.rd Reg.PAT_VCFG_VMAXSET → t.flag
    Reg.PAT_ALRM_EXHAUST = true))) ∧
  (∀ (core sup : BitVec 16) (s : State), s.works .pat = true → s.flag Reg.PAT_CTRL_PLANV = true → s.flag Reg.PWR_STAT_BUSY = false →
    s.flag Reg.PWR_CFG_EN = true → s.flag Reg.PAT_STAT_PLANSTOP = false → (min (signed 16 core.toNat) (signed 16 sup.toNat)) < ((5 *
    s.rd Reg.PAT_SCFG_SLKCRIT : Nat) : Int) → ((5 * s.rd Reg.PAT_SCFG_SLKCRIT : Nat) : Int) ≤ ((5 * s.rd Reg.PAT_SCFG_SLKLO : Nat) :
    Int) → ((5 * s.rd Reg.PAT_SCFG_SLKLO : Nat) : Int) ≤ ((5 * s.rd Reg.PAT_SCFG_SLKHI : Nat) : Int) → s.rd Reg.PWR_VSET_VSET ≤ s.rd
    Reg.PAT_VCFG_VMAXSET → gives (.patinaJudgement core sup) s (fun t => t.rd Reg.PWR_VSET_VSET = min (s.rd Reg.PAT_VCFG_VMAXSET) (s.rd
    Reg.PWR_VSET_VSET + 2 * s.rd Reg.PAT_VCFG_VSTEP) % 2 ^ Reg.PWR_VSET_VSET.wid ∧ t.flag Reg.PAT_ALRM_SLKLOW = true)) ∧
  (∀ (core sup : BitVec 16) (s : State), s.works .pat = true → s.flag Reg.PAT_CTRL_PLANV = true → s.flag Reg.PWR_STAT_BUSY = false → ((5 *
    s.rd Reg.PAT_SCFG_SLKCRIT : Nat) : Int) ≤ (min (signed 16 core.toNat) (signed 16 sup.toNat)) → ((5 * s.rd Reg.PAT_SCFG_SLKLO : Nat)
    : Int) ≤ (min (signed 16 core.toNat) (signed 16 sup.toNat)) → (min (signed 16 core.toNat) (signed 16 sup.toNat)) ≤ ((5 * s.rd
    Reg.PAT_SCFG_SLKHI : Nat) : Int) → gives (.patinaJudgement core sup) s (fun t => t.rd Reg.PWR_VSET_VSET = s.rd Reg.PWR_VSET_VSET ∧
    t.rd Reg.PAT_VREQ_VREQ = s.rd Reg.PWR_VSET_VSET % 2 ^ Reg.PAT_VREQ_VREQ.wid ∧ t.bst.hiRun = 0 ∧ t.sent.filter notMsi =
    s.sent.filter notMsi)) ∧
  (∀ (core sup : BitVec 16) (s : State), s.works .pat = true → gives (.lateTransition core sup) s (fun t => t.flag Reg.PAT_ALRM_TIMEERR =
    true ∧ t.rd Reg.PAT_SLACK_CORE = core.toNat ∧ t.rd Reg.PAT_SLACK_SUP = sup.toNat)) ∧
  (∀ (s : State), s.works .pat = true → s.flag Reg.PAT_CTRL_PLANCLK = true → s.timerOn tmSupLow = true → s.rd Reg.PAT_STAT_SUPSTEP < 2 →
    gives (.patinaSupDerate) s (fun t => t.rd Reg.PAT_STAT_SUPSTEP = s.rd Reg.PAT_STAT_SUPSTEP + 1 ∧ t.flag Reg.PAT_ALRM_DERATE = true
    ∧ spFind t.clk.timers tmSupLow = some t.clk.ticks)) ∧
  (∀ (m : Master) (s : State), s.reaches m true 0x40080000 = true → s.idleOrMaint = true → gives (.restore m) s (fun t => t.rd
    Reg.PAT_STAT_SUPSTEP = 0 ∧ t.bus = [⟨m, 0, false⟩] ∧ onlyChanges [Reg.PAT_STAT_SUPSTEP] [.bus] s t)) ∧
  (∀ (m : Master) (s : State), s.reaches m true 0x40080000 = true → gives (.basecap m) s (fun t => (∀ l : Fin 44, s.laneOn l = true → t.rd
    (Reg.PAT_EYE_BASEH l) = s.rd (Reg.PAT_EYE_H l) % 2 ^ (Reg.PAT_EYE_BASEH l).wid) ∧ (∀ l : Fin 44, s.laneOn l = false → t.rd
    (Reg.PAT_EYE_BASEH l) = s.rd (Reg.PAT_EYE_BASEH l)) ∧ t.rd Reg.PAT_VREQ_VREQ0 = s.rd Reg.PAT_VREQ_VREQ % 2 ^ Reg.PAT_VREQ_VREQ0.wid
    ∧ t.bus = [⟨m, 0, false⟩])) ∧
  (∀ (mv : BitVec 16) (s : State), s.works .pat = true → 24 ≤ s.bst.sramAge → gives (.patinaMeasurement (.sram mv)) s (fun t => t.rd
    Reg.PAT_SRAM_VMIN = mv.toNat % 2 ^ Reg.PAT_SRAM_VMIN.wid ∧ t.bst.sramAge = 0 ∧ (790 < mv.toNat → t.flag Reg.PAT_ALRM_VMIN = true) ∧
    onlyChanges [Reg.PAT_SRAM_VMIN, Reg.PAT_ALRM_VMIN] [.bst] s t)) ∧
  (∀ (h v : Byte) (l : Nat) (s : State), s.works .pat = true → s.nextLane 44 s.bst.lane = some l → gives (.patinaMeasurement (.eye h v)) s
    (fun t => t.rd (Reg.PAT_EYE_H l) = h.toNat ∧ t.rd (Reg.PAT_EYE_V l) = v.toNat ∧ t.bst.lane = (l + 1) % 44 ∧ (h.toNat < s.rd
    Reg.PAT_EYECFG_EYEH → t.flag Reg.PAT_ALRM_EYE = true))) ∧
  (∀ (d : BitVec 16) (s : State), s.works .pat = true → gives (.patinaMeasurement (.ref d)) s (fun t => t.rd Reg.PAT_REF_REFDRIFT =
    d.toNat ∧ (200 < (signed 16 d.toNat).natAbs → t.flag Reg.PAT_ALRM_DRIFT = true))) ∧
  (∀ (d : BitVec 16) (s : State), s.works .pat = true → gives (.patinaMeasurement (.osc d)) s (fun t => t.rd Reg.PAT_REF_OSCSHIFT =
    d.toNat ∧ (500 < (signed 16 d.toNat).natAbs → t.flag Reg.PAT_ALRM_DRIFT = true))) ∧
  (∀ (s : State), s.works .pat = true → s.rd Reg.PAT_LOGCFG_LOGPER ≤ s.bst.logAge → 1 ≤ s.bst.logAge → s.rd Reg.PAT_LOGCFG_LOGWR < 16 →
    gives (.patinaLogWrite) s (fun t => t.rd (Reg.PAT_LOG0_HOURS (s.rd Reg.PAT_LOGCFG_LOGWR)) = s.rd Reg.PAT_HOURS_HOURS % 2 ^ 32 ∧
    t.rd (Reg.PAT_LOG1_VREQ (s.rd Reg.PAT_LOGCFG_LOGWR)) = s.rd Reg.PAT_VREQ_VREQ % 65536 ∧ t.rd Reg.PAT_LOGCFG_LOGWR = (s.rd
    Reg.PAT_LOGCFG_LOGWR + 1) % 16 ∧ t.bst.logAge = 0 ∧ t.flag Reg.PAT_ALRM_LOG = true)) ∧
  (∀ (s : State), s.works .pat = true → gives (.poweredHour) s (fun t => t.rd Reg.PAT_HOURS_HOURS = (s.rd Reg.PAT_HOURS_HOURS + 1) % 2 ^
    Reg.PAT_HOURS_HOURS.wid ∧ t.bst.logAge = s.bst.logAge + 1 ∧ t.bst.sramAge = s.bst.sramAge + 1 ∧ onlyChanges [Reg.PAT_HOURS_HOURS]
    [.bst] s t)) ∧
  (∀ (m : Master) (pagen : Bool) (page : Byte) (addr : BitVec 7) (mode : BitVec 5) (vout : BitVec 16) (s : State), s.reaches m true
    0x400A0000 = true → s.idleOrMaint = true → s.flag Reg.PWR_CFG_EN = false → gives (.pmbusEnable m pagen page addr mode vout) s (fun
    t => t.flag Reg.PWR_CFG_EN = true ∧ t.rd Reg.PWR_CFG_PAGE = page.toNat ∧ t.rd Reg.PWR_CFG_ADDR = addr.toNat ∧ t.rd
    Reg.PWR_VSET_VSET = t.rd Reg.PWR_VSET_VREAD % 2 ^ Reg.PWR_VSET_VSET.wid ∧ t.bst.vexp = mode.toNat ∧ t.flag Reg.PWR_STAT_BUSY =
    false ∧ t.bus = [⟨m, 0, false⟩])) ∧
  (∀ (vout : BitVec 16) (s : State), s.regionOn .sup = true → s.flag Reg.PWR_CFG_EN = true → s.timerOn tmPmb = true → (s.voutFine
    vout.toNat - (s.rd Reg.PWR_VSET_VSET : Int) * 65536).natAbs ≤ 655360 → gives (.pmbusConfirm vout) s (fun t => t.flag
    Reg.PWR_STAT_BUSY = false ∧ t.rd Reg.PWR_VSET_VSET = s.rd Reg.PWR_VSET_VSET ∧ t.timerOn tmPmb = false ∧ t.sent.filter notMsi =
    s.sent.filter notMsi)) ∧
  (∀ (vout : BitVec 16) (s : State), s.regionOn .sup = true → s.flag Reg.PWR_CFG_EN = true → s.timerOn tmPmb = true → 655360 < (s.voutFine
    vout.toNat - (s.rd Reg.PWR_VSET_VSET : Int) * 65536).natAbs → 3 ≤ s.bst.tries → gives (.pmbusConfirm vout) s (fun t => t.flag
    Reg.PWR_STAT_BUSY = false ∧ t.flag Reg.PWR_STAT_AVSFAIL = true ∧ t.flag Reg.PAT_STAT_PLANSTOP = true)) ∧
  (∀ (status : BitVec 16) (s : State), s.regionOn .sup = true → s.flag Reg.PWR_CFG_EN = true → gives (.pmbusAlert true status) s (fun t =>
    t.rd Reg.PWR_STAT_STATUS = status.toNat ∧ t.flag Reg.PWR_STAT_ALERT = true ∧ t.pins = { s.pins with alertLow := true } ∧
    onlyChanges [Reg.PWR_STAT_STATUS, Reg.PWR_STAT_ALERT] [.pins] s t)) ∧
  (∀ (tj : BitVec 16) (s : State), s.regionOn .sup = true → gives (.tjMeasure tj) s (fun t => t.rd Reg.PWR_ENV_TJ = tj.toNat ∧ (((16 *
    s.rd Reg.PWR_ENV_TJLIM : Nat) : Int) ≤ signed 16 tj.toNat → t.flag Reg.PWR_ENV_TJHI = true) ∧ spFind t.clk.timers tmTj = some
    t.clk.ticks ∧ onlyChanges [Reg.PWR_ENV_TJ, Reg.PWR_ENV_TJHI, Reg.PTP_ALRM_WRAP, Reg.CST_TSHI_TSHI] [.clk, .sup] s t)) ∧
  (∀ (level : Bool) (s : State), s.regionOn .sup = true → s.flag Reg.PWR_ENV_CEN = true → gives (.condenseChange level) s (fun t => t.flag
    Reg.PWR_ENV_CLIVE = (level != s.flag Reg.PWR_ENV_CPOL) ∧ (t.flag Reg.PWR_ENV_CLIVE = true → s.flag Reg.PWR_ENV_CLIVE = false →
    t.flag Reg.PWR_ENV_COND = true) ∧ t.pins = { s.pins with condense := level } ∧ onlyChanges [Reg.PWR_ENV_CLIVE, Reg.PWR_ENV_COND]
    [.pins] s t))

/-- FRAME_START begins the frame at the instant of trigger 0 with the next frame number, the trigger's next instant one period on,
every running link port due to launch and the copy of the 64 channel values with their instants; a member of a pair whose wait of R253
has ended without the Mallet then enters SHADOW; MAQUETTE_LOAD from flash enters IDLE with core 0 at ENTRY where the image passes every
check, and otherwise stays in BOOT with its error and with NET powered. Readings of the model this rests on: log 66, 69, 71, 73, 95. -/
def Obligations.FrameStartAndLoad : Prop :=
  (∀ (x : FrameIn) (s : State), s.flag (Reg.PTP_TRGCFG_EN 0) = true → s.regionOn .net = true → 10000 ≤ s.frameNs ∧ s.frameNs ≤ 200000 →
    s.widths [Reg.PTP_TRGCFG_PERIOD 0, Reg.PTP_TRGNEXT_NEXT 0] = true → gives (.frameStart x) s (fun t => t.rd Reg.MQT_LFRAME_NOW =
    (s.rd Reg.MQT_LFRAME_NOW + 1) % 65536 ∧ t.frm.t0 = (if diff32 (s.rd (Reg.PTP_TRGNEXT_NEXT 0)) s.now < 0 then s.now else s.rd
    (Reg.PTP_TRGNEXT_NEXT 0)) ∧ t.ang.resBad = x.angBad ∧ (∀ p : Fin 32, t.works (lnkBlock p.val) = true → launchMode t.mode = true →
    (t.port p).due = true) ∧ (0 < s.clk.inc ∧ s.clk.inc < 2 ^ 36 ∧ s.clk.time < 2 ^ 64 ∧ -(2 ^ 31 - 2 ^ 29) < diff32 s.now (s.rd
    (Reg.PTP_TRGNEXT_NEXT 0)) ∧ diff32 s.now (s.rd (Reg.PTP_TRGNEXT_NEXT 0)) ≤ 0 → t.rd (Reg.PTP_TRGNEXT_NEXT 0) = (s.rd
    (Reg.PTP_TRGNEXT_NEXT 0) + s.frameNs) % 2 ^ 32) ∧ (s.mqt.staged = none → ∀ k : Fin 8, t.lrd (Reg.PRF_TGT_TGT k) = s.rd
    (Reg.PRF_TGT_TGT k)))) ∧
  (∀ (x : FrameIn) (c : Fin 64) (s : State), s.flag (Reg.PTP_TRGCFG_EN 0) = true → s.regionOn .net = true → s.unreadable 6 (fun w =>
    decide (4096 ≤ w)) = false → s.mqt.staged = none → gives (.frameStart x) s (fun t => spGet t.acq.snap c 0 = s.rd
    (Reg.ACQ_CHVAL_VALID c) * 2 ^ 31 + s.rd (Reg.ACQ_CHVAL_SAT c) * 2 ^ 30 + s.rd (Reg.ACQ_CHVAL_STALE c) * 2 ^ 29 + s.rd
    (Reg.ACQ_CHVAL_NOSYNC c) * 2 ^ 28 + s.rd (Reg.ACQ_CHVAL_SEQ c) * 2 ^ 20 + s.rd (Reg.ACQ_CHVAL_RES c) * 2 ^ 16 + s.rd
    (Reg.ACQ_CHVAL_DATA c) ∧ spGet t.acq.snapTime c 0 = s.rd (Reg.ACQ_CHTIME_TIME c))) ∧
  (∀ (x : FrameIn) (r : Nat) (s : State), s.flag (Reg.PTP_TRGCFG_EN 0) = true → s.regionOn .net = true → s.mode = mIdle → s.paired = true
    → s.mir.holds = false → s.ctl.shadowDue = true → s.ctl.req = some r → r % 16 = mPrecharge → s.ctl.lock = none → s.rd
    Reg.BST_STAT_RUN = 0 → s.mqt.staged = none → gives (.frameStart x) s (fun t => t.mode = mShadow ∧ t.ctl.req = none ∧
    t.ctl.shadowDue = false ∧ t.flag Reg.SUP_MODESTAT_PEND = false ∧ t.rd Reg.MIR_STAT_ROLE = 2 ∧ t.mir.holds = false)) ∧
  (∀ (fb : Bool) (s : State), s.loaderUp = true → s.mqt.ready = none → s.mqt.failed = false → s.bootSrc = 0 ∨ s.bootSrc = 1 ∨ s.bootSrc =
    4 → (s.fullFail (s.imageAt (placeAddr 0) (imgLimit 0)) 0) = none → gives (.maquetteLoad true fb) s (fun t => t.mode = mIdle ∧ t.rd
    (coreState 0) = 1 ∧ spGet t.sup.coreStart 0 0 = imU (s.imageAt (placeAddr 0) (imgLimit 0)) 0x18 4 ∧ t.rd Reg.MQT_VER_VERSION = imU
    (s.imageAt (placeAddr 0) (imgLimit 0)) 0x10 4 ∧ t.rd Reg.MQT_STAT_SRC = s.bootSrc ∧ t.flag (Reg.PTP_TRGCFG_EN 0) = true ∧ t.works
    .saf = true ∧ t.mqt.place = 0)) ∧
  (∀ (ok fb : Bool) (f : ImgFail) (s : State), s.loaderUp = true → s.mqt.ready = none → s.mqt.failed = false → s.bootSrc = 1 ∨ s.bootSrc =
    4 → ok = true → (s.fullFail (s.imageAt (placeAddr 0) (imgLimit 0)) 0) = some f → gives (.maquetteLoad ok fb) s (fun t => t.mode =
    mBoot ∧ t.rd Reg.MQT_ERR_CODE = f.code % 2 ^ Reg.MQT_ERR_CODE.wid ∧ t.rd Reg.MQT_ERROFS_OFS = f.ofs % 2 ^ 32 ∧ t.mqt.failed = true
    ∧ t.regionOn .net = true ∧ t.regionOn .sup = true)) ∧
  (∀ (fb : Bool) (s : State), s.loaderUp = true → s.mqt.ready = none → s.mqt.failed = false → s.bootSrc = 1 ∨ s.bootSrc = 4 → gives
    (.maquetteLoad false fb) s (fun t => t.mode = mBoot ∧ t.rd Reg.MQT_ERR_CODE = 1 ∧ t.mqt.failed = true ∧ t.regionOn .net = true))
end

