-- ==== Sys2Proof/Laws/Sparse.lean ====
section
/-! SUPPORT. What reading, writing and deleting in a sparse store do, and that they keep its canonical form. -/

namespace Sys2Proof.Machine

theorem spFind_spPut_same {α : Type} (m : Sparse α) (k : Nat) (v : α) : spFind (spPut m k v) k = some v := by
  induction m with
  | nil => simp [spPut, spFind]
  | cons e r ih =>
    obtain ⟨k', v'⟩ := e
    unfold spPut
    split
    · simp [spFind]
    · split
      · simp [spFind]
      · rename_i h1 h2
        have : k' ≠ k := fun h => h2 h.symm
        simp [spFind, this, ih]

theorem spFind_spPut_ne {α : Type} (m : Sparse α) {k j : Nat} (v : α) (h : j ≠ k) : spFind (spPut m k v) j = spFind m j := by
  induction m with
  | nil => simp [spPut, spFind, h.symm]
  | cons e r ih =>
    obtain ⟨k', v'⟩ := e
    unfold spPut
    split
    · simp [spFind, h.symm]
    · split
      · rename_i h1 h2
        subst h2
        simp [spFind, h.symm]
      · simp only [spFind, ih]

theorem spFind_spDel_same {α : Type} (m : Sparse α) (k : Nat) : spFind (spDel m k) k = none := by
  induction m with
  | nil => rfl
  | cons e r ih =>
    obtain ⟨k', v'⟩ := e
    unfold spDel
    split
    · exact ih
    · rename_i h
      simp [spFind, h, ih]

theorem spFind_spDel_ne {α : Type} (m : Sparse α) {k j : Nat} (h : j ≠ k) : spFind (spDel m k) j = spFind m j := by
  induction m with
  | nil => rfl
  | cons e r ih =>
    obtain ⟨k', v'⟩ := e
    unfold spDel
    split
    · rename_i h'
      subst h'
      simp [spFind, h.symm, ih]
    · simp only [spFind, ih]

@[simp] theorem spGet_spPut_same {α : Type} (m : Sparse α) (k : Nat) (v d : α) : spGet (spPut m k v) k d = v := by
  simp [spGet, spFind_spPut_same]

theorem spGet_spPut_ne {α : Type} (m : Sparse α) {k j : Nat} (v d : α) (h : j ≠ k) : spGet (spPut m k v) j d = spGet m j d := by
  simp [spGet, spFind_spPut_ne m v h]

@[simp] theorem spGet_spSet_same {α : Type} [DecidableEq α] (m : Sparse α) (k : Nat) (v d : α) : spGet (spSet m k v d) k d = v := by
  unfold spSet
  split
  · simp [spGet, spFind_spDel_same, *]
  · simp

theorem spGet_spSet_ne {α : Type} [DecidableEq α] (m : Sparse α) {k j : Nat} (v d e : α) (h : j ≠ k) :
    spGet (spSet m k v d) j e = spGet m j e := by
  unfold spSet
  split
  · simp [spGet, spFind_spDel_ne m h]
  · exact spGet_spPut_ne m v e h

/-- A store sorted from above a bound is sorted from above a lower one. -/
theorem spSorted_mono {α : Type} {m : Sparse α} {a b : Nat} (h : spSorted b m = true) (hab : a ≤ b) : spSorted a m = true := by
  cases m with
  | nil => rfl
  | cons e r =>
    simp only [spSorted, Bool.and_eq_true, decide_eq_true_eq] at h ⊢
    exact ⟨Nat.le_trans hab h.1, h.2⟩

theorem spSorted_spPut {α : Type} (m : Sparse α) (b k : Nat) (v : α) (h : spSorted b m = true) (hk : b ≤ k) :
    spSorted b (spPut m k v) = true := by
  induction m generalizing b with
  | nil => simp [spPut, spSorted, hk]
  | cons e r ih =>
    obtain ⟨k', v'⟩ := e
    simp only [spSorted, Bool.and_eq_true, decide_eq_true_eq] at h
    unfold spPut
    split
    · rename_i h1
      simp only [spSorted, Bool.and_eq_true, decide_eq_true_eq]
      exact ⟨hk, h1, h.2⟩
    · split
      · rename_i h1 h2
        subst h2
        simp only [spSorted, Bool.and_eq_true, decide_eq_true_eq]
        exact ⟨hk, h.2⟩
      · rename_i h1 h2
        simp only [spSorted, Bool.and_eq_true, decide_eq_true_eq]
        exact ⟨h.1, ih (k' + 1) h.2 (by omega)⟩

theorem spSorted_spDel {α : Type} (m : Sparse α) (b k : Nat) (h : spSorted b m = true) : spSorted b (spDel m k) = true := by
  induction m generalizing b with
  | nil => rfl
  | cons e r ih =>
    obtain ⟨k', v'⟩ := e
    simp only [spSorted, Bool.and_eq_true, decide_eq_true_eq] at h
    unfold spDel
    split
    · exact spSorted_mono (ih (k' + 1) h.2) (by omega)
    · simp only [spSorted, Bool.and_eq_true, decide_eq_true_eq]
      exact ⟨h.1, ih (k' + 1) h.2⟩

theorem spSorted_spSet {α : Type} [DecidableEq α] (m : Sparse α) (b k : Nat) (v d : α) (h : spSorted b m = true) (hk : b ≤ k) :
    spSorted b (spSet m k v d) = true := by
  unfold spSet
  split
  · exact spSorted_spDel m b k h
  · exact spSorted_spPut m b k v h hk

/-- The entries after a deletion were entries before. -/
theorem mem_spDel {α : Type} {m : Sparse α} {k : Nat} {e : Nat × α} (h : e ∈ spDel m k) : e ∈ m := by
  induction m with
  | nil => simp [spDel] at h
  | cons x r ih =>
    unfold spDel at h
    split at h
    · exact List.mem_cons_of_mem _ (ih h)
    · rcases List.mem_cons.mp h with h | h
      · exact h ▸ List.mem_cons_self ..
      · exact List.mem_cons_of_mem _ (ih h)

/-- The entries after a write are the one written and entries from before. -/
theorem mem_spPut {α : Type} {m : Sparse α} {k : Nat} {v : α} {e : Nat × α} (h : e ∈ spPut m k v) : e = (k, v) ∨ e ∈ m := by
  induction m with
  | nil => simpa [spPut] using h
  | cons x r ih =>
    unfold spPut at h
    split at h
    · exact (List.mem_cons.mp h)
    · split at h
      · rcases List.mem_cons.mp h with h | h
        · exact .inl h
        · exact .inr (List.mem_cons_of_mem _ h)
      · rcases List.mem_cons.mp h with h | h
        · exact .inr (h ▸ List.mem_cons_self ..)
        · exact (ih h).imp_right (List.mem_cons_of_mem _)

/-! ## The byte memories -/

/-- Writing a byte keeps the canonical form of a memory. -/
theorem memory_wf_spSet (m : List Host.Cell) (a : Nat) (b : Byte) (h : Memory.wf m = true) :
    Memory.wf (spSet m a b memDefault) = true := by
  simp only [Memory.wf, Bool.and_eq_true, List.all_eq_true, bne_iff_ne] at h ⊢
  refine ⟨spSorted_spSet m 0 a b memDefault h.1 (Nat.zero_le _), fun e he => ?_⟩
  unfold spSet at he
  split at he
  · exact h.2 e (mem_spDel he)
  · rename_i hb
    rcases mem_spPut he with rfl | he
    · exact hb
    · exact h.2 e he

/-- Keeping some of a memory's cells keeps its canonical form. -/
theorem spSorted_filter {α : Type} (m : Sparse α) (b : Nat) (p : Nat × α → Bool) (h : spSorted b m = true) :
    spSorted b (m.filter p) = true := by
  induction m generalizing b with
  | nil => rfl
  | cons e r ih =>
    obtain ⟨k', v'⟩ := e
    simp only [spSorted, Bool.and_eq_true, decide_eq_true_eq] at h
    rw [List.filter_cons]
    split
    · simp only [spSorted, Bool.and_eq_true, decide_eq_true_eq]
      exact ⟨h.1, ih (k' + 1) h.2⟩
    · exact spSorted_mono (ih (k' + 1) h.2) (by omega)

theorem memory_wf_filter (m : List Host.Cell) (p : Host.Cell → Bool) (h : Memory.wf m = true) : Memory.wf (m.filter p) = true := by
  simp only [Memory.wf, Bool.and_eq_true, List.all_eq_true] at h ⊢
  exact ⟨spSorted_filter m 0 p h.1, fun e he => h.2 e (List.mem_filter.mp he).1⟩

end Sys2Proof.Machine
end

