-- ==== Sys2Proof/Laws/State.lean ====
section
/-! SUPPORT. What each setter of State leaves and gives: one lemma per field and setter, true by unfolding. -/

namespace Sys2Proof.Machine

@[simp] theorem State.setPending_pending (s : State) (x : List Instr) : (s.setPending x).pending = x := rfl
@[simp] theorem State.setPending_regs (s : State) (x : List Instr) : (s.setPending x).regs = s.regs := rfl
@[simp] theorem State.setPending_latch (s : State) (x : List Instr) : (s.setPending x).latch = s.latch := rfl
@[simp] theorem State.setPending_clk (s : State) (x : List Instr) : (s.setPending x).clk = s.clk := rfl
@[simp] theorem State.setPending_free (s : State) (x : List Instr) : (s.setPending x).free = s.free := rfl
@[simp] theorem State.setPending_bus (s : State) (x : List Instr) : (s.setPending x).bus = s.bus := rfl
@[simp] theorem State.setPending_sent (s : State) (x : List Instr) : (s.setPending x).sent = s.sent := rfl
@[simp] theorem State.setPending_mem (s : State) (x : List Instr) : (s.setPending x).mem = s.mem := rfl
@[simp] theorem State.setPending_upset (s : State) (x : List Instr) : (s.setPending x).upset = s.upset := rfl
@[simp] theorem State.setPending_sup (s : State) (x : List Instr) : (s.setPending x).sup = s.sup := rfl
@[simp] theorem State.setPending_fuses (s : State) (x : List Instr) : (s.setPending x).fuses = s.fuses := rfl
@[simp] theorem State.setPending_policy (s : State) (x : List Instr) : (s.setPending x).policy = s.policy := rfl
@[simp] theorem State.setPending_ctl (s : State) (x : List Instr) : (s.setPending x).ctl = s.ctl := rfl
@[simp] theorem State.setPending_acq (s : State) (x : List Instr) : (s.setPending x).acq = s.acq := rfl
@[simp] theorem State.setPending_ang (s : State) (x : List Instr) : (s.setPending x).ang = s.ang := rfl
@[simp] theorem State.setPending_resRec (s : State) (x : List Instr) : (s.setPending x).resRec = s.resRec := rfl
@[simp] theorem State.setPending_pins (s : State) (x : List Instr) : (s.setPending x).pins = s.pins := rfl
@[simp] theorem State.setPending_net (s : State) (x : List Instr) : (s.setPending x).net = s.net := rfl
@[simp] theorem State.setPending_frm (s : State) (x : List Instr) : (s.setPending x).frm = s.frm := rfl
@[simp] theorem State.setPending_prf (s : State) (x : List Instr) : (s.setPending x).prf = s.prf := rfl
@[simp] theorem State.setPending_arm (s : State) (x : List Instr) : (s.setPending x).arm = s.arm := rfl
@[simp] theorem State.setPending_mod (s : State) (x : List Instr) : (s.setPending x).mod = s.mod := rfl
@[simp] theorem State.setPending_lnk (s : State) (x : List Instr) : (s.setPending x).lnk = s.lnk := rfl
@[simp] theorem State.setPending_nodes (s : State) (x : List Instr) : (s.setPending x).nodes = s.nodes := rfl
@[simp] theorem State.setPending_mir (s : State) (x : List Instr) : (s.setPending x).mir = s.mir := rfl
@[simp] theorem State.setPending_brg (s : State) (x : List Instr) : (s.setPending x).brg = s.brg := rfl
@[simp] theorem State.setPending_saf (s : State) (x : List Instr) : (s.setPending x).saf = s.saf := rfl
@[simp] theorem State.setPending_cst (s : State) (x : List Instr) : (s.setPending x).cst = s.cst := rfl
@[simp] theorem State.setPending_flash (s : State) (x : List Instr) : (s.setPending x).flash = s.flash := rfl
@[simp] theorem State.setPending_mqt (s : State) (x : List Instr) : (s.setPending x).mqt = s.mqt := rfl
@[simp] theorem State.setPending_bst (s : State) (x : List Instr) : (s.setPending x).bst = s.bst := rfl

@[simp] theorem State.setRegs_pending (s : State) (x : Sparse Nat) : (s.setRegs x).pending = s.pending := rfl
@[simp] theorem State.setRegs_regs (s : State) (x : Sparse Nat) : (s.setRegs x).regs = x := rfl
@[simp] theorem State.setRegs_latch (s : State) (x : Sparse Nat) : (s.setRegs x).latch = s.latch := rfl
@[simp] theorem State.setRegs_clk (s : State) (x : Sparse Nat) : (s.setRegs x).clk = s.clk := rfl
@[simp] theorem State.setRegs_free (s : State) (x : Sparse Nat) : (s.setRegs x).free = s.free := rfl
@[simp] theorem State.setRegs_bus (s : State) (x : Sparse Nat) : (s.setRegs x).bus = s.bus := rfl
@[simp] theorem State.setRegs_sent (s : State) (x : Sparse Nat) : (s.setRegs x).sent = s.sent := rfl
@[simp] theorem State.setRegs_mem (s : State) (x : Sparse Nat) : (s.setRegs x).mem = s.mem := rfl
@[simp] theorem State.setRegs_upset (s : State) (x : Sparse Nat) : (s.setRegs x).upset = s.upset := rfl
@[simp] theorem State.setRegs_sup (s : State) (x : Sparse Nat) : (s.setRegs x).sup = s.sup := rfl
@[simp] theorem State.setRegs_fuses (s : State) (x : Sparse Nat) : (s.setRegs x).fuses = s.fuses := rfl
@[simp] theorem State.setRegs_policy (s : State) (x : Sparse Nat) : (s.setRegs x).policy = s.policy := rfl
@[simp] theorem State.setRegs_ctl (s : State) (x : Sparse Nat) : (s.setRegs x).ctl = s.ctl := rfl
@[simp] theorem State.setRegs_acq (s : State) (x : Sparse Nat) : (s.setRegs x).acq = s.acq := rfl
@[simp] theorem State.setRegs_ang (s : State) (x : Sparse Nat) : (s.setRegs x).ang = s.ang := rfl
@[simp] theorem State.setRegs_resRec (s : State) (x : Sparse Nat) : (s.setRegs x).resRec = s.resRec := rfl
@[simp] theorem State.setRegs_pins (s : State) (x : Sparse Nat) : (s.setRegs x).pins = s.pins := rfl
@[simp] theorem State.setRegs_net (s : State) (x : Sparse Nat) : (s.setRegs x).net = s.net := rfl
@[simp] theorem State.setRegs_frm (s : State) (x : Sparse Nat) : (s.setRegs x).frm = s.frm := rfl
@[simp] theorem State.setRegs_prf (s : State) (x : Sparse Nat) : (s.setRegs x).prf = s.prf := rfl
@[simp] theorem State.setRegs_arm (s : State) (x : Sparse Nat) : (s.setRegs x).arm = s.arm := rfl
@[simp] theorem State.setRegs_mod (s : State) (x : Sparse Nat) : (s.setRegs x).mod = s.mod := rfl
@[simp] theorem State.setRegs_lnk (s : State) (x : Sparse Nat) : (s.setRegs x).lnk = s.lnk := rfl
@[simp] theorem State.setRegs_nodes (s : State) (x : Sparse Nat) : (s.setRegs x).nodes = s.nodes := rfl
@[simp] theorem State.setRegs_mir (s : State) (x : Sparse Nat) : (s.setRegs x).mir = s.mir := rfl
@[simp] theorem State.setRegs_brg (s : State) (x : Sparse Nat) : (s.setRegs x).brg = s.brg := rfl
@[simp] theorem State.setRegs_saf (s : State) (x : Sparse Nat) : (s.setRegs x).saf = s.saf := rfl
@[simp] theorem State.setRegs_cst (s : State) (x : Sparse Nat) : (s.setRegs x).cst = s.cst := rfl
@[simp] theorem State.setRegs_flash (s : State) (x : Sparse Nat) : (s.setRegs x).flash = s.flash := rfl
@[simp] theorem State.setRegs_mqt (s : State) (x : Sparse Nat) : (s.setRegs x).mqt = s.mqt := rfl
@[simp] theorem State.setRegs_bst (s : State) (x : Sparse Nat) : (s.setRegs x).bst = s.bst := rfl

@[simp] theorem State.setLatch_pending (s : State) (x : Sparse Nat) : (s.setLatch x).pending = s.pending := rfl
@[simp] theorem State.setLatch_regs (s : State) (x : Sparse Nat) : (s.setLatch x).regs = s.regs := rfl
@[simp] theorem State.setLatch_latch (s : State) (x : Sparse Nat) : (s.setLatch x).latch = x := rfl
@[simp] theorem State.setLatch_clk (s : State) (x : Sparse Nat) : (s.setLatch x).clk = s.clk := rfl
@[simp] theorem State.setLatch_free (s : State) (x : Sparse Nat) : (s.setLatch x).free = s.free := rfl
@[simp] theorem State.setLatch_bus (s : State) (x : Sparse Nat) : (s.setLatch x).bus = s.bus := rfl
@[simp] theorem State.setLatch_sent (s : State) (x : Sparse Nat) : (s.setLatch x).sent = s.sent := rfl
@[simp] theorem State.setLatch_mem (s : State) (x : Sparse Nat) : (s.setLatch x).mem = s.mem := rfl
@[simp] theorem State.setLatch_upset (s : State) (x : Sparse Nat) : (s.setLatch x).upset = s.upset := rfl
@[simp] theorem State.setLatch_sup (s : State) (x : Sparse Nat) : (s.setLatch x).sup = s.sup := rfl
@[simp] theorem State.setLatch_fuses (s : State) (x : Sparse Nat) : (s.setLatch x).fuses = s.fuses := rfl
@[simp] theorem State.setLatch_policy (s : State) (x : Sparse Nat) : (s.setLatch x).policy = s.policy := rfl
@[simp] theorem State.setLatch_ctl (s : State) (x : Sparse Nat) : (s.setLatch x).ctl = s.ctl := rfl
@[simp] theorem State.setLatch_acq (s : State) (x : Sparse Nat) : (s.setLatch x).acq = s.acq := rfl
@[simp] theorem State.setLatch_ang (s : State) (x : Sparse Nat) : (s.setLatch x).ang = s.ang := rfl
@[simp] theorem State.setLatch_resRec (s : State) (x : Sparse Nat) : (s.setLatch x).resRec = s.resRec := rfl
@[simp] theorem State.setLatch_pins (s : State) (x : Sparse Nat) : (s.setLatch x).pins = s.pins := rfl
@[simp] theorem State.setLatch_net (s : State) (x : Sparse Nat) : (s.setLatch x).net = s.net := rfl
@[simp] theorem State.setLatch_frm (s : State) (x : Sparse Nat) : (s.setLatch x).frm = s.frm := rfl
@[simp] theorem State.setLatch_prf (s : State) (x : Sparse Nat) : (s.setLatch x).prf = s.prf := rfl
@[simp] theorem State.setLatch_arm (s : State) (x : Sparse Nat) : (s.setLatch x).arm = s.arm := rfl
@[simp] theorem State.setLatch_mod (s : State) (x : Sparse Nat) : (s.setLatch x).mod = s.mod := rfl
@[simp] theorem State.setLatch_lnk (s : State) (x : Sparse Nat) : (s.setLatch x).lnk = s.lnk := rfl
@[simp] theorem State.setLatch_nodes (s : State) (x : Sparse Nat) : (s.setLatch x).nodes = s.nodes := rfl
@[simp] theorem State.setLatch_mir (s : State) (x : Sparse Nat) : (s.setLatch x).mir = s.mir := rfl
@[simp] theorem State.setLatch_brg (s : State) (x : Sparse Nat) : (s.setLatch x).brg = s.brg := rfl
@[simp] theorem State.setLatch_saf (s : State) (x : Sparse Nat) : (s.setLatch x).saf = s.saf := rfl
@[simp] theorem State.setLatch_cst (s : State) (x : Sparse Nat) : (s.setLatch x).cst = s.cst := rfl
@[simp] theorem State.setLatch_flash (s : State) (x : Sparse Nat) : (s.setLatch x).flash = s.flash := rfl
@[simp] theorem State.setLatch_mqt (s : State) (x : Sparse Nat) : (s.setLatch x).mqt = s.mqt := rfl
@[simp] theorem State.setLatch_bst (s : State) (x : Sparse Nat) : (s.setLatch x).bst = s.bst := rfl

@[simp] theorem State.setClk_pending (s : State) (x : Clk) : (s.setClk x).pending = s.pending := rfl
@[simp] theorem State.setClk_regs (s : State) (x : Clk) : (s.setClk x).regs = s.regs := rfl
@[simp] theorem State.setClk_latch (s : State) (x : Clk) : (s.setClk x).latch = s.latch := rfl
@[simp] theorem State.setClk_clk (s : State) (x : Clk) : (s.setClk x).clk = x := rfl
@[simp] theorem State.setClk_free (s : State) (x : Clk) : (s.setClk x).free = s.free := rfl
@[simp] theorem State.setClk_bus (s : State) (x : Clk) : (s.setClk x).bus = s.bus := rfl
@[simp] theorem State.setClk_sent (s : State) (x : Clk) : (s.setClk x).sent = s.sent := rfl
@[simp] theorem State.setClk_mem (s : State) (x : Clk) : (s.setClk x).mem = s.mem := rfl
@[simp] theorem State.setClk_upset (s : State) (x : Clk) : (s.setClk x).upset = s.upset := rfl
@[simp] theorem State.setClk_sup (s : State) (x : Clk) : (s.setClk x).sup = s.sup := rfl
@[simp] theorem State.setClk_fuses (s : State) (x : Clk) : (s.setClk x).fuses = s.fuses := rfl
@[simp] theorem State.setClk_policy (s : State) (x : Clk) : (s.setClk x).policy = s.policy := rfl
@[simp] theorem State.setClk_ctl (s : State) (x : Clk) : (s.setClk x).ctl = s.ctl := rfl
@[simp] theorem State.setClk_acq (s : State) (x : Clk) : (s.setClk x).acq = s.acq := rfl
@[simp] theorem State.setClk_ang (s : State) (x : Clk) : (s.setClk x).ang = s.ang := rfl
@[simp] theorem State.setClk_resRec (s : State) (x : Clk) : (s.setClk x).resRec = s.resRec := rfl
@[simp] theorem State.setClk_pins (s : State) (x : Clk) : (s.setClk x).pins = s.pins := rfl
@[simp] theorem State.setClk_net (s : State) (x : Clk) : (s.setClk x).net = s.net := rfl
@[simp] theorem State.setClk_frm (s : State) (x : Clk) : (s.setClk x).frm = s.frm := rfl
@[simp] theorem State.setClk_prf (s : State) (x : Clk) : (s.setClk x).prf = s.prf := rfl
@[simp] theorem State.setClk_arm (s : State) (x : Clk) : (s.setClk x).arm = s.arm := rfl
@[simp] theorem State.setClk_mod (s : State) (x : Clk) : (s.setClk x).mod = s.mod := rfl
@[simp] theorem State.setClk_lnk (s : State) (x : Clk) : (s.setClk x).lnk = s.lnk := rfl
@[simp] theorem State.setClk_nodes (s : State) (x : Clk) : (s.setClk x).nodes = s.nodes := rfl
@[simp] theorem State.setClk_mir (s : State) (x : Clk) : (s.setClk x).mir = s.mir := rfl
@[simp] theorem State.setClk_brg (s : State) (x : Clk) : (s.setClk x).brg = s.brg := rfl
@[simp] theorem State.setClk_saf (s : State) (x : Clk) : (s.setClk x).saf = s.saf := rfl
@[simp] theorem State.setClk_cst (s : State) (x : Clk) : (s.setClk x).cst = s.cst := rfl
@[simp] theorem State.setClk_flash (s : State) (x : Clk) : (s.setClk x).flash = s.flash := rfl
@[simp] theorem State.setClk_mqt (s : State) (x : Clk) : (s.setClk x).mqt = s.mqt := rfl
@[simp] theorem State.setClk_bst (s : State) (x : Clk) : (s.setClk x).bst = s.bst := rfl

@[simp] theorem State.setFree_pending (s : State) (x : Nat) : (s.setFree x).pending = s.pending := rfl
@[simp] theorem State.setFree_regs (s : State) (x : Nat) : (s.setFree x).regs = s.regs := rfl
@[simp] theorem State.setFree_latch (s : State) (x : Nat) : (s.setFree x).latch = s.latch := rfl
@[simp] theorem State.setFree_clk (s : State) (x : Nat) : (s.setFree x).clk = s.clk := rfl
@[simp] theorem State.setFree_free (s : State) (x : Nat) : (s.setFree x).free = x := rfl
@[simp] theorem State.setFree_bus (s : State) (x : Nat) : (s.setFree x).bus = s.bus := rfl
@[simp] theorem State.setFree_sent (s : State) (x : Nat) : (s.setFree x).sent = s.sent := rfl
@[simp] theorem State.setFree_mem (s : State) (x : Nat) : (s.setFree x).mem = s.mem := rfl
@[simp] theorem State.setFree_upset (s : State) (x : Nat) : (s.setFree x).upset = s.upset := rfl
@[simp] theorem State.setFree_sup (s : State) (x : Nat) : (s.setFree x).sup = s.sup := rfl
@[simp] theorem State.setFree_fuses (s : State) (x : Nat) : (s.setFree x).fuses = s.fuses := rfl
@[simp] theorem State.setFree_policy (s : State) (x : Nat) : (s.setFree x).policy = s.policy := rfl
@[simp] theorem State.setFree_ctl (s : State) (x : Nat) : (s.setFree x).ctl = s.ctl := rfl
@[simp] theorem State.setFree_acq (s : State) (x : Nat) : (s.setFree x).acq = s.acq := rfl
@[simp] theorem State.setFree_ang (s : State) (x : Nat) : (s.setFree x).ang = s.ang := rfl
@[simp] theorem State.setFree_resRec (s : State) (x : Nat) : (s.setFree x).resRec = s.resRec := rfl
@[simp] theorem State.setFree_pins (s : State) (x : Nat) : (s.setFree x).pins = s.pins := rfl
@[simp] theorem State.setFree_net (s : State) (x : Nat) : (s.setFree x).net = s.net := rfl
@[simp] theorem State.setFree_frm (s : State) (x : Nat) : (s.setFree x).frm = s.frm := rfl
@[simp] theorem State.setFree_prf (s : State) (x : Nat) : (s.setFree x).prf = s.prf := rfl
@[simp] theorem State.setFree_arm (s : State) (x : Nat) : (s.setFree x).arm = s.arm := rfl
@[simp] theorem State.setFree_mod (s : State) (x : Nat) : (s.setFree x).mod = s.mod := rfl
@[simp] theorem State.setFree_lnk (s : State) (x : Nat) : (s.setFree x).lnk = s.lnk := rfl
@[simp] theorem State.setFree_nodes (s : State) (x : Nat) : (s.setFree x).nodes = s.nodes := rfl
@[simp] theorem State.setFree_mir (s : State) (x : Nat) : (s.setFree x).mir = s.mir := rfl
@[simp] theorem State.setFree_brg (s : State) (x : Nat) : (s.setFree x).brg = s.brg := rfl
@[simp] theorem State.setFree_saf (s : State) (x : Nat) : (s.setFree x).saf = s.saf := rfl
@[simp] theorem State.setFree_cst (s : State) (x : Nat) : (s.setFree x).cst = s.cst := rfl
@[simp] theorem State.setFree_flash (s : State) (x : Nat) : (s.setFree x).flash = s.flash := rfl
@[simp] theorem State.setFree_mqt (s : State) (x : Nat) : (s.setFree x).mqt = s.mqt := rfl
@[simp] theorem State.setFree_bst (s : State) (x : Nat) : (s.setFree x).bst = s.bst := rfl

@[simp] theorem State.setBus_pending (s : State) (x : List BusAnswer) : (s.setBus x).pending = s.pending := rfl
@[simp] theorem State.setBus_regs (s : State) (x : List BusAnswer) : (s.setBus x).regs = s.regs := rfl
@[simp] theorem State.setBus_latch (s : State) (x : List BusAnswer) : (s.setBus x).latch = s.latch := rfl
@[simp] theorem State.setBus_clk (s : State) (x : List BusAnswer) : (s.setBus x).clk = s.clk := rfl
@[simp] theorem State.setBus_free (s : State) (x : List BusAnswer) : (s.setBus x).free = s.free := rfl
@[simp] theorem State.setBus_bus (s : State) (x : List BusAnswer) : (s.setBus x).bus = x := rfl
@[simp] theorem State.setBus_sent (s : State) (x : List BusAnswer) : (s.setBus x).sent = s.sent := rfl
@[simp] theorem State.setBus_mem (s : State) (x : List BusAnswer) : (s.setBus x).mem = s.mem := rfl
@[simp] theorem State.setBus_upset (s : State) (x : List BusAnswer) : (s.setBus x).upset = s.upset := rfl
@[simp] theorem State.setBus_sup (s : State) (x : List BusAnswer) : (s.setBus x).sup = s.sup := rfl
@[simp] theorem State.setBus_fuses (s : State) (x : List BusAnswer) : (s.setBus x).fuses = s.fuses := rfl
@[simp] theorem State.setBus_policy (s : State) (x : List BusAnswer) : (s.setBus x).policy = s.policy := rfl
@[simp] theorem State.setBus_ctl (s : State) (x : List BusAnswer) : (s.setBus x).ctl = s.ctl := rfl
@[simp] theorem State.setBus_acq (s : State) (x : List BusAnswer) : (s.setBus x).acq = s.acq := rfl
@[simp] theorem State.setBus_ang (s : State) (x : List BusAnswer) : (s.setBus x).ang = s.ang := rfl
@[simp] theorem State.setBus_resRec (s : State) (x : List BusAnswer) : (s.setBus x).resRec = s.resRec := rfl
@[simp] theorem State.setBus_pins (s : State) (x : List BusAnswer) : (s.setBus x).pins = s.pins := rfl
@[simp] theorem State.setBus_net (s : State) (x : List BusAnswer) : (s.setBus x).net = s.net := rfl
@[simp] theorem State.setBus_frm (s : State) (x : List BusAnswer) : (s.setBus x).frm = s.frm := rfl
@[simp] theorem State.setBus_prf (s : State) (x : List BusAnswer) : (s.setBus x).prf = s.prf := rfl
@[simp] theorem State.setBus_arm (s : State) (x : List BusAnswer) : (s.setBus x).arm = s.arm := rfl
@[simp] theorem State.setBus_mod (s : State) (x : List BusAnswer) : (s.setBus x).mod = s.mod := rfl
@[simp] theorem State.setBus_lnk (s : State) (x : List BusAnswer) : (s.setBus x).lnk = s.lnk := rfl
@[simp] theorem State.setBus_nodes (s : State) (x : List BusAnswer) : (s.setBus x).nodes = s.nodes := rfl
@[simp] theorem State.setBus_mir (s : State) (x : List BusAnswer) : (s.setBus x).mir = s.mir := rfl
@[simp] theorem State.setBus_brg (s : State) (x : List BusAnswer) : (s.setBus x).brg = s.brg := rfl
@[simp] theorem State.setBus_saf (s : State) (x : List BusAnswer) : (s.setBus x).saf = s.saf := rfl
@[simp] theorem State.setBus_cst (s : State) (x : List BusAnswer) : (s.setBus x).cst = s.cst := rfl
@[simp] theorem State.setBus_flash (s : State) (x : List BusAnswer) : (s.setBus x).flash = s.flash := rfl
@[simp] theorem State.setBus_mqt (s : State) (x : List BusAnswer) : (s.setBus x).mqt = s.mqt := rfl
@[simp] theorem State.setBus_bst (s : State) (x : List BusAnswer) : (s.setBus x).bst = s.bst := rfl

@[simp] theorem State.setSent_pending (s : State) (x : List Sent) : (s.setSent x).pending = s.pending := rfl
@[simp] theorem State.setSent_regs (s : State) (x : List Sent) : (s.setSent x).regs = s.regs := rfl
@[simp] theorem State.setSent_latch (s : State) (x : List Sent) : (s.setSent x).latch = s.latch := rfl
@[simp] theorem State.setSent_clk (s : State) (x : List Sent) : (s.setSent x).clk = s.clk := rfl
@[simp] theorem State.setSent_free (s : State) (x : List Sent) : (s.setSent x).free = s.free := rfl
@[simp] theorem State.setSent_bus (s : State) (x : List Sent) : (s.setSent x).bus = s.bus := rfl
@[simp] theorem State.setSent_sent (s : State) (x : List Sent) : (s.setSent x).sent = x := rfl
@[simp] theorem State.setSent_mem (s : State) (x : List Sent) : (s.setSent x).mem = s.mem := rfl
@[simp] theorem State.setSent_upset (s : State) (x : List Sent) : (s.setSent x).upset = s.upset := rfl
@[simp] theorem State.setSent_sup (s : State) (x : List Sent) : (s.setSent x).sup = s.sup := rfl
@[simp] theorem State.setSent_fuses (s : State) (x : List Sent) : (s.setSent x).fuses = s.fuses := rfl
@[simp] theorem State.setSent_policy (s : State) (x : List Sent) : (s.setSent x).policy = s.policy := rfl
@[simp] theorem State.setSent_ctl (s : State) (x : List Sent) : (s.setSent x).ctl = s.ctl := rfl
@[simp] theorem State.setSent_acq (s : State) (x : List Sent) : (s.setSent x).acq = s.acq := rfl
@[simp] theorem State.setSent_ang (s : State) (x : List Sent) : (s.setSent x).ang = s.ang := rfl
@[simp] theorem State.setSent_resRec (s : State) (x : List Sent) : (s.setSent x).resRec = s.resRec := rfl
@[simp] theorem State.setSent_pins (s : State) (x : List Sent) : (s.setSent x).pins = s.pins := rfl
@[simp] theorem State.setSent_net (s : State) (x : List Sent) : (s.setSent x).net = s.net := rfl
@[simp] theorem State.setSent_frm (s : State) (x : List Sent) : (s.setSent x).frm = s.frm := rfl
@[simp] theorem State.setSent_prf (s : State) (x : List Sent) : (s.setSent x).prf = s.prf := rfl
@[simp] theorem State.setSent_arm (s : State) (x : List Sent) : (s.setSent x).arm = s.arm := rfl
@[simp] theorem State.setSent_mod (s : State) (x : List Sent) : (s.setSent x).mod = s.mod := rfl
@[simp] theorem State.setSent_lnk (s : State) (x : List Sent) : (s.setSent x).lnk = s.lnk := rfl
@[simp] theorem State.setSent_nodes (s : State) (x : List Sent) : (s.setSent x).nodes = s.nodes := rfl
@[simp] theorem State.setSent_mir (s : State) (x : List Sent) : (s.setSent x).mir = s.mir := rfl
@[simp] theorem State.setSent_brg (s : State) (x : List Sent) : (s.setSent x).brg = s.brg := rfl
@[simp] theorem State.setSent_saf (s : State) (x : List Sent) : (s.setSent x).saf = s.saf := rfl
@[simp] theorem State.setSent_cst (s : State) (x : List Sent) : (s.setSent x).cst = s.cst := rfl
@[simp] theorem State.setSent_flash (s : State) (x : List Sent) : (s.setSent x).flash = s.flash := rfl
@[simp] theorem State.setSent_mqt (s : State) (x : List Sent) : (s.setSent x).mqt = s.mqt := rfl
@[simp] theorem State.setSent_bst (s : State) (x : List Sent) : (s.setSent x).bst = s.bst := rfl

@[simp] theorem State.setMem_pending (s : State) (x : List Host.Cell) : (s.setMem x).pending = s.pending := rfl
@[simp] theorem State.setMem_regs (s : State) (x : List Host.Cell) : (s.setMem x).regs = s.regs := rfl
@[simp] theorem State.setMem_latch (s : State) (x : List Host.Cell) : (s.setMem x).latch = s.latch := rfl
@[simp] theorem State.setMem_clk (s : State) (x : List Host.Cell) : (s.setMem x).clk = s.clk := rfl
@[simp] theorem State.setMem_free (s : State) (x : List Host.Cell) : (s.setMem x).free = s.free := rfl
@[simp] theorem State.setMem_bus (s : State) (x : List Host.Cell) : (s.setMem x).bus = s.bus := rfl
@[simp] theorem State.setMem_sent (s : State) (x : List Host.Cell) : (s.setMem x).sent = s.sent := rfl
@[simp] theorem State.setMem_mem (s : State) (x : List Host.Cell) : (s.setMem x).mem = x := rfl
@[simp] theorem State.setMem_upset (s : State) (x : List Host.Cell) : (s.setMem x).upset = s.upset := rfl
@[simp] theorem State.setMem_sup (s : State) (x : List Host.Cell) : (s.setMem x).sup = s.sup := rfl
@[simp] theorem State.setMem_fuses (s : State) (x : List Host.Cell) : (s.setMem x).fuses = s.fuses := rfl
@[simp] theorem State.setMem_policy (s : State) (x : List Host.Cell) : (s.setMem x).policy = s.policy := rfl
@[simp] theorem State.setMem_ctl (s : State) (x : List Host.Cell) : (s.setMem x).ctl = s.ctl := rfl
@[simp] theorem State.setMem_acq (s : State) (x : List Host.Cell) : (s.setMem x).acq = s.acq := rfl
@[simp] theorem State.setMem_ang (s : State) (x : List Host.Cell) : (s.setMem x).ang = s.ang := rfl
@[simp] theorem State.setMem_resRec (s : State) (x : List Host.Cell) : (s.setMem x).resRec = s.resRec := rfl
@[simp] theorem State.setMem_pins (s : State) (x : List Host.Cell) : (s.setMem x).pins = s.pins := rfl
@[simp] theorem State.setMem_net (s : State) (x : List Host.Cell) : (s.setMem x).net = s.net := rfl
@[simp] theorem State.setMem_frm (s : State) (x : List Host.Cell) : (s.setMem x).frm = s.frm := rfl
@[simp] theorem State.setMem_prf (s : State) (x : List Host.Cell) : (s.setMem x).prf = s.prf := rfl
@[simp] theorem State.setMem_arm (s : State) (x : List Host.Cell) : (s.setMem x).arm = s.arm := rfl
@[simp] theorem State.setMem_mod (s : State) (x : List Host.Cell) : (s.setMem x).mod = s.mod := rfl
@[simp] theorem State.setMem_lnk (s : State) (x : List Host.Cell) : (s.setMem x).lnk = s.lnk := rfl
@[simp] theorem State.setMem_nodes (s : State) (x : List Host.Cell) : (s.setMem x).nodes = s.nodes := rfl
@[simp] theorem State.setMem_mir (s : State) (x : List Host.Cell) : (s.setMem x).mir = s.mir := rfl
@[simp] theorem State.setMem_brg (s : State) (x : List Host.Cell) : (s.setMem x).brg = s.brg := rfl
@[simp] theorem State.setMem_saf (s : State) (x : List Host.Cell) : (s.setMem x).saf = s.saf := rfl
@[simp] theorem State.setMem_cst (s : State) (x : List Host.Cell) : (s.setMem x).cst = s.cst := rfl
@[simp] theorem State.setMem_flash (s : State) (x : List Host.Cell) : (s.setMem x).flash = s.flash := rfl
@[simp] theorem State.setMem_mqt (s : State) (x : List Host.Cell) : (s.setMem x).mqt = s.mqt := rfl
@[simp] theorem State.setMem_bst (s : State) (x : List Host.Cell) : (s.setMem x).bst = s.bst := rfl

@[simp] theorem State.setUpset_pending (s : State) (x : Sparse Nat) : (s.setUpset x).pending = s.pending := rfl
@[simp] theorem State.setUpset_regs (s : State) (x : Sparse Nat) : (s.setUpset x).regs = s.regs := rfl
@[simp] theorem State.setUpset_latch (s : State) (x : Sparse Nat) : (s.setUpset x).latch = s.latch := rfl
@[simp] theorem State.setUpset_clk (s : State) (x : Sparse Nat) : (s.setUpset x).clk = s.clk := rfl
@[simp] theorem State.setUpset_free (s : State) (x : Sparse Nat) : (s.setUpset x).free = s.free := rfl
@[simp] theorem State.setUpset_bus (s : State) (x : Sparse Nat) : (s.setUpset x).bus = s.bus := rfl
@[simp] theorem State.setUpset_sent (s : State) (x : Sparse Nat) : (s.setUpset x).sent = s.sent := rfl
@[simp] theorem State.setUpset_mem (s : State) (x : Sparse Nat) : (s.setUpset x).mem = s.mem := rfl
@[simp] theorem State.setUpset_upset (s : State) (x : Sparse Nat) : (s.setUpset x).upset = x := rfl
@[simp] theorem State.setUpset_sup (s : State) (x : Sparse Nat) : (s.setUpset x).sup = s.sup := rfl
@[simp] theorem State.setUpset_fuses (s : State) (x : Sparse Nat) : (s.setUpset x).fuses = s.fuses := rfl
@[simp] theorem State.setUpset_policy (s : State) (x : Sparse Nat) : (s.setUpset x).policy = s.policy := rfl
@[simp] theorem State.setUpset_ctl (s : State) (x : Sparse Nat) : (s.setUpset x).ctl = s.ctl := rfl
@[simp] theorem State.setUpset_acq (s : State) (x : Sparse Nat) : (s.setUpset x).acq = s.acq := rfl
@[simp] theorem State.setUpset_ang (s : State) (x : Sparse Nat) : (s.setUpset x).ang = s.ang := rfl
@[simp] theorem State.setUpset_resRec (s : State) (x : Sparse Nat) : (s.setUpset x).resRec = s.resRec := rfl
@[simp] theorem State.setUpset_pins (s : State) (x : Sparse Nat) : (s.setUpset x).pins = s.pins := rfl
@[simp] theorem State.setUpset_net (s : State) (x : Sparse Nat) : (s.setUpset x).net = s.net := rfl
@[simp] theorem State.setUpset_frm (s : State) (x : Sparse Nat) : (s.setUpset x).frm = s.frm := rfl
@[simp] theorem State.setUpset_prf (s : State) (x : Sparse Nat) : (s.setUpset x).prf = s.prf := rfl
@[simp] theorem State.setUpset_arm (s : State) (x : Sparse Nat) : (s.setUpset x).arm = s.arm := rfl
@[simp] theorem State.setUpset_mod (s : State) (x : Sparse Nat) : (s.setUpset x).mod = s.mod := rfl
@[simp] theorem State.setUpset_lnk (s : State) (x : Sparse Nat) : (s.setUpset x).lnk = s.lnk := rfl
@[simp] theorem State.setUpset_nodes (s : State) (x : Sparse Nat) : (s.setUpset x).nodes = s.nodes := rfl
@[simp] theorem State.setUpset_mir (s : State) (x : Sparse Nat) : (s.setUpset x).mir = s.mir := rfl
@[simp] theorem State.setUpset_brg (s : State) (x : Sparse Nat) : (s.setUpset x).brg = s.brg := rfl
@[simp] theorem State.setUpset_saf (s : State) (x : Sparse Nat) : (s.setUpset x).saf = s.saf := rfl
@[simp] theorem State.setUpset_cst (s : State) (x : Sparse Nat) : (s.setUpset x).cst = s.cst := rfl
@[simp] theorem State.setUpset_flash (s : State) (x : Sparse Nat) : (s.setUpset x).flash = s.flash := rfl
@[simp] theorem State.setUpset_mqt (s : State) (x : Sparse Nat) : (s.setUpset x).mqt = s.mqt := rfl
@[simp] theorem State.setUpset_bst (s : State) (x : Sparse Nat) : (s.setUpset x).bst = s.bst := rfl

@[simp] theorem State.setSup_pending (s : State) (x : Sup) : (s.setSup x).pending = s.pending := rfl
@[simp] theorem State.setSup_regs (s : State) (x : Sup) : (s.setSup x).regs = s.regs := rfl
@[simp] theorem State.setSup_latch (s : State) (x : Sup) : (s.setSup x).latch = s.latch := rfl
@[simp] theorem State.setSup_clk (s : State) (x : Sup) : (s.setSup x).clk = s.clk := rfl
@[simp] theorem State.setSup_free (s : State) (x : Sup) : (s.setSup x).free = s.free := rfl
@[simp] theorem State.setSup_bus (s : State) (x : Sup) : (s.setSup x).bus = s.bus := rfl
@[simp] theorem State.setSup_sent (s : State) (x : Sup) : (s.setSup x).sent = s.sent := rfl
@[simp] theorem State.setSup_mem (s : State) (x : Sup) : (s.setSup x).mem = s.mem := rfl
@[simp] theorem State.setSup_upset (s : State) (x : Sup) : (s.setSup x).upset = s.upset := rfl
@[simp] theorem State.setSup_sup (s : State) (x : Sup) : (s.setSup x).sup = x := rfl
@[simp] theorem State.setSup_fuses (s : State) (x : Sup) : (s.setSup x).fuses = s.fuses := rfl
@[simp] theorem State.setSup_policy (s : State) (x : Sup) : (s.setSup x).policy = s.policy := rfl
@[simp] theorem State.setSup_ctl (s : State) (x : Sup) : (s.setSup x).ctl = s.ctl := rfl
@[simp] theorem State.setSup_acq (s : State) (x : Sup) : (s.setSup x).acq = s.acq := rfl
@[simp] theorem State.setSup_ang (s : State) (x : Sup) : (s.setSup x).ang = s.ang := rfl
@[simp] theorem State.setSup_resRec (s : State) (x : Sup) : (s.setSup x).resRec = s.resRec := rfl
@[simp] theorem State.setSup_pins (s : State) (x : Sup) : (s.setSup x).pins = s.pins := rfl
@[simp] theorem State.setSup_net (s : State) (x : Sup) : (s.setSup x).net = s.net := rfl
@[simp] theorem State.setSup_frm (s : State) (x : Sup) : (s.setSup x).frm = s.frm := rfl
@[simp] theorem State.setSup_prf (s : State) (x : Sup) : (s.setSup x).prf = s.prf := rfl
@[simp] theorem State.setSup_arm (s : State) (x : Sup) : (s.setSup x).arm = s.arm := rfl
@[simp] theorem State.setSup_mod (s : State) (x : Sup) : (s.setSup x).mod = s.mod := rfl
@[simp] theorem State.setSup_lnk (s : State) (x : Sup) : (s.setSup x).lnk = s.lnk := rfl
@[simp] theorem State.setSup_nodes (s : State) (x : Sup) : (s.setSup x).nodes = s.nodes := rfl
@[simp] theorem State.setSup_mir (s : State) (x : Sup) : (s.setSup x).mir = s.mir := rfl
@[simp] theorem State.setSup_brg (s : State) (x : Sup) : (s.setSup x).brg = s.brg := rfl
@[simp] theorem State.setSup_saf (s : State) (x : Sup) : (s.setSup x).saf = s.saf := rfl
@[simp] theorem State.setSup_cst (s : State) (x : Sup) : (s.setSup x).cst = s.cst := rfl
@[simp] theorem State.setSup_flash (s : State) (x : Sup) : (s.setSup x).flash = s.flash := rfl
@[simp] theorem State.setSup_mqt (s : State) (x : Sup) : (s.setSup x).mqt = s.mqt := rfl
@[simp] theorem State.setSup_bst (s : State) (x : Sup) : (s.setSup x).bst = s.bst := rfl

@[simp] theorem State.setFuses_pending (s : State) (x : Fuses) : (s.setFuses x).pending = s.pending := rfl
@[simp] theorem State.setFuses_regs (s : State) (x : Fuses) : (s.setFuses x).regs = s.regs := rfl
@[simp] theorem State.setFuses_latch (s : State) (x : Fuses) : (s.setFuses x).latch = s.latch := rfl
@[simp] theorem State.setFuses_clk (s : State) (x : Fuses) : (s.setFuses x).clk = s.clk := rfl
@[simp] theorem State.setFuses_free (s : State) (x : Fuses) : (s.setFuses x).free = s.free := rfl
@[simp] theorem State.setFuses_bus (s : State) (x : Fuses) : (s.setFuses x).bus = s.bus := rfl
@[simp] theorem State.setFuses_sent (s : State) (x : Fuses) : (s.setFuses x).sent = s.sent := rfl
@[simp] theorem State.setFuses_mem (s : State) (x : Fuses) : (s.setFuses x).mem = s.mem := rfl
@[simp] theorem State.setFuses_upset (s : State) (x : Fuses) : (s.setFuses x).upset = s.upset := rfl
@[simp] theorem State.setFuses_sup (s : State) (x : Fuses) : (s.setFuses x).sup = s.sup := rfl
@[simp] theorem State.setFuses_fuses (s : State) (x : Fuses) : (s.setFuses x).fuses = x := rfl
@[simp] theorem State.setFuses_policy (s : State) (x : Fuses) : (s.setFuses x).policy = s.policy := rfl
@[simp] theorem State.setFuses_ctl (s : State) (x : Fuses) : (s.setFuses x).ctl = s.ctl := rfl
@[simp] theorem State.setFuses_acq (s : State) (x : Fuses) : (s.setFuses x).acq = s.acq := rfl
@[simp] theorem State.setFuses_ang (s : State) (x : Fuses) : (s.setFuses x).ang = s.ang := rfl
@[simp] theorem State.setFuses_resRec (s : State) (x : Fuses) : (s.setFuses x).resRec = s.resRec := rfl
@[simp] theorem State.setFuses_pins (s : State) (x : Fuses) : (s.setFuses x).pins = s.pins := rfl
@[simp] theorem State.setFuses_net (s : State) (x : Fuses) : (s.setFuses x).net = s.net := rfl
@[simp] theorem State.setFuses_frm (s : State) (x : Fuses) : (s.setFuses x).frm = s.frm := rfl
@[simp] theorem State.setFuses_prf (s : State) (x : Fuses) : (s.setFuses x).prf = s.prf := rfl
@[simp] theorem State.setFuses_arm (s : State) (x : Fuses) : (s.setFuses x).arm = s.arm := rfl
@[simp] theorem State.setFuses_mod (s : State) (x : Fuses) : (s.setFuses x).mod = s.mod := rfl
@[simp] theorem State.setFuses_lnk (s : State) (x : Fuses) : (s.setFuses x).lnk = s.lnk := rfl
@[simp] theorem State.setFuses_nodes (s : State) (x : Fuses) : (s.setFuses x).nodes = s.nodes := rfl
@[simp] theorem State.setFuses_mir (s : State) (x : Fuses) : (s.setFuses x).mir = s.mir := rfl
@[simp] theorem State.setFuses_brg (s : State) (x : Fuses) : (s.setFuses x).brg = s.brg := rfl
@[simp] theorem State.setFuses_saf (s : State) (x : Fuses) : (s.setFuses x).saf = s.saf := rfl
@[simp] theorem State.setFuses_cst (s : State) (x : Fuses) : (s.setFuses x).cst = s.cst := rfl
@[simp] theorem State.setFuses_flash (s : State) (x : Fuses) : (s.setFuses x).flash = s.flash := rfl
@[simp] theorem State.setFuses_mqt (s : State) (x : Fuses) : (s.setFuses x).mqt = s.mqt := rfl
@[simp] theorem State.setFuses_bst (s : State) (x : Fuses) : (s.setFuses x).bst = s.bst := rfl

@[simp] theorem State.setPolicy_pending (s : State) (x : Policy) : (s.setPolicy x).pending = s.pending := rfl
@[simp] theorem State.setPolicy_regs (s : State) (x : Policy) : (s.setPolicy x).regs = s.regs := rfl
@[simp] theorem State.setPolicy_latch (s : State) (x : Policy) : (s.setPolicy x).latch = s.latch := rfl
@[simp] theorem State.setPolicy_clk (s : State) (x : Policy) : (s.setPolicy x).clk = s.clk := rfl
@[simp] theorem State.setPolicy_free (s : State) (x : Policy) : (s.setPolicy x).free = s.free := rfl
@[simp] theorem State.setPolicy_bus (s : State) (x : Policy) : (s.setPolicy x).bus = s.bus := rfl
@[simp] theorem State.setPolicy_sent (s : State) (x : Policy) : (s.setPolicy x).sent = s.sent := rfl
@[simp] theorem State.setPolicy_mem (s : State) (x : Policy) : (s.setPolicy x).mem = s.mem := rfl
@[simp] theorem State.setPolicy_upset (s : State) (x : Policy) : (s.setPolicy x).upset = s.upset := rfl
@[simp] theorem State.setPolicy_sup (s : State) (x : Policy) : (s.setPolicy x).sup = s.sup := rfl
@[simp] theorem State.setPolicy_fuses (s : State) (x : Policy) : (s.setPolicy x).fuses = s.fuses := rfl
@[simp] theorem State.setPolicy_policy (s : State) (x : Policy) : (s.setPolicy x).policy = x := rfl
@[simp] theorem State.setPolicy_ctl (s : State) (x : Policy) : (s.setPolicy x).ctl = s.ctl := rfl
@[simp] theorem State.setPolicy_acq (s : State) (x : Policy) : (s.setPolicy x).acq = s.acq := rfl
@[simp] theorem State.setPolicy_ang (s : State) (x : Policy) : (s.setPolicy x).ang = s.ang := rfl
@[simp] theorem State.setPolicy_resRec (s : State) (x : Policy) : (s.setPolicy x).resRec = s.resRec := rfl
@[simp] theorem State.setPolicy_pins (s : State) (x : Policy) : (s.setPolicy x).pins = s.pins := rfl
@[simp] theorem State.setPolicy_net (s : State) (x : Policy) : (s.setPolicy x).net = s.net := rfl
@[simp] theorem State.setPolicy_frm (s : State) (x : Policy) : (s.setPolicy x).frm = s.frm := rfl
@[simp] theorem State.setPolicy_prf (s : State) (x : Policy) : (s.setPolicy x).prf = s.prf := rfl
@[simp] theorem State.setPolicy_arm (s : State) (x : Policy) : (s.setPolicy x).arm = s.arm := rfl
@[simp] theorem State.setPolicy_mod (s : State) (x : Policy) : (s.setPolicy x).mod = s.mod := rfl
@[simp] theorem State.setPolicy_lnk (s : State) (x : Policy) : (s.setPolicy x).lnk = s.lnk := rfl
@[simp] theorem State.setPolicy_nodes (s : State) (x : Policy) : (s.setPolicy x).nodes = s.nodes := rfl
@[simp] theorem State.setPolicy_mir (s : State) (x : Policy) : (s.setPolicy x).mir = s.mir := rfl
@[simp] theorem State.setPolicy_brg (s : State) (x : Policy) : (s.setPolicy x).brg = s.brg := rfl
@[simp] theorem State.setPolicy_saf (s : State) (x : Policy) : (s.setPolicy x).saf = s.saf := rfl
@[simp] theorem State.setPolicy_cst (s : State) (x : Policy) : (s.setPolicy x).cst = s.cst := rfl
@[simp] theorem State.setPolicy_flash (s : State) (x : Policy) : (s.setPolicy x).flash = s.flash := rfl
@[simp] theorem State.setPolicy_mqt (s : State) (x : Policy) : (s.setPolicy x).mqt = s.mqt := rfl
@[simp] theorem State.setPolicy_bst (s : State) (x : Policy) : (s.setPolicy x).bst = s.bst := rfl

@[simp] theorem State.setCtl_pending (s : State) (x : Ctl) : (s.setCtl x).pending = s.pending := rfl
@[simp] theorem State.setCtl_regs (s : State) (x : Ctl) : (s.setCtl x).regs = s.regs := rfl
@[simp] theorem State.setCtl_latch (s : State) (x : Ctl) : (s.setCtl x).latch = s.latch := rfl
@[simp] theorem State.setCtl_clk (s : State) (x : Ctl) : (s.setCtl x).clk = s.clk := rfl
@[simp] theorem State.setCtl_free (s : State) (x : Ctl) : (s.setCtl x).free = s.free := rfl
@[simp] theorem State.setCtl_bus (s : State) (x : Ctl) : (s.setCtl x).bus = s.bus := rfl
@[simp] theorem State.setCtl_sent (s : State) (x : Ctl) : (s.setCtl x).sent = s.sent := rfl
@[simp] theorem State.setCtl_mem (s : State) (x : Ctl) : (s.setCtl x).mem = s.mem := rfl
@[simp] theorem State.setCtl_upset (s : State) (x : Ctl) : (s.setCtl x).upset = s.upset := rfl
@[simp] theorem State.setCtl_sup (s : State) (x : Ctl) : (s.setCtl x).sup = s.sup := rfl
@[simp] theorem State.setCtl_fuses (s : State) (x : Ctl) : (s.setCtl x).fuses = s.fuses := rfl
@[simp] theorem State.setCtl_policy (s : State) (x : Ctl) : (s.setCtl x).policy = s.policy := rfl
@[simp] theorem State.setCtl_ctl (s : State) (x : Ctl) : (s.setCtl x).ctl = x := rfl
@[simp] theorem State.setCtl_acq (s : State) (x : Ctl) : (s.setCtl x).acq = s.acq := rfl
@[simp] theorem State.setCtl_ang (s : State) (x : Ctl) : (s.setCtl x).ang = s.ang := rfl
@[simp] theorem State.setCtl_resRec (s : State) (x : Ctl) : (s.setCtl x).resRec = s.resRec := rfl
@[simp] theorem State.setCtl_pins (s : State) (x : Ctl) : (s.setCtl x).pins = s.pins := rfl
@[simp] theorem State.setCtl_net (s : State) (x : Ctl) : (s.setCtl x).net = s.net := rfl
@[simp] theorem State.setCtl_frm (s : State) (x : Ctl) : (s.setCtl x).frm = s.frm := rfl
@[simp] theorem State.setCtl_prf (s : State) (x : Ctl) : (s.setCtl x).prf = s.prf := rfl
@[simp] theorem State.setCtl_arm (s : State) (x : Ctl) : (s.setCtl x).arm = s.arm := rfl
@[simp] theorem State.setCtl_mod (s : State) (x : Ctl) : (s.setCtl x).mod = s.mod := rfl
@[simp] theorem State.setCtl_lnk (s : State) (x : Ctl) : (s.setCtl x).lnk = s.lnk := rfl
@[simp] theorem State.setCtl_nodes (s : State) (x : Ctl) : (s.setCtl x).nodes = s.nodes := rfl
@[simp] theorem State.setCtl_mir (s : State) (x : Ctl) : (s.setCtl x).mir = s.mir := rfl
@[simp] theorem State.setCtl_brg (s : State) (x : Ctl) : (s.setCtl x).brg = s.brg := rfl
@[simp] theorem State.setCtl_saf (s : State) (x : Ctl) : (s.setCtl x).saf = s.saf := rfl
@[simp] theorem State.setCtl_cst (s : State) (x : Ctl) : (s.setCtl x).cst = s.cst := rfl
@[simp] theorem State.setCtl_flash (s : State) (x : Ctl) : (s.setCtl x).flash = s.flash := rfl
@[simp] theorem State.setCtl_mqt (s : State) (x : Ctl) : (s.setCtl x).mqt = s.mqt := rfl
@[simp] theorem State.setCtl_bst (s : State) (x : Ctl) : (s.setCtl x).bst = s.bst := rfl

@[simp] theorem State.setAcq_pending (s : State) (x : Acq) : (s.setAcq x).pending = s.pending := rfl
@[simp] theorem State.setAcq_regs (s : State) (x : Acq) : (s.setAcq x).regs = s.regs := rfl
@[simp] theorem State.setAcq_latch (s : State) (x : Acq) : (s.setAcq x).latch = s.latch := rfl
@[simp] theorem State.setAcq_clk (s : State) (x : Acq) : (s.setAcq x).clk = s.clk := rfl
@[simp] theorem State.setAcq_free (s : State) (x : Acq) : (s.setAcq x).free = s.free := rfl
@[simp] theorem State.setAcq_bus (s : State) (x : Acq) : (s.setAcq x).bus = s.bus := rfl
@[simp] theorem State.setAcq_sent (s : State) (x : Acq) : (s.setAcq x).sent = s.sent := rfl
@[simp] theorem State.setAcq_mem (s : State) (x : Acq) : (s.setAcq x).mem = s.mem := rfl
@[simp] theorem State.setAcq_upset (s : State) (x : Acq) : (s.setAcq x).upset = s.upset := rfl
@[simp] theorem State.setAcq_sup (s : State) (x : Acq) : (s.setAcq x).sup = s.sup := rfl
@[simp] theorem State.setAcq_fuses (s : State) (x : Acq) : (s.setAcq x).fuses = s.fuses := rfl
@[simp] theorem State.setAcq_policy (s : State) (x : Acq) : (s.setAcq x).policy = s.policy := rfl
@[simp] theorem State.setAcq_ctl (s : State) (x : Acq) : (s.setAcq x).ctl = s.ctl := rfl
@[simp] theorem State.setAcq_acq (s : State) (x : Acq) : (s.setAcq x).acq = x := rfl
@[simp] theorem State.setAcq_ang (s : State) (x : Acq) : (s.setAcq x).ang = s.ang := rfl
@[simp] theorem State.setAcq_resRec (s : State) (x : Acq) : (s.setAcq x).resRec = s.resRec := rfl
@[simp] theorem State.setAcq_pins (s : State) (x : Acq) : (s.setAcq x).pins = s.pins := rfl
@[simp] theorem State.setAcq_net (s : State) (x : Acq) : (s.setAcq x).net = s.net := rfl
@[simp] theorem State.setAcq_frm (s : State) (x : Acq) : (s.setAcq x).frm = s.frm := rfl
@[simp] theorem State.setAcq_prf (s : State) (x : Acq) : (s.setAcq x).prf = s.prf := rfl
@[simp] theorem State.setAcq_arm (s : State) (x : Acq) : (s.setAcq x).arm = s.arm := rfl
@[simp] theorem State.setAcq_mod (s : State) (x : Acq) : (s.setAcq x).mod = s.mod := rfl
@[simp] theorem State.setAcq_lnk (s : State) (x : Acq) : (s.setAcq x).lnk = s.lnk := rfl
@[simp] theorem State.setAcq_nodes (s : State) (x : Acq) : (s.setAcq x).nodes = s.nodes := rfl
@[simp] theorem State.setAcq_mir (s : State) (x : Acq) : (s.setAcq x).mir = s.mir := rfl
@[simp] theorem State.setAcq_brg (s : State) (x : Acq) : (s.setAcq x).brg = s.brg := rfl
@[simp] theorem State.setAcq_saf (s : State) (x : Acq) : (s.setAcq x).saf = s.saf := rfl
@[simp] theorem State.setAcq_cst (s : State) (x : Acq) : (s.setAcq x).cst = s.cst := rfl
@[simp] theorem State.setAcq_flash (s : State) (x : Acq) : (s.setAcq x).flash = s.flash := rfl
@[simp] theorem State.setAcq_mqt (s : State) (x : Acq) : (s.setAcq x).mqt = s.mqt := rfl
@[simp] theorem State.setAcq_bst (s : State) (x : Acq) : (s.setAcq x).bst = s.bst := rfl

@[simp] theorem State.setAng_pending (s : State) (x : Ang) : (s.setAng x).pending = s.pending := rfl
@[simp] theorem State.setAng_regs (s : State) (x : Ang) : (s.setAng x).regs = s.regs := rfl
@[simp] theorem State.setAng_latch (s : State) (x : Ang) : (s.setAng x).latch = s.latch := rfl
@[simp] theorem State.setAng_clk (s : State) (x : Ang) : (s.setAng x).clk = s.clk := rfl
@[simp] theorem State.setAng_free (s : State) (x : Ang) : (s.setAng x).free = s.free := rfl
@[simp] theorem State.setAng_bus (s : State) (x : Ang) : (s.setAng x).bus = s.bus := rfl
@[simp] theorem State.setAng_sent (s : State) (x : Ang) : (s.setAng x).sent = s.sent := rfl
@[simp] theorem State.setAng_mem (s : State) (x : Ang) : (s.setAng x).mem = s.mem := rfl
@[simp] theorem State.setAng_upset (s : State) (x : Ang) : (s.setAng x).upset = s.upset := rfl
@[simp] theorem State.setAng_sup (s : State) (x : Ang) : (s.setAng x).sup = s.sup := rfl
@[simp] theorem State.setAng_fuses (s : State) (x : Ang) : (s.setAng x).fuses = s.fuses := rfl
@[simp] theorem State.setAng_policy (s : State) (x : Ang) : (s.setAng x).policy = s.policy := rfl
@[simp] theorem State.setAng_ctl (s : State) (x : Ang) : (s.setAng x).ctl = s.ctl := rfl
@[simp] theorem State.setAng_acq (s : State) (x : Ang) : (s.setAng x).acq = s.acq := rfl
@[simp] theorem State.setAng_ang (s : State) (x : Ang) : (s.setAng x).ang = x := rfl
@[simp] theorem State.setAng_resRec (s : State) (x : Ang) : (s.setAng x).resRec = s.resRec := rfl
@[simp] theorem State.setAng_pins (s : State) (x : Ang) : (s.setAng x).pins = s.pins := rfl
@[simp] theorem State.setAng_net (s : State) (x : Ang) : (s.setAng x).net = s.net := rfl
@[simp] theorem State.setAng_frm (s : State) (x : Ang) : (s.setAng x).frm = s.frm := rfl
@[simp] theorem State.setAng_prf (s : State) (x : Ang) : (s.setAng x).prf = s.prf := rfl
@[simp] theorem State.setAng_arm (s : State) (x : Ang) : (s.setAng x).arm = s.arm := rfl
@[simp] theorem State.setAng_mod (s : State) (x : Ang) : (s.setAng x).mod = s.mod := rfl
@[simp] theorem State.setAng_lnk (s : State) (x : Ang) : (s.setAng x).lnk = s.lnk := rfl
@[simp] theorem State.setAng_nodes (s : State) (x : Ang) : (s.setAng x).nodes = s.nodes := rfl
@[simp] theorem State.setAng_mir (s : State) (x : Ang) : (s.setAng x).mir = s.mir := rfl
@[simp] theorem State.setAng_brg (s : State) (x : Ang) : (s.setAng x).brg = s.brg := rfl
@[simp] theorem State.setAng_saf (s : State) (x : Ang) : (s.setAng x).saf = s.saf := rfl
@[simp] theorem State.setAng_cst (s : State) (x : Ang) : (s.setAng x).cst = s.cst := rfl
@[simp] theorem State.setAng_flash (s : State) (x : Ang) : (s.setAng x).flash = s.flash := rfl
@[simp] theorem State.setAng_mqt (s : State) (x : Ang) : (s.setAng x).mqt = s.mqt := rfl
@[simp] theorem State.setAng_bst (s : State) (x : Ang) : (s.setAng x).bst = s.bst := rfl

@[simp] theorem State.setResRec_pending (s : State) (x : List Nat) : (s.setResRec x).pending = s.pending := rfl
@[simp] theorem State.setResRec_regs (s : State) (x : List Nat) : (s.setResRec x).regs = s.regs := rfl
@[simp] theorem State.setResRec_latch (s : State) (x : List Nat) : (s.setResRec x).latch = s.latch := rfl
@[simp] theorem State.setResRec_clk (s : State) (x : List Nat) : (s.setResRec x).clk = s.clk := rfl
@[simp] theorem State.setResRec_free (s : State) (x : List Nat) : (s.setResRec x).free = s.free := rfl
@[simp] theorem State.setResRec_bus (s : State) (x : List Nat) : (s.setResRec x).bus = s.bus := rfl
@[simp] theorem State.setResRec_sent (s : State) (x : List Nat) : (s.setResRec x).sent = s.sent := rfl
@[simp] theorem State.setResRec_mem (s : State) (x : List Nat) : (s.setResRec x).mem = s.mem := rfl
@[simp] theorem State.setResRec_upset (s : State) (x : List Nat) : (s.setResRec x).upset = s.upset := rfl
@[simp] theorem State.setResRec_sup (s : State) (x : List Nat) : (s.setResRec x).sup = s.sup := rfl
@[simp] theorem State.setResRec_fuses (s : State) (x : List Nat) : (s.setResRec x).fuses = s.fuses := rfl
@[simp] theorem State.setResRec_policy (s : State) (x : List Nat) : (s.setResRec x).policy = s.policy := rfl
@[simp] theorem State.setResRec_ctl (s : State) (x : List Nat) : (s.setResRec x).ctl = s.ctl := rfl
@[simp] theorem State.setResRec_acq (s : State) (x : List Nat) : (s.setResRec x).acq = s.acq := rfl
@[simp] theorem State.setResRec_ang (s : State) (x : List Nat) : (s.setResRec x).ang = s.ang := rfl
@[simp] theorem State.setResRec_resRec (s : State) (x : List Nat) : (s.setResRec x).resRec = x := rfl
@[simp] theorem State.setResRec_pins (s : State) (x : List Nat) : (s.setResRec x).pins = s.pins := rfl
@[simp] theorem State.setResRec_net (s : State) (x : List Nat) : (s.setResRec x).net = s.net := rfl
@[simp] theorem State.setResRec_frm (s : State) (x : List Nat) : (s.setResRec x).frm = s.frm := rfl
@[simp] theorem State.setResRec_prf (s : State) (x : List Nat) : (s.setResRec x).prf = s.prf := rfl
@[simp] theorem State.setResRec_arm (s : State) (x : List Nat) : (s.setResRec x).arm = s.arm := rfl
@[simp] theorem State.setResRec_mod (s : State) (x : List Nat) : (s.setResRec x).mod = s.mod := rfl
@[simp] theorem State.setResRec_lnk (s : State) (x : List Nat) : (s.setResRec x).lnk = s.lnk := rfl
@[simp] theorem State.setResRec_nodes (s : State) (x : List Nat) : (s.setResRec x).nodes = s.nodes := rfl
@[simp] theorem State.setResRec_mir (s : State) (x : List Nat) : (s.setResRec x).mir = s.mir := rfl
@[simp] theorem State.setResRec_brg (s : State) (x : List Nat) : (s.setResRec x).brg = s.brg := rfl
@[simp] theorem State.setResRec_saf (s : State) (x : List Nat) : (s.setResRec x).saf = s.saf := rfl
@[simp] theorem State.setResRec_cst (s : State) (x : List Nat) : (s.setResRec x).cst = s.cst := rfl
@[simp] theorem State.setResRec_flash (s : State) (x : List Nat) : (s.setResRec x).flash = s.flash := rfl
@[simp] theorem State.setResRec_mqt (s : State) (x : List Nat) : (s.setResRec x).mqt = s.mqt := rfl
@[simp] theorem State.setResRec_bst (s : State) (x : List Nat) : (s.setResRec x).bst = s.bst := rfl

@[simp] theorem State.setPins_pending (s : State) (x : Pins) : (s.setPins x).pending = s.pending := rfl
@[simp] theorem State.setPins_regs (s : State) (x : Pins) : (s.setPins x).regs = s.regs := rfl
@[simp] theorem State.setPins_latch (s : State) (x : Pins) : (s.setPins x).latch = s.latch := rfl
@[simp] theorem State.setPins_clk (s : State) (x : Pins) : (s.setPins x).clk = s.clk := rfl
@[simp] theorem State.setPins_free (s : State) (x : Pins) : (s.setPins x).free = s.free := rfl
@[simp] theorem State.setPins_bus (s : State) (x : Pins) : (s.setPins x).bus = s.bus := rfl
@[simp] theorem State.setPins_sent (s : State) (x : Pins) : (s.setPins x).sent = s.sent := rfl
@[simp] theorem State.setPins_mem (s : State) (x : Pins) : (s.setPins x).mem = s.mem := rfl
@[simp] theorem State.setPins_upset (s : State) (x : Pins) : (s.setPins x).upset = s.upset := rfl
@[simp] theorem State.setPins_sup (s : State) (x : Pins) : (s.setPins x).sup = s.sup := rfl
@[simp] theorem State.setPins_fuses (s : State) (x : Pins) : (s.setPins x).fuses = s.fuses := rfl
@[simp] theorem State.setPins_policy (s : State) (x : Pins) : (s.setPins x).policy = s.policy := rfl
@[simp] theorem State.setPins_ctl (s : State) (x : Pins) : (s.setPins x).ctl = s.ctl := rfl
@[simp] theorem State.setPins_acq (s : State) (x : Pins) : (s.setPins x).acq = s.acq := rfl
@[simp] theorem State.setPins_ang (s : State) (x : Pins) : (s.setPins x).ang = s.ang := rfl
@[simp] theorem State.setPins_resRec (s : State) (x : Pins) : (s.setPins x).resRec = s.resRec := rfl
@[simp] theorem State.setPins_pins (s : State) (x : Pins) : (s.setPins x).pins = x := rfl
@[simp] theorem State.setPins_net (s : State) (x : Pins) : (s.setPins x).net = s.net := rfl
@[simp] theorem State.setPins_frm (s : State) (x : Pins) : (s.setPins x).frm = s.frm := rfl
@[simp] theorem State.setPins_prf (s : State) (x : Pins) : (s.setPins x).prf = s.prf := rfl
@[simp] theorem State.setPins_arm (s : State) (x : Pins) : (s.setPins x).arm = s.arm := rfl
@[simp] theorem State.setPins_mod (s : State) (x : Pins) : (s.setPins x).mod = s.mod := rfl
@[simp] theorem State.setPins_lnk (s : State) (x : Pins) : (s.setPins x).lnk = s.lnk := rfl
@[simp] theorem State.setPins_nodes (s : State) (x : Pins) : (s.setPins x).nodes = s.nodes := rfl
@[simp] theorem State.setPins_mir (s : State) (x : Pins) : (s.setPins x).mir = s.mir := rfl
@[simp] theorem State.setPins_brg (s : State) (x : Pins) : (s.setPins x).brg = s.brg := rfl
@[simp] theorem State.setPins_saf (s : State) (x : Pins) : (s.setPins x).saf = s.saf := rfl
@[simp] theorem State.setPins_cst (s : State) (x : Pins) : (s.setPins x).cst = s.cst := rfl
@[simp] theorem State.setPins_flash (s : State) (x : Pins) : (s.setPins x).flash = s.flash := rfl
@[simp] theorem State.setPins_mqt (s : State) (x : Pins) : (s.setPins x).mqt = s.mqt := rfl
@[simp] theorem State.setPins_bst (s : State) (x : Pins) : (s.setPins x).bst = s.bst := rfl

@[simp] theorem State.setNet_pending (s : State) (x : Net) : (s.setNet x).pending = s.pending := rfl
@[simp] theorem State.setNet_regs (s : State) (x : Net) : (s.setNet x).regs = s.regs := rfl
@[simp] theorem State.setNet_latch (s : State) (x : Net) : (s.setNet x).latch = s.latch := rfl
@[simp] theorem State.setNet_clk (s : State) (x : Net) : (s.setNet x).clk = s.clk := rfl
@[simp] theorem State.setNet_free (s : State) (x : Net) : (s.setNet x).free = s.free := rfl
@[simp] theorem State.setNet_bus (s : State) (x : Net) : (s.setNet x).bus = s.bus := rfl
@[simp] theorem State.setNet_sent (s : State) (x : Net) : (s.setNet x).sent = s.sent := rfl
@[simp] theorem State.setNet_mem (s : State) (x : Net) : (s.setNet x).mem = s.mem := rfl
@[simp] theorem State.setNet_upset (s : State) (x : Net) : (s.setNet x).upset = s.upset := rfl
@[simp] theorem State.setNet_sup (s : State) (x : Net) : (s.setNet x).sup = s.sup := rfl
@[simp] theorem State.setNet_fuses (s : State) (x : Net) : (s.setNet x).fuses = s.fuses := rfl
@[simp] theorem State.setNet_policy (s : State) (x : Net) : (s.setNet x).policy = s.policy := rfl
@[simp] theorem State.setNet_ctl (s : State) (x : Net) : (s.setNet x).ctl = s.ctl := rfl
@[simp] theorem State.setNet_acq (s : State) (x : Net) : (s.setNet x).acq = s.acq := rfl
@[simp] theorem State.setNet_ang (s : State) (x : Net) : (s.setNet x).ang = s.ang := rfl
@[simp] theorem State.setNet_resRec (s : State) (x : Net) : (s.setNet x).resRec = s.resRec := rfl
@[simp] theorem State.setNet_pins (s : State) (x : Net) : (s.setNet x).pins = s.pins := rfl
@[simp] theorem State.setNet_net (s : State) (x : Net) : (s.setNet x).net = x := rfl
@[simp] theorem State.setNet_frm (s : State) (x : Net) : (s.setNet x).frm = s.frm := rfl
@[simp] theorem State.setNet_prf (s : State) (x : Net) : (s.setNet x).prf = s.prf := rfl
@[simp] theorem State.setNet_arm (s : State) (x : Net) : (s.setNet x).arm = s.arm := rfl
@[simp] theorem State.setNet_mod (s : State) (x : Net) : (s.setNet x).mod = s.mod := rfl
@[simp] theorem State.setNet_lnk (s : State) (x : Net) : (s.setNet x).lnk = s.lnk := rfl
@[simp] theorem State.setNet_nodes (s : State) (x : Net) : (s.setNet x).nodes = s.nodes := rfl
@[simp] theorem State.setNet_mir (s : State) (x : Net) : (s.setNet x).mir = s.mir := rfl
@[simp] theorem State.setNet_brg (s : State) (x : Net) : (s.setNet x).brg = s.brg := rfl
@[simp] theorem State.setNet_saf (s : State) (x : Net) : (s.setNet x).saf = s.saf := rfl
@[simp] theorem State.setNet_cst (s : State) (x : Net) : (s.setNet x).cst = s.cst := rfl
@[simp] theorem State.setNet_flash (s : State) (x : Net) : (s.setNet x).flash = s.flash := rfl
@[simp] theorem State.setNet_mqt (s : State) (x : Net) : (s.setNet x).mqt = s.mqt := rfl
@[simp] theorem State.setNet_bst (s : State) (x : Net) : (s.setNet x).bst = s.bst := rfl

@[simp] theorem State.setFrm_pending (s : State) (x : Frm) : (s.setFrm x).pending = s.pending := rfl
@[simp] theorem State.setFrm_regs (s : State) (x : Frm) : (s.setFrm x).regs = s.regs := rfl
@[simp] theorem State.setFrm_latch (s : State) (x : Frm) : (s.setFrm x).latch = s.latch := rfl
@[simp] theorem State.setFrm_clk (s : State) (x : Frm) : (s.setFrm x).clk = s.clk := rfl
@[simp] theorem State.setFrm_free (s : State) (x : Frm) : (s.setFrm x).free = s.free := rfl
@[simp] theorem State.setFrm_bus (s : State) (x : Frm) : (s.setFrm x).bus = s.bus := rfl
@[simp] theorem State.setFrm_sent (s : State) (x : Frm) : (s.setFrm x).sent = s.sent := rfl
@[simp] theorem State.setFrm_mem (s : State) (x : Frm) : (s.setFrm x).mem = s.mem := rfl
@[simp] theorem State.setFrm_upset (s : State) (x : Frm) : (s.setFrm x).upset = s.upset := rfl
@[simp] theorem State.setFrm_sup (s : State) (x : Frm) : (s.setFrm x).sup = s.sup := rfl
@[simp] theorem State.setFrm_fuses (s : State) (x : Frm) : (s.setFrm x).fuses = s.fuses := rfl
@[simp] theorem State.setFrm_policy (s : State) (x : Frm) : (s.setFrm x).policy = s.policy := rfl
@[simp] theorem State.setFrm_ctl (s : State) (x : Frm) : (s.setFrm x).ctl = s.ctl := rfl
@[simp] theorem State.setFrm_acq (s : State) (x : Frm) : (s.setFrm x).acq = s.acq := rfl
@[simp] theorem State.setFrm_ang (s : State) (x : Frm) : (s.setFrm x).ang = s.ang := rfl
@[simp] theorem State.setFrm_resRec (s : State) (x : Frm) : (s.setFrm x).resRec = s.resRec := rfl
@[simp] theorem State.setFrm_pins (s : State) (x : Frm) : (s.setFrm x).pins = s.pins := rfl
@[simp] theorem State.setFrm_net (s : State) (x : Frm) : (s.setFrm x).net = s.net := rfl
@[simp] theorem State.setFrm_frm (s : State) (x : Frm) : (s.setFrm x).frm = x := rfl
@[simp] theorem State.setFrm_prf (s : State) (x : Frm) : (s.setFrm x).prf = s.prf := rfl
@[simp] theorem State.setFrm_arm (s : State) (x : Frm) : (s.setFrm x).arm = s.arm := rfl
@[simp] theorem State.setFrm_mod (s : State) (x : Frm) : (s.setFrm x).mod = s.mod := rfl
@[simp] theorem State.setFrm_lnk (s : State) (x : Frm) : (s.setFrm x).lnk = s.lnk := rfl
@[simp] theorem State.setFrm_nodes (s : State) (x : Frm) : (s.setFrm x).nodes = s.nodes := rfl
@[simp] theorem State.setFrm_mir (s : State) (x : Frm) : (s.setFrm x).mir = s.mir := rfl
@[simp] theorem State.setFrm_brg (s : State) (x : Frm) : (s.setFrm x).brg = s.brg := rfl
@[simp] theorem State.setFrm_saf (s : State) (x : Frm) : (s.setFrm x).saf = s.saf := rfl
@[simp] theorem State.setFrm_cst (s : State) (x : Frm) : (s.setFrm x).cst = s.cst := rfl
@[simp] theorem State.setFrm_flash (s : State) (x : Frm) : (s.setFrm x).flash = s.flash := rfl
@[simp] theorem State.setFrm_mqt (s : State) (x : Frm) : (s.setFrm x).mqt = s.mqt := rfl
@[simp] theorem State.setFrm_bst (s : State) (x : Frm) : (s.setFrm x).bst = s.bst := rfl

@[simp] theorem State.setPrf_pending (s : State) (x : Sparse PrfCh) : (s.setPrf x).pending = s.pending := rfl
@[simp] theorem State.setPrf_regs (s : State) (x : Sparse PrfCh) : (s.setPrf x).regs = s.regs := rfl
@[simp] theorem State.setPrf_latch (s : State) (x : Sparse PrfCh) : (s.setPrf x).latch = s.latch := rfl
@[simp] theorem State.setPrf_clk (s : State) (x : Sparse PrfCh) : (s.setPrf x).clk = s.clk := rfl
@[simp] theorem State.setPrf_free (s : State) (x : Sparse PrfCh) : (s.setPrf x).free = s.free := rfl
@[simp] theorem State.setPrf_bus (s : State) (x : Sparse PrfCh) : (s.setPrf x).bus = s.bus := rfl
@[simp] theorem State.setPrf_sent (s : State) (x : Sparse PrfCh) : (s.setPrf x).sent = s.sent := rfl
@[simp] theorem State.setPrf_mem (s : State) (x : Sparse PrfCh) : (s.setPrf x).mem = s.mem := rfl
@[simp] theorem State.setPrf_upset (s : State) (x : Sparse PrfCh) : (s.setPrf x).upset = s.upset := rfl
@[simp] theorem State.setPrf_sup (s : State) (x : Sparse PrfCh) : (s.setPrf x).sup = s.sup := rfl
@[simp] theorem State.setPrf_fuses (s : State) (x : Sparse PrfCh) : (s.setPrf x).fuses = s.fuses := rfl
@[simp] theorem State.setPrf_policy (s : State) (x : Sparse PrfCh) : (s.setPrf x).policy = s.policy := rfl
@[simp] theorem State.setPrf_ctl (s : State) (x : Sparse PrfCh) : (s.setPrf x).ctl = s.ctl := rfl
@[simp] theorem State.setPrf_acq (s : State) (x : Sparse PrfCh) : (s.setPrf x).acq = s.acq := rfl
@[simp] theorem State.setPrf_ang (s : State) (x : Sparse PrfCh) : (s.setPrf x).ang = s.ang := rfl
@[simp] theorem State.setPrf_resRec (s : State) (x : Sparse PrfCh) : (s.setPrf x).resRec = s.resRec := rfl
@[simp] theorem State.setPrf_pins (s : State) (x : Sparse PrfCh) : (s.setPrf x).pins = s.pins := rfl
@[simp] theorem State.setPrf_net (s : State) (x : Sparse PrfCh) : (s.setPrf x).net = s.net := rfl
@[simp] theorem State.setPrf_frm (s : State) (x : Sparse PrfCh) : (s.setPrf x).frm = s.frm := rfl
@[simp] theorem State.setPrf_prf (s : State) (x : Sparse PrfCh) : (s.setPrf x).prf = x := rfl
@[simp] theorem State.setPrf_arm (s : State) (x : Sparse PrfCh) : (s.setPrf x).arm = s.arm := rfl
@[simp] theorem State.setPrf_mod (s : State) (x : Sparse PrfCh) : (s.setPrf x).mod = s.mod := rfl
@[simp] theorem State.setPrf_lnk (s : State) (x : Sparse PrfCh) : (s.setPrf x).lnk = s.lnk := rfl
@[simp] theorem State.setPrf_nodes (s : State) (x : Sparse PrfCh) : (s.setPrf x).nodes = s.nodes := rfl
@[simp] theorem State.setPrf_mir (s : State) (x : Sparse PrfCh) : (s.setPrf x).mir = s.mir := rfl
@[simp] theorem State.setPrf_brg (s : State) (x : Sparse PrfCh) : (s.setPrf x).brg = s.brg := rfl
@[simp] theorem State.setPrf_saf (s : State) (x : Sparse PrfCh) : (s.setPrf x).saf = s.saf := rfl
@[simp] theorem State.setPrf_cst (s : State) (x : Sparse PrfCh) : (s.setPrf x).cst = s.cst := rfl
@[simp] theorem State.setPrf_flash (s : State) (x : Sparse PrfCh) : (s.setPrf x).flash = s.flash := rfl
@[simp] theorem State.setPrf_mqt (s : State) (x : Sparse PrfCh) : (s.setPrf x).mqt = s.mqt := rfl
@[simp] theorem State.setPrf_bst (s : State) (x : Sparse PrfCh) : (s.setPrf x).bst = s.bst := rfl

@[simp] theorem State.setArm_pending (s : State) (x : Arm) : (s.setArm x).pending = s.pending := rfl
@[simp] theorem State.setArm_regs (s : State) (x : Arm) : (s.setArm x).regs = s.regs := rfl
@[simp] theorem State.setArm_latch (s : State) (x : Arm) : (s.setArm x).latch = s.latch := rfl
@[simp] theorem State.setArm_clk (s : State) (x : Arm) : (s.setArm x).clk = s.clk := rfl
@[simp] theorem State.setArm_free (s : State) (x : Arm) : (s.setArm x).free = s.free := rfl
@[simp] theorem State.setArm_bus (s : State) (x : Arm) : (s.setArm x).bus = s.bus := rfl
@[simp] theorem State.setArm_sent (s : State) (x : Arm) : (s.setArm x).sent = s.sent := rfl
@[simp] theorem State.setArm_mem (s : State) (x : Arm) : (s.setArm x).mem = s.mem := rfl
@[simp] theorem State.setArm_upset (s : State) (x : Arm) : (s.setArm x).upset = s.upset := rfl
@[simp] theorem State.setArm_sup (s : State) (x : Arm) : (s.setArm x).sup = s.sup := rfl
@[simp] theorem State.setArm_fuses (s : State) (x : Arm) : (s.setArm x).fuses = s.fuses := rfl
@[simp] theorem State.setArm_policy (s : State) (x : Arm) : (s.setArm x).policy = s.policy := rfl
@[simp] theorem State.setArm_ctl (s : State) (x : Arm) : (s.setArm x).ctl = s.ctl := rfl
@[simp] theorem State.setArm_acq (s : State) (x : Arm) : (s.setArm x).acq = s.acq := rfl
@[simp] theorem State.setArm_ang (s : State) (x : Arm) : (s.setArm x).ang = s.ang := rfl
@[simp] theorem State.setArm_resRec (s : State) (x : Arm) : (s.setArm x).resRec = s.resRec := rfl
@[simp] theorem State.setArm_pins (s : State) (x : Arm) : (s.setArm x).pins = s.pins := rfl
@[simp] theorem State.setArm_net (s : State) (x : Arm) : (s.setArm x).net = s.net := rfl
@[simp] theorem State.setArm_frm (s : State) (x : Arm) : (s.setArm x).frm = s.frm := rfl
@[simp] theorem State.setArm_prf (s : State) (x : Arm) : (s.setArm x).prf = s.prf := rfl
@[simp] theorem State.setArm_arm (s : State) (x : Arm) : (s.setArm x).arm = x := rfl
@[simp] theorem State.setArm_mod (s : State) (x : Arm) : (s.setArm x).mod = s.mod := rfl
@[simp] theorem State.setArm_lnk (s : State) (x : Arm) : (s.setArm x).lnk = s.lnk := rfl
@[simp] theorem State.setArm_nodes (s : State) (x : Arm) : (s.setArm x).nodes = s.nodes := rfl
@[simp] theorem State.setArm_mir (s : State) (x : Arm) : (s.setArm x).mir = s.mir := rfl
@[simp] theorem State.setArm_brg (s : State) (x : Arm) : (s.setArm x).brg = s.brg := rfl
@[simp] theorem State.setArm_saf (s : State) (x : Arm) : (s.setArm x).saf = s.saf := rfl
@[simp] theorem State.setArm_cst (s : State) (x : Arm) : (s.setArm x).cst = s.cst := rfl
@[simp] theorem State.setArm_flash (s : State) (x : Arm) : (s.setArm x).flash = s.flash := rfl
@[simp] theorem State.setArm_mqt (s : State) (x : Arm) : (s.setArm x).mqt = s.mqt := rfl
@[simp] theorem State.setArm_bst (s : State) (x : Arm) : (s.setArm x).bst = s.bst := rfl

@[simp] theorem State.setMod_pending (s : State) (x : Mod) : (s.setMod x).pending = s.pending := rfl
@[simp] theorem State.setMod_regs (s : State) (x : Mod) : (s.setMod x).regs = s.regs := rfl
@[simp] theorem State.setMod_latch (s : State) (x : Mod) : (s.setMod x).latch = s.latch := rfl
@[simp] theorem State.setMod_clk (s : State) (x : Mod) : (s.setMod x).clk = s.clk := rfl
@[simp] theorem State.setMod_free (s : State) (x : Mod) : (s.setMod x).free = s.free := rfl
@[simp] theorem State.setMod_bus (s : State) (x : Mod) : (s.setMod x).bus = s.bus := rfl
@[simp] theorem State.setMod_sent (s : State) (x : Mod) : (s.setMod x).sent = s.sent := rfl
@[simp] theorem State.setMod_mem (s : State) (x : Mod) : (s.setMod x).mem = s.mem := rfl
@[simp] theorem State.setMod_upset (s : State) (x : Mod) : (s.setMod x).upset = s.upset := rfl
@[simp] theorem State.setMod_sup (s : State) (x : Mod) : (s.setMod x).sup = s.sup := rfl
@[simp] theorem State.setMod_fuses (s : State) (x : Mod) : (s.setMod x).fuses = s.fuses := rfl
@[simp] theorem State.setMod_policy (s : State) (x : Mod) : (s.setMod x).policy = s.policy := rfl
@[simp] theorem State.setMod_ctl (s : State) (x : Mod) : (s.setMod x).ctl = s.ctl := rfl
@[simp] theorem State.setMod_acq (s : State) (x : Mod) : (s.setMod x).acq = s.acq := rfl
@[simp] theorem State.setMod_ang (s : State) (x : Mod) : (s.setMod x).ang = s.ang := rfl
@[simp] theorem State.setMod_resRec (s : State) (x : Mod) : (s.setMod x).resRec = s.resRec := rfl
@[simp] theorem State.setMod_pins (s : State) (x : Mod) : (s.setMod x).pins = s.pins := rfl
@[simp] theorem State.setMod_net (s : State) (x : Mod) : (s.setMod x).net = s.net := rfl
@[simp] theorem State.setMod_frm (s : State) (x : Mod) : (s.setMod x).frm = s.frm := rfl
@[simp] theorem State.setMod_prf (s : State) (x : Mod) : (s.setMod x).prf = s.prf := rfl
@[simp] theorem State.setMod_arm (s : State) (x : Mod) : (s.setMod x).arm = s.arm := rfl
@[simp] theorem State.setMod_mod (s : State) (x : Mod) : (s.setMod x).mod = x := rfl
@[simp] theorem State.setMod_lnk (s : State) (x : Mod) : (s.setMod x).lnk = s.lnk := rfl
@[simp] theorem State.setMod_nodes (s : State) (x : Mod) : (s.setMod x).nodes = s.nodes := rfl
@[simp] theorem State.setMod_mir (s : State) (x : Mod) : (s.setMod x).mir = s.mir := rfl
@[simp] theorem State.setMod_brg (s : State) (x : Mod) : (s.setMod x).brg = s.brg := rfl
@[simp] theorem State.setMod_saf (s : State) (x : Mod) : (s.setMod x).saf = s.saf := rfl
@[simp] theorem State.setMod_cst (s : State) (x : Mod) : (s.setMod x).cst = s.cst := rfl
@[simp] theorem State.setMod_flash (s : State) (x : Mod) : (s.setMod x).flash = s.flash := rfl
@[simp] theorem State.setMod_mqt (s : State) (x : Mod) : (s.setMod x).mqt = s.mqt := rfl
@[simp] theorem State.setMod_bst (s : State) (x : Mod) : (s.setMod x).bst = s.bst := rfl

@[simp] theorem State.setLnk_pending (s : State) (x : Lnk) : (s.setLnk x).pending = s.pending := rfl
@[simp] theorem State.setLnk_regs (s : State) (x : Lnk) : (s.setLnk x).regs = s.regs := rfl
@[simp] theorem State.setLnk_latch (s : State) (x : Lnk) : (s.setLnk x).latch = s.latch := rfl
@[simp] theorem State.setLnk_clk (s : State) (x : Lnk) : (s.setLnk x).clk = s.clk := rfl
@[simp] theorem State.setLnk_free (s : State) (x : Lnk) : (s.setLnk x).free = s.free := rfl
@[simp] theorem State.setLnk_bus (s : State) (x : Lnk) : (s.setLnk x).bus = s.bus := rfl
@[simp] theorem State.setLnk_sent (s : State) (x : Lnk) : (s.setLnk x).sent = s.sent := rfl
@[simp] theorem State.setLnk_mem (s : State) (x : Lnk) : (s.setLnk x).mem = s.mem := rfl
@[simp] theorem State.setLnk_upset (s : State) (x : Lnk) : (s.setLnk x).upset = s.upset := rfl
@[simp] theorem State.setLnk_sup (s : State) (x : Lnk) : (s.setLnk x).sup = s.sup := rfl
@[simp] theorem State.setLnk_fuses (s : State) (x : Lnk) : (s.setLnk x).fuses = s.fuses := rfl
@[simp] theorem State.setLnk_policy (s : State) (x : Lnk) : (s.setLnk x).policy = s.policy := rfl
@[simp] theorem State.setLnk_ctl (s : State) (x : Lnk) : (s.setLnk x).ctl = s.ctl := rfl
@[simp] theorem State.setLnk_acq (s : State) (x : Lnk) : (s.setLnk x).acq = s.acq := rfl
@[simp] theorem State.setLnk_ang (s : State) (x : Lnk) : (s.setLnk x).ang = s.ang := rfl
@[simp] theorem State.setLnk_resRec (s : State) (x : Lnk) : (s.setLnk x).resRec = s.resRec := rfl
@[simp] theorem State.setLnk_pins (s : State) (x : Lnk) : (s.setLnk x).pins = s.pins := rfl
@[simp] theorem State.setLnk_net (s : State) (x : Lnk) : (s.setLnk x).net = s.net := rfl
@[simp] theorem State.setLnk_frm (s : State) (x : Lnk) : (s.setLnk x).frm = s.frm := rfl
@[simp] theorem State.setLnk_prf (s : State) (x : Lnk) : (s.setLnk x).prf = s.prf := rfl
@[simp] theorem State.setLnk_arm (s : State) (x : Lnk) : (s.setLnk x).arm = s.arm := rfl
@[simp] theorem State.setLnk_mod (s : State) (x : Lnk) : (s.setLnk x).mod = s.mod := rfl
@[simp] theorem State.setLnk_lnk (s : State) (x : Lnk) : (s.setLnk x).lnk = x := rfl
@[simp] theorem State.setLnk_nodes (s : State) (x : Lnk) : (s.setLnk x).nodes = s.nodes := rfl
@[simp] theorem State.setLnk_mir (s : State) (x : Lnk) : (s.setLnk x).mir = s.mir := rfl
@[simp] theorem State.setLnk_brg (s : State) (x : Lnk) : (s.setLnk x).brg = s.brg := rfl
@[simp] theorem State.setLnk_saf (s : State) (x : Lnk) : (s.setLnk x).saf = s.saf := rfl
@[simp] theorem State.setLnk_cst (s : State) (x : Lnk) : (s.setLnk x).cst = s.cst := rfl
@[simp] theorem State.setLnk_flash (s : State) (x : Lnk) : (s.setLnk x).flash = s.flash := rfl
@[simp] theorem State.setLnk_mqt (s : State) (x : Lnk) : (s.setLnk x).mqt = s.mqt := rfl
@[simp] theorem State.setLnk_bst (s : State) (x : Lnk) : (s.setLnk x).bst = s.bst := rfl

@[simp] theorem State.setNodes_pending (s : State) (x : Sparse Node) : (s.setNodes x).pending = s.pending := rfl
@[simp] theorem State.setNodes_regs (s : State) (x : Sparse Node) : (s.setNodes x).regs = s.regs := rfl
@[simp] theorem State.setNodes_latch (s : State) (x : Sparse Node) : (s.setNodes x).latch = s.latch := rfl
@[simp] theorem State.setNodes_clk (s : State) (x : Sparse Node) : (s.setNodes x).clk = s.clk := rfl
@[simp] theorem State.setNodes_free (s : State) (x : Sparse Node) : (s.setNodes x).free = s.free := rfl
@[simp] theorem State.setNodes_bus (s : State) (x : Sparse Node) : (s.setNodes x).bus = s.bus := rfl
@[simp] theorem State.setNodes_sent (s : State) (x : Sparse Node) : (s.setNodes x).sent = s.sent := rfl
@[simp] theorem State.setNodes_mem (s : State) (x : Sparse Node) : (s.setNodes x).mem = s.mem := rfl
@[simp] theorem State.setNodes_upset (s : State) (x : Sparse Node) : (s.setNodes x).upset = s.upset := rfl
@[simp] theorem State.setNodes_sup (s : State) (x : Sparse Node) : (s.setNodes x).sup = s.sup := rfl
@[simp] theorem State.setNodes_fuses (s : State) (x : Sparse Node) : (s.setNodes x).fuses = s.fuses := rfl
@[simp] theorem State.setNodes_policy (s : State) (x : Sparse Node) : (s.setNodes x).policy = s.policy := rfl
@[simp] theorem State.setNodes_ctl (s : State) (x : Sparse Node) : (s.setNodes x).ctl = s.ctl := rfl
@[simp] theorem State.setNodes_acq (s : State) (x : Sparse Node) : (s.setNodes x).acq = s.acq := rfl
@[simp] theorem State.setNodes_ang (s : State) (x : Sparse Node) : (s.setNodes x).ang = s.ang := rfl
@[simp] theorem State.setNodes_resRec (s : State) (x : Sparse Node) : (s.setNodes x).resRec = s.resRec := rfl
@[simp] theorem State.setNodes_pins (s : State) (x : Sparse Node) : (s.setNodes x).pins = s.pins := rfl
@[simp] theorem State.setNodes_net (s : State) (x : Sparse Node) : (s.setNodes x).net = s.net := rfl
@[simp] theorem State.setNodes_frm (s : State) (x : Sparse Node) : (s.setNodes x).frm = s.frm := rfl
@[simp] theorem State.setNodes_prf (s : State) (x : Sparse Node) : (s.setNodes x).prf = s.prf := rfl
@[simp] theorem State.setNodes_arm (s : State) (x : Sparse Node) : (s.setNodes x).arm = s.arm := rfl
@[simp] theorem State.setNodes_mod (s : State) (x : Sparse Node) : (s.setNodes x).mod = s.mod := rfl
@[simp] theorem State.setNodes_lnk (s : State) (x : Sparse Node) : (s.setNodes x).lnk = s.lnk := rfl
@[simp] theorem State.setNodes_nodes (s : State) (x : Sparse Node) : (s.setNodes x).nodes = x := rfl
@[simp] theorem State.setNodes_mir (s : State) (x : Sparse Node) : (s.setNodes x).mir = s.mir := rfl
@[simp] theorem State.setNodes_brg (s : State) (x : Sparse Node) : (s.setNodes x).brg = s.brg := rfl
@[simp] theorem State.setNodes_saf (s : State) (x : Sparse Node) : (s.setNodes x).saf = s.saf := rfl
@[simp] theorem State.setNodes_cst (s : State) (x : Sparse Node) : (s.setNodes x).cst = s.cst := rfl
@[simp] theorem State.setNodes_flash (s : State) (x : Sparse Node) : (s.setNodes x).flash = s.flash := rfl
@[simp] theorem State.setNodes_mqt (s : State) (x : Sparse Node) : (s.setNodes x).mqt = s.mqt := rfl
@[simp] theorem State.setNodes_bst (s : State) (x : Sparse Node) : (s.setNodes x).bst = s.bst := rfl

@[simp] theorem State.setMir_pending (s : State) (x : Mir) : (s.setMir x).pending = s.pending := rfl
@[simp] theorem State.setMir_regs (s : State) (x : Mir) : (s.setMir x).regs = s.regs := rfl
@[simp] theorem State.setMir_latch (s : State) (x : Mir) : (s.setMir x).latch = s.latch := rfl
@[simp] theorem State.setMir_clk (s : State) (x : Mir) : (s.setMir x).clk = s.clk := rfl
@[simp] theorem State.setMir_free (s : State) (x : Mir) : (s.setMir x).free = s.free := rfl
@[simp] theorem State.setMir_bus (s : State) (x : Mir) : (s.setMir x).bus = s.bus := rfl
@[simp] theorem State.setMir_sent (s : State) (x : Mir) : (s.setMir x).sent = s.sent := rfl
@[simp] theorem State.setMir_mem (s : State) (x : Mir) : (s.setMir x).mem = s.mem := rfl
@[simp] theorem State.setMir_upset (s : State) (x : Mir) : (s.setMir x).upset = s.upset := rfl
@[simp] theorem State.setMir_sup (s : State) (x : Mir) : (s.setMir x).sup = s.sup := rfl
@[simp] theorem State.setMir_fuses (s : State) (x : Mir) : (s.setMir x).fuses = s.fuses := rfl
@[simp] theorem State.setMir_policy (s : State) (x : Mir) : (s.setMir x).policy = s.policy := rfl
@[simp] theorem State.setMir_ctl (s : State) (x : Mir) : (s.setMir x).ctl = s.ctl := rfl
@[simp] theorem State.setMir_acq (s : State) (x : Mir) : (s.setMir x).acq = s.acq := rfl
@[simp] theorem State.setMir_ang (s : State) (x : Mir) : (s.setMir x).ang = s.ang := rfl
@[simp] theorem State.setMir_resRec (s : State) (x : Mir) : (s.setMir x).resRec = s.resRec := rfl
@[simp] theorem State.setMir_pins (s : State) (x : Mir) : (s.setMir x).pins = s.pins := rfl
@[simp] theorem State.setMir_net (s : State) (x : Mir) : (s.setMir x).net = s.net := rfl
@[simp] theorem State.setMir_frm (s : State) (x : Mir) : (s.setMir x).frm = s.frm := rfl
@[simp] theorem State.setMir_prf (s : State) (x : Mir) : (s.setMir x).prf = s.prf := rfl
@[simp] theorem State.setMir_arm (s : State) (x : Mir) : (s.setMir x).arm = s.arm := rfl
@[simp] theorem State.setMir_mod (s : State) (x : Mir) : (s.setMir x).mod = s.mod := rfl
@[simp] theorem State.setMir_lnk (s : State) (x : Mir) : (s.setMir x).lnk = s.lnk := rfl
@[simp] theorem State.setMir_nodes (s : State) (x : Mir) : (s.setMir x).nodes = s.nodes := rfl
@[simp] theorem State.setMir_mir (s : State) (x : Mir) : (s.setMir x).mir = x := rfl
@[simp] theorem State.setMir_brg (s : State) (x : Mir) : (s.setMir x).brg = s.brg := rfl
@[simp] theorem State.setMir_saf (s : State) (x : Mir) : (s.setMir x).saf = s.saf := rfl
@[simp] theorem State.setMir_cst (s : State) (x : Mir) : (s.setMir x).cst = s.cst := rfl
@[simp] theorem State.setMir_flash (s : State) (x : Mir) : (s.setMir x).flash = s.flash := rfl
@[simp] theorem State.setMir_mqt (s : State) (x : Mir) : (s.setMir x).mqt = s.mqt := rfl
@[simp] theorem State.setMir_bst (s : State) (x : Mir) : (s.setMir x).bst = s.bst := rfl

@[simp] theorem State.setBrg_pending (s : State) (x : Brg) : (s.setBrg x).pending = s.pending := rfl
@[simp] theorem State.setBrg_regs (s : State) (x : Brg) : (s.setBrg x).regs = s.regs := rfl
@[simp] theorem State.setBrg_latch (s : State) (x : Brg) : (s.setBrg x).latch = s.latch := rfl
@[simp] theorem State.setBrg_clk (s : State) (x : Brg) : (s.setBrg x).clk = s.clk := rfl
@[simp] theorem State.setBrg_free (s : State) (x : Brg) : (s.setBrg x).free = s.free := rfl
@[simp] theorem State.setBrg_bus (s : State) (x : Brg) : (s.setBrg x).bus = s.bus := rfl
@[simp] theorem State.setBrg_sent (s : State) (x : Brg) : (s.setBrg x).sent = s.sent := rfl
@[simp] theorem State.setBrg_mem (s : State) (x : Brg) : (s.setBrg x).mem = s.mem := rfl
@[simp] theorem State.setBrg_upset (s : State) (x : Brg) : (s.setBrg x).upset = s.upset := rfl
@[simp] theorem State.setBrg_sup (s : State) (x : Brg) : (s.setBrg x).sup = s.sup := rfl
@[simp] theorem State.setBrg_fuses (s : State) (x : Brg) : (s.setBrg x).fuses = s.fuses := rfl
@[simp] theorem State.setBrg_policy (s : State) (x : Brg) : (s.setBrg x).policy = s.policy := rfl
@[simp] theorem State.setBrg_ctl (s : State) (x : Brg) : (s.setBrg x).ctl = s.ctl := rfl
@[simp] theorem State.setBrg_acq (s : State) (x : Brg) : (s.setBrg x).acq = s.acq := rfl
@[simp] theorem State.setBrg_ang (s : State) (x : Brg) : (s.setBrg x).ang = s.ang := rfl
@[simp] theorem State.setBrg_resRec (s : State) (x : Brg) : (s.setBrg x).resRec = s.resRec := rfl
@[simp] theorem State.setBrg_pins (s : State) (x : Brg) : (s.setBrg x).pins = s.pins := rfl
@[simp] theorem State.setBrg_net (s : State) (x : Brg) : (s.setBrg x).net = s.net := rfl
@[simp] theorem State.setBrg_frm (s : State) (x : Brg) : (s.setBrg x).frm = s.frm := rfl
@[simp] theorem State.setBrg_prf (s : State) (x : Brg) : (s.setBrg x).prf = s.prf := rfl
@[simp] theorem State.setBrg_arm (s : State) (x : Brg) : (s.setBrg x).arm = s.arm := rfl
@[simp] theorem State.setBrg_mod (s : State) (x : Brg) : (s.setBrg x).mod = s.mod := rfl
@[simp] theorem State.setBrg_lnk (s : State) (x : Brg) : (s.setBrg x).lnk = s.lnk := rfl
@[simp] theorem State.setBrg_nodes (s : State) (x : Brg) : (s.setBrg x).nodes = s.nodes := rfl
@[simp] theorem State.setBrg_mir (s : State) (x : Brg) : (s.setBrg x).mir = s.mir := rfl
@[simp] theorem State.setBrg_brg (s : State) (x : Brg) : (s.setBrg x).brg = x := rfl
@[simp] theorem State.setBrg_saf (s : State) (x : Brg) : (s.setBrg x).saf = s.saf := rfl
@[simp] theorem State.setBrg_cst (s : State) (x : Brg) : (s.setBrg x).cst = s.cst := rfl
@[simp] theorem State.setBrg_flash (s : State) (x : Brg) : (s.setBrg x).flash = s.flash := rfl
@[simp] theorem State.setBrg_mqt (s : State) (x : Brg) : (s.setBrg x).mqt = s.mqt := rfl
@[simp] theorem State.setBrg_bst (s : State) (x : Brg) : (s.setBrg x).bst = s.bst := rfl

@[simp] theorem State.setSaf_pending (s : State) (x : Saf) : (s.setSaf x).pending = s.pending := rfl
@[simp] theorem State.setSaf_regs (s : State) (x : Saf) : (s.setSaf x).regs = s.regs := rfl
@[simp] theorem State.setSaf_latch (s : State) (x : Saf) : (s.setSaf x).latch = s.latch := rfl
@[simp] theorem State.setSaf_clk (s : State) (x : Saf) : (s.setSaf x).clk = s.clk := rfl
@[simp] theorem State.setSaf_free (s : State) (x : Saf) : (s.setSaf x).free = s.free := rfl
@[simp] theorem State.setSaf_bus (s : State) (x : Saf) : (s.setSaf x).bus = s.bus := rfl
@[simp] theorem State.setSaf_sent (s : State) (x : Saf) : (s.setSaf x).sent = s.sent := rfl
@[simp] theorem State.setSaf_mem (s : State) (x : Saf) : (s.setSaf x).mem = s.mem := rfl
@[simp] theorem State.setSaf_upset (s : State) (x : Saf) : (s.setSaf x).upset = s.upset := rfl
@[simp] theorem State.setSaf_sup (s : State) (x : Saf) : (s.setSaf x).sup = s.sup := rfl
@[simp] theorem State.setSaf_fuses (s : State) (x : Saf) : (s.setSaf x).fuses = s.fuses := rfl
@[simp] theorem State.setSaf_policy (s : State) (x : Saf) : (s.setSaf x).policy = s.policy := rfl
@[simp] theorem State.setSaf_ctl (s : State) (x : Saf) : (s.setSaf x).ctl = s.ctl := rfl
@[simp] theorem State.setSaf_acq (s : State) (x : Saf) : (s.setSaf x).acq = s.acq := rfl
@[simp] theorem State.setSaf_ang (s : State) (x : Saf) : (s.setSaf x).ang = s.ang := rfl
@[simp] theorem State.setSaf_resRec (s : State) (x : Saf) : (s.setSaf x).resRec = s.resRec := rfl
@[simp] theorem State.setSaf_pins (s : State) (x : Saf) : (s.setSaf x).pins = s.pins := rfl
@[simp] theorem State.setSaf_net (s : State) (x : Saf) : (s.setSaf x).net = s.net := rfl
@[simp] theorem State.setSaf_frm (s : State) (x : Saf) : (s.setSaf x).frm = s.frm := rfl
@[simp] theorem State.setSaf_prf (s : State) (x : Saf) : (s.setSaf x).prf = s.prf := rfl
@[simp] theorem State.setSaf_arm (s : State) (x : Saf) : (s.setSaf x).arm = s.arm := rfl
@[simp] theorem State.setSaf_mod (s : State) (x : Saf) : (s.setSaf x).mod = s.mod := rfl
@[simp] theorem State.setSaf_lnk (s : State) (x : Saf) : (s.setSaf x).lnk = s.lnk := rfl
@[simp] theorem State.setSaf_nodes (s : State) (x : Saf) : (s.setSaf x).nodes = s.nodes := rfl
@[simp] theorem State.setSaf_mir (s : State) (x : Saf) : (s.setSaf x).mir = s.mir := rfl
@[simp] theorem State.setSaf_brg (s : State) (x : Saf) : (s.setSaf x).brg = s.brg := rfl
@[simp] theorem State.setSaf_saf (s : State) (x : Saf) : (s.setSaf x).saf = x := rfl
@[simp] theorem State.setSaf_cst (s : State) (x : Saf) : (s.setSaf x).cst = s.cst := rfl
@[simp] theorem State.setSaf_flash (s : State) (x : Saf) : (s.setSaf x).flash = s.flash := rfl
@[simp] theorem State.setSaf_mqt (s : State) (x : Saf) : (s.setSaf x).mqt = s.mqt := rfl
@[simp] theorem State.setSaf_bst (s : State) (x : Saf) : (s.setSaf x).bst = s.bst := rfl

@[simp] theorem State.setCst_pending (s : State) (x : Cst) : (s.setCst x).pending = s.pending := rfl
@[simp] theorem State.setCst_regs (s : State) (x : Cst) : (s.setCst x).regs = s.regs := rfl
@[simp] theorem State.setCst_latch (s : State) (x : Cst) : (s.setCst x).latch = s.latch := rfl
@[simp] theorem State.setCst_clk (s : State) (x : Cst) : (s.setCst x).clk = s.clk := rfl
@[simp] theorem State.setCst_free (s : State) (x : Cst) : (s.setCst x).free = s.free := rfl
@[simp] theorem State.setCst_bus (s : State) (x : Cst) : (s.setCst x).bus = s.bus := rfl
@[simp] theorem State.setCst_sent (s : State) (x : Cst) : (s.setCst x).sent = s.sent := rfl
@[simp] theorem State.setCst_mem (s : State) (x : Cst) : (s.setCst x).mem = s.mem := rfl
@[simp] theorem State.setCst_upset (s : State) (x : Cst) : (s.setCst x).upset = s.upset := rfl
@[simp] theorem State.setCst_sup (s : State) (x : Cst) : (s.setCst x).sup = s.sup := rfl
@[simp] theorem State.setCst_fuses (s : State) (x : Cst) : (s.setCst x).fuses = s.fuses := rfl
@[simp] theorem State.setCst_policy (s : State) (x : Cst) : (s.setCst x).policy = s.policy := rfl
@[simp] theorem State.setCst_ctl (s : State) (x : Cst) : (s.setCst x).ctl = s.ctl := rfl
@[simp] theorem State.setCst_acq (s : State) (x : Cst) : (s.setCst x).acq = s.acq := rfl
@[simp] theorem State.setCst_ang (s : State) (x : Cst) : (s.setCst x).ang = s.ang := rfl
@[simp] theorem State.setCst_resRec (s : State) (x : Cst) : (s.setCst x).resRec = s.resRec := rfl
@[simp] theorem State.setCst_pins (s : State) (x : Cst) : (s.setCst x).pins = s.pins := rfl
@[simp] theorem State.setCst_net (s : State) (x : Cst) : (s.setCst x).net = s.net := rfl
@[simp] theorem State.setCst_frm (s : State) (x : Cst) : (s.setCst x).frm = s.frm := rfl
@[simp] theorem State.setCst_prf (s : State) (x : Cst) : (s.setCst x).prf = s.prf := rfl
@[simp] theorem State.setCst_arm (s : State) (x : Cst) : (s.setCst x).arm = s.arm := rfl
@[simp] theorem State.setCst_mod (s : State) (x : Cst) : (s.setCst x).mod = s.mod := rfl
@[simp] theorem State.setCst_lnk (s : State) (x : Cst) : (s.setCst x).lnk = s.lnk := rfl
@[simp] theorem State.setCst_nodes (s : State) (x : Cst) : (s.setCst x).nodes = s.nodes := rfl
@[simp] theorem State.setCst_mir (s : State) (x : Cst) : (s.setCst x).mir = s.mir := rfl
@[simp] theorem State.setCst_brg (s : State) (x : Cst) : (s.setCst x).brg = s.brg := rfl
@[simp] theorem State.setCst_saf (s : State) (x : Cst) : (s.setCst x).saf = s.saf := rfl
@[simp] theorem State.setCst_cst (s : State) (x : Cst) : (s.setCst x).cst = x := rfl
@[simp] theorem State.setCst_flash (s : State) (x : Cst) : (s.setCst x).flash = s.flash := rfl
@[simp] theorem State.setCst_mqt (s : State) (x : Cst) : (s.setCst x).mqt = s.mqt := rfl
@[simp] theorem State.setCst_bst (s : State) (x : Cst) : (s.setCst x).bst = s.bst := rfl

@[simp] theorem State.setFlash_pending (s : State) (x : List Host.Cell) : (s.setFlash x).pending = s.pending := rfl
@[simp] theorem State.setFlash_regs (s : State) (x : List Host.Cell) : (s.setFlash x).regs = s.regs := rfl
@[simp] theorem State.setFlash_latch (s : State) (x : List Host.Cell) : (s.setFlash x).latch = s.latch := rfl
@[simp] theorem State.setFlash_clk (s : State) (x : List Host.Cell) : (s.setFlash x).clk = s.clk := rfl
@[simp] theorem State.setFlash_free (s : State) (x : List Host.Cell) : (s.setFlash x).free = s.free := rfl
@[simp] theorem State.setFlash_bus (s : State) (x : List Host.Cell) : (s.setFlash x).bus = s.bus := rfl
@[simp] theorem State.setFlash_sent (s : State) (x : List Host.Cell) : (s.setFlash x).sent = s.sent := rfl
@[simp] theorem State.setFlash_mem (s : State) (x : List Host.Cell) : (s.setFlash x).mem = s.mem := rfl
@[simp] theorem State.setFlash_upset (s : State) (x : List Host.Cell) : (s.setFlash x).upset = s.upset := rfl
@[simp] theorem State.setFlash_sup (s : State) (x : List Host.Cell) : (s.setFlash x).sup = s.sup := rfl
@[simp] theorem State.setFlash_fuses (s : State) (x : List Host.Cell) : (s.setFlash x).fuses = s.fuses := rfl
@[simp] theorem State.setFlash_policy (s : State) (x : List Host.Cell) : (s.setFlash x).policy = s.policy := rfl
@[simp] theorem State.setFlash_ctl (s : State) (x : List Host.Cell) : (s.setFlash x).ctl = s.ctl := rfl
@[simp] theorem State.setFlash_acq (s : State) (x : List Host.Cell) : (s.setFlash x).acq = s.acq := rfl
@[simp] theorem State.setFlash_ang (s : State) (x : List Host.Cell) : (s.setFlash x).ang = s.ang := rfl
@[simp] theorem State.setFlash_resRec (s : State) (x : List Host.Cell) : (s.setFlash x).resRec = s.resRec := rfl
@[simp] theorem State.setFlash_pins (s : State) (x : List Host.Cell) : (s.setFlash x).pins = s.pins := rfl
@[simp] theorem State.setFlash_net (s : State) (x : List Host.Cell) : (s.setFlash x).net = s.net := rfl
@[simp] theorem State.setFlash_frm (s : State) (x : List Host.Cell) : (s.setFlash x).frm = s.frm := rfl
@[simp] theorem State.setFlash_prf (s : State) (x : List Host.Cell) : (s.setFlash x).prf = s.prf := rfl
@[simp] theorem State.setFlash_arm (s : State) (x : List Host.Cell) : (s.setFlash x).arm = s.arm := rfl
@[simp] theorem State.setFlash_mod (s : State) (x : List Host.Cell) : (s.setFlash x).mod = s.mod := rfl
@[simp] theorem State.setFlash_lnk (s : State) (x : List Host.Cell) : (s.setFlash x).lnk = s.lnk := rfl
@[simp] theorem State.setFlash_nodes (s : State) (x : List Host.Cell) : (s.setFlash x).nodes = s.nodes := rfl
@[simp] theorem State.setFlash_mir (s : State) (x : List Host.Cell) : (s.setFlash x).mir = s.mir := rfl
@[simp] theorem State.setFlash_brg (s : State) (x : List Host.Cell) : (s.setFlash x).brg = s.brg := rfl
@[simp] theorem State.setFlash_saf (s : State) (x : List Host.Cell) : (s.setFlash x).saf = s.saf := rfl
@[simp] theorem State.setFlash_cst (s : State) (x : List Host.Cell) : (s.setFlash x).cst = s.cst := rfl
@[simp] theorem State.setFlash_flash (s : State) (x : List Host.Cell) : (s.setFlash x).flash = x := rfl
@[simp] theorem State.setFlash_mqt (s : State) (x : List Host.Cell) : (s.setFlash x).mqt = s.mqt := rfl
@[simp] theorem State.setFlash_bst (s : State) (x : List Host.Cell) : (s.setFlash x).bst = s.bst := rfl

@[simp] theorem State.setMqt_pending (s : State) (x : Mqt) : (s.setMqt x).pending = s.pending := rfl
@[simp] theorem State.setMqt_regs (s : State) (x : Mqt) : (s.setMqt x).regs = s.regs := rfl
@[simp] theorem State.setMqt_latch (s : State) (x : Mqt) : (s.setMqt x).latch = s.latch := rfl
@[simp] theorem State.setMqt_clk (s : State) (x : Mqt) : (s.setMqt x).clk = s.clk := rfl
@[simp] theorem State.setMqt_free (s : State) (x : Mqt) : (s.setMqt x).free = s.free := rfl
@[simp] theorem State.setMqt_bus (s : State) (x : Mqt) : (s.setMqt x).bus = s.bus := rfl
@[simp] theorem State.setMqt_sent (s : State) (x : Mqt) : (s.setMqt x).sent = s.sent := rfl
@[simp] theorem State.setMqt_mem (s : State) (x : Mqt) : (s.setMqt x).mem = s.mem := rfl
@[simp] theorem State.setMqt_upset (s : State) (x : Mqt) : (s.setMqt x).upset = s.upset := rfl
@[simp] theorem State.setMqt_sup (s : State) (x : Mqt) : (s.setMqt x).sup = s.sup := rfl
@[simp] theorem State.setMqt_fuses (s : State) (x : Mqt) : (s.setMqt x).fuses = s.fuses := rfl
@[simp] theorem State.setMqt_policy (s : State) (x : Mqt) : (s.setMqt x).policy = s.policy := rfl
@[simp] theorem State.setMqt_ctl (s : State) (x : Mqt) : (s.setMqt x).ctl = s.ctl := rfl
@[simp] theorem State.setMqt_acq (s : State) (x : Mqt) : (s.setMqt x).acq = s.acq := rfl
@[simp] theorem State.setMqt_ang (s : State) (x : Mqt) : (s.setMqt x).ang = s.ang := rfl
@[simp] theorem State.setMqt_resRec (s : State) (x : Mqt) : (s.setMqt x).resRec = s.resRec := rfl
@[simp] theorem State.setMqt_pins (s : State) (x : Mqt) : (s.setMqt x).pins = s.pins := rfl
@[simp] theorem State.setMqt_net (s : State) (x : Mqt) : (s.setMqt x).net = s.net := rfl
@[simp] theorem State.setMqt_frm (s : State) (x : Mqt) : (s.setMqt x).frm = s.frm := rfl
@[simp] theorem State.setMqt_prf (s : State) (x : Mqt) : (s.setMqt x).prf = s.prf := rfl
@[simp] theorem State.setMqt_arm (s : State) (x : Mqt) : (s.setMqt x).arm = s.arm := rfl
@[simp] theorem State.setMqt_mod (s : State) (x : Mqt) : (s.setMqt x).mod = s.mod := rfl
@[simp] theorem State.setMqt_lnk (s : State) (x : Mqt) : (s.setMqt x).lnk = s.lnk := rfl
@[simp] theorem State.setMqt_nodes (s : State) (x : Mqt) : (s.setMqt x).nodes = s.nodes := rfl
@[simp] theorem State.setMqt_mir (s : State) (x : Mqt) : (s.setMqt x).mir = s.mir := rfl
@[simp] theorem State.setMqt_brg (s : State) (x : Mqt) : (s.setMqt x).brg = s.brg := rfl
@[simp] theorem State.setMqt_saf (s : State) (x : Mqt) : (s.setMqt x).saf = s.saf := rfl
@[simp] theorem State.setMqt_cst (s : State) (x : Mqt) : (s.setMqt x).cst = s.cst := rfl
@[simp] theorem State.setMqt_flash (s : State) (x : Mqt) : (s.setMqt x).flash = s.flash := rfl
@[simp] theorem State.setMqt_mqt (s : State) (x : Mqt) : (s.setMqt x).mqt = x := rfl
@[simp] theorem State.setMqt_bst (s : State) (x : Mqt) : (s.setMqt x).bst = s.bst := rfl

@[simp] theorem State.setBst_pending (s : State) (x : Bst) : (s.setBst x).pending = s.pending := rfl
@[simp] theorem State.setBst_regs (s : State) (x : Bst) : (s.setBst x).regs = s.regs := rfl
@[simp] theorem State.setBst_latch (s : State) (x : Bst) : (s.setBst x).latch = s.latch := rfl
@[simp] theorem State.setBst_clk (s : State) (x : Bst) : (s.setBst x).clk = s.clk := rfl
@[simp] theorem State.setBst_free (s : State) (x : Bst) : (s.setBst x).free = s.free := rfl
@[simp] theorem State.setBst_bus (s : State) (x : Bst) : (s.setBst x).bus = s.bus := rfl
@[simp] theorem State.setBst_sent (s : State) (x : Bst) : (s.setBst x).sent = s.sent := rfl
@[simp] theorem State.setBst_mem (s : State) (x : Bst) : (s.setBst x).mem = s.mem := rfl
@[simp] theorem State.setBst_upset (s : State) (x : Bst) : (s.setBst x).upset = s.upset := rfl
@[simp] theorem State.setBst_sup (s : State) (x : Bst) : (s.setBst x).sup = s.sup := rfl
@[simp] theorem State.setBst_fuses (s : State) (x : Bst) : (s.setBst x).fuses = s.fuses := rfl
@[simp] theorem State.setBst_policy (s : State) (x : Bst) : (s.setBst x).policy = s.policy := rfl
@[simp] theorem State.setBst_ctl (s : State) (x : Bst) : (s.setBst x).ctl = s.ctl := rfl
@[simp] theorem State.setBst_acq (s : State) (x : Bst) : (s.setBst x).acq = s.acq := rfl
@[simp] theorem State.setBst_ang (s : State) (x : Bst) : (s.setBst x).ang = s.ang := rfl
@[simp] theorem State.setBst_resRec (s : State) (x : Bst) : (s.setBst x).resRec = s.resRec := rfl
@[simp] theorem State.setBst_pins (s : State) (x : Bst) : (s.setBst x).pins = s.pins := rfl
@[simp] theorem State.setBst_net (s : State) (x : Bst) : (s.setBst x).net = s.net := rfl
@[simp] theorem State.setBst_frm (s : State) (x : Bst) : (s.setBst x).frm = s.frm := rfl
@[simp] theorem State.setBst_prf (s : State) (x : Bst) : (s.setBst x).prf = s.prf := rfl
@[simp] theorem State.setBst_arm (s : State) (x : Bst) : (s.setBst x).arm = s.arm := rfl
@[simp] theorem State.setBst_mod (s : State) (x : Bst) : (s.setBst x).mod = s.mod := rfl
@[simp] theorem State.setBst_lnk (s : State) (x : Bst) : (s.setBst x).lnk = s.lnk := rfl
@[simp] theorem State.setBst_nodes (s : State) (x : Bst) : (s.setBst x).nodes = s.nodes := rfl
@[simp] theorem State.setBst_mir (s : State) (x : Bst) : (s.setBst x).mir = s.mir := rfl
@[simp] theorem State.setBst_brg (s : State) (x : Bst) : (s.setBst x).brg = s.brg := rfl
@[simp] theorem State.setBst_saf (s : State) (x : Bst) : (s.setBst x).saf = s.saf := rfl
@[simp] theorem State.setBst_cst (s : State) (x : Bst) : (s.setBst x).cst = s.cst := rfl
@[simp] theorem State.setBst_flash (s : State) (x : Bst) : (s.setBst x).flash = s.flash := rfl
@[simp] theorem State.setBst_mqt (s : State) (x : Bst) : (s.setBst x).mqt = s.mqt := rfl
@[simp] theorem State.setBst_bst (s : State) (x : Bst) : (s.setBst x).bst = x := rfl

end Sys2Proof.Machine
end

