-- ==== Sys2Proof/Laws/Registers.lean ====
section
/-! SUPPORT. What a read of a register field gives after each kind of change, and what a write of one leaves. -/

namespace Sys2Proof.Machine

/-! ## A field after a write -/

/-- A field reads as it was written. -/
@[simp] theorem State.rd_wr_same (s : State) (f : Fld) (v : Nat) : (s.wr f v).rd f = v % 2 ^ f.wid := by
  simp [State.rd, State.wr]

/-- A write leaves every field with another key. -/
theorem State.rd_wr_ne (s : State) {f g : Fld} (v : Nat) (h : g.key ≠ f.key) : (s.wr f v).rd g = s.rd g := by
  simp [State.rd, State.wr, spGet_spSet_ne _ _ _ _ h]

/-- A flag that is set reads 1. -/
@[simp] theorem State.flag_set1_same (s : State) (f : Fld) (h : f.wid = 1) : (s.set1 f).flag f = true := by
  simp [State.flag, State.set1, h]

/-- A flag that is cleared reads 0. -/
@[simp] theorem State.flag_set0_same (s : State) (f : Fld) : (s.set0 f).flag f = false := by
  simp [State.flag, State.set0]

/-- Setting or clearing a flag leaves every field with another key. -/
theorem State.rd_set1_ne (s : State) {f g : Fld} (h : g.key ≠ f.key) : (s.set1 f).rd g = s.rd g := State.rd_wr_ne s 1 h
theorem State.rd_set0_ne (s : State) {f g : Fld} (h : g.key ≠ f.key) : (s.set0 f).rd g = s.rd g := State.rd_wr_ne s 0 h

/-- The latched copy does not follow a write. -/
@[simp] theorem State.lrd_wr (s : State) (f g : Fld) (v : Nat) : (s.wr f v).lrd g = s.lrd g := rfl

/-! ## A field after a change of something else -/

@[simp] theorem State.rd_setPending (s : State) (x : List Instr) (f : Fld) : (s.setPending x).rd f = s.rd f := rfl
@[simp] theorem State.rd_setLatch (s : State) (x : Sparse Nat) (f : Fld) : (s.setLatch x).rd f = s.rd f := rfl
@[simp] theorem State.rd_setClk (s : State) (x : Clk) (f : Fld) : (s.setClk x).rd f = s.rd f := rfl
@[simp] theorem State.rd_setFree (s : State) (x : Nat) (f : Fld) : (s.setFree x).rd f = s.rd f := rfl
@[simp] theorem State.rd_setBus (s : State) (x : List BusAnswer) (f : Fld) : (s.setBus x).rd f = s.rd f := rfl
@[simp] theorem State.rd_setSent (s : State) (x : List Sent) (f : Fld) : (s.setSent x).rd f = s.rd f := rfl
@[simp] theorem State.rd_setMem (s : State) (x : List Host.Cell) (f : Fld) : (s.setMem x).rd f = s.rd f := rfl
@[simp] theorem State.rd_setUpset (s : State) (x : Sparse Nat) (f : Fld) : (s.setUpset x).rd f = s.rd f := rfl
@[simp] theorem State.rd_setSup (s : State) (x : Sup) (f : Fld) : (s.setSup x).rd f = s.rd f := rfl
@[simp] theorem State.rd_setFuses (s : State) (x : Fuses) (f : Fld) : (s.setFuses x).rd f = s.rd f := rfl
@[simp] theorem State.rd_setPolicy (s : State) (x : Policy) (f : Fld) : (s.setPolicy x).rd f = s.rd f := rfl
@[simp] theorem State.rd_setCtl (s : State) (x : Ctl) (f : Fld) : (s.setCtl x).rd f = s.rd f := rfl
@[simp] theorem State.rd_setAcq (s : State) (x : Acq) (f : Fld) : (s.setAcq x).rd f = s.rd f := rfl
@[simp] theorem State.rd_setAng (s : State) (x : Ang) (f : Fld) : (s.setAng x).rd f = s.rd f := rfl
@[simp] theorem State.rd_setResRec (s : State) (x : List Nat) (f : Fld) : (s.setResRec x).rd f = s.rd f := rfl
@[simp] theorem State.rd_setPins (s : State) (x : Pins) (f : Fld) : (s.setPins x).rd f = s.rd f := rfl
@[simp] theorem State.rd_setNet (s : State) (x : Net) (f : Fld) : (s.setNet x).rd f = s.rd f := rfl
@[simp] theorem State.rd_setFrm (s : State) (x : Frm) (f : Fld) : (s.setFrm x).rd f = s.rd f := rfl
@[simp] theorem State.rd_setPrf (s : State) (x : Sparse PrfCh) (f : Fld) : (s.setPrf x).rd f = s.rd f := rfl
@[simp] theorem State.rd_setArm (s : State) (x : Arm) (f : Fld) : (s.setArm x).rd f = s.rd f := rfl
@[simp] theorem State.rd_setMod (s : State) (x : Mod) (f : Fld) : (s.setMod x).rd f = s.rd f := rfl
@[simp] theorem State.rd_setLnk (s : State) (x : Lnk) (f : Fld) : (s.setLnk x).rd f = s.rd f := rfl
@[simp] theorem State.rd_setNodes (s : State) (x : Sparse Node) (f : Fld) : (s.setNodes x).rd f = s.rd f := rfl
@[simp] theorem State.rd_setMir (s : State) (x : Mir) (f : Fld) : (s.setMir x).rd f = s.rd f := rfl
@[simp] theorem State.rd_setBrg (s : State) (x : Brg) (f : Fld) : (s.setBrg x).rd f = s.rd f := rfl
@[simp] theorem State.rd_setSaf (s : State) (x : Saf) (f : Fld) : (s.setSaf x).rd f = s.rd f := rfl
@[simp] theorem State.rd_setCst (s : State) (x : Cst) (f : Fld) : (s.setCst x).rd f = s.rd f := rfl
@[simp] theorem State.rd_setFlash (s : State) (x : List Host.Cell) (f : Fld) : (s.setFlash x).rd f = s.rd f := rfl
@[simp] theorem State.rd_setMqt (s : State) (x : Mqt) (f : Fld) : (s.setMqt x).rd f = s.rd f := rfl
@[simp] theorem State.rd_setBst (s : State) (x : Bst) (f : Fld) : (s.setBst x).rd f = s.rd f := rfl

/-! ## What a write of a field leaves -/

@[simp] theorem State.wr_pending (s : State) (f : Fld) (v : Nat) : (s.wr f v).pending = s.pending := rfl
@[simp] theorem State.wr_latch (s : State) (f : Fld) (v : Nat) : (s.wr f v).latch = s.latch := rfl
@[simp] theorem State.wr_clk (s : State) (f : Fld) (v : Nat) : (s.wr f v).clk = s.clk := rfl
@[simp] theorem State.wr_free (s : State) (f : Fld) (v : Nat) : (s.wr f v).free = s.free := rfl
@[simp] theorem State.wr_bus (s : State) (f : Fld) (v : Nat) : (s.wr f v).bus = s.bus := rfl
@[simp] theorem State.wr_sent (s : State) (f : Fld) (v : Nat) : (s.wr f v).sent = s.sent := rfl
@[simp] theorem State.wr_mem (s : State) (f : Fld) (v : Nat) : (s.wr f v).mem = s.mem := rfl
@[simp] theorem State.wr_upset (s : State) (f : Fld) (v : Nat) : (s.wr f v).upset = s.upset := rfl
@[simp] theorem State.wr_sup (s : State) (f : Fld) (v : Nat) : (s.wr f v).sup = s.sup := rfl
@[simp] theorem State.wr_fuses (s : State) (f : Fld) (v : Nat) : (s.wr f v).fuses = s.fuses := rfl
@[simp] theorem State.wr_policy (s : State) (f : Fld) (v : Nat) : (s.wr f v).policy = s.policy := rfl
@[simp] theorem State.wr_ctl (s : State) (f : Fld) (v : Nat) : (s.wr f v).ctl = s.ctl := rfl
@[simp] theorem State.wr_acq (s : State) (f : Fld) (v : Nat) : (s.wr f v).acq = s.acq := rfl
@[simp] theorem State.wr_ang (s : State) (f : Fld) (v : Nat) : (s.wr f v).ang = s.ang := rfl
@[simp] theorem State.wr_resRec (s : State) (f : Fld) (v : Nat) : (s.wr f v).resRec = s.resRec := rfl
@[simp] theorem State.wr_pins (s : State) (f : Fld) (v : Nat) : (s.wr f v).pins = s.pins := rfl
@[simp] theorem State.wr_net (s : State) (f : Fld) (v : Nat) : (s.wr f v).net = s.net := rfl
@[simp] theorem State.wr_frm (s : State) (f : Fld) (v : Nat) : (s.wr f v).frm = s.frm := rfl
@[simp] theorem State.wr_prf (s : State) (f : Fld) (v : Nat) : (s.wr f v).prf = s.prf := rfl
@[simp] theorem State.wr_arm (s : State) (f : Fld) (v : Nat) : (s.wr f v).arm = s.arm := rfl
@[simp] theorem State.wr_mod (s : State) (f : Fld) (v : Nat) : (s.wr f v).mod = s.mod := rfl
@[simp] theorem State.wr_lnk (s : State) (f : Fld) (v : Nat) : (s.wr f v).lnk = s.lnk := rfl
@[simp] theorem State.wr_nodes (s : State) (f : Fld) (v : Nat) : (s.wr f v).nodes = s.nodes := rfl
@[simp] theorem State.wr_mir (s : State) (f : Fld) (v : Nat) : (s.wr f v).mir = s.mir := rfl
@[simp] theorem State.wr_brg (s : State) (f : Fld) (v : Nat) : (s.wr f v).brg = s.brg := rfl
@[simp] theorem State.wr_saf (s : State) (f : Fld) (v : Nat) : (s.wr f v).saf = s.saf := rfl
@[simp] theorem State.wr_cst (s : State) (f : Fld) (v : Nat) : (s.wr f v).cst = s.cst := rfl
@[simp] theorem State.wr_flash (s : State) (f : Fld) (v : Nat) : (s.wr f v).flash = s.flash := rfl
@[simp] theorem State.wr_mqt (s : State) (f : Fld) (v : Nat) : (s.wr f v).mqt = s.mqt := rfl
@[simp] theorem State.wr_bst (s : State) (f : Fld) (v : Nat) : (s.wr f v).bst = s.bst := rfl

/-! ## The end of a command -/

/-- The interrupt tree sends MSI messages and disarms their vectors, and nothing else (R392). -/
theorem State.msiSend_eq (s : State) : ∃ x y, s.msiSend = (s.setSup { s.sup with msiOff := x }).setSent y := by
  unfold State.msiSend
  split
  · suffices ∀ (l : List Nat) (t : State) (x : Sparse Nat) (y : List Sent), t = (s.setSup { s.sup with msiOff := x }).setSent y →
        ∃ x y, l.foldl State.msiVector t = (s.setSup { s.sup with msiOff := x }).setSent y from
      this _ s s.sup.msiOff s.sent rfl
    intro l
    induction l with
    | nil => intro t x y h; exact ⟨x, y, h⟩
    | cons v r ih =>
      intro t x y h
      rw [List.foldl_cons]
      unfold State.msiVector
      split
      · exact ih _ (spPut t.sup.msiOff v 1) (.msi v :: t.sent) (by subst h; rfl)
      · exact ih _ x y h
  · exact ⟨s.sup.msiOff, s.sent, rfl⟩

@[simp] theorem State.rd_msiSend (s : State) (f : Fld) : s.msiSend.rd f = s.rd f := by
  obtain ⟨x, y, h⟩ := s.msiSend_eq
  simp [h]

@[simp] theorem State.msiSend_pending (s : State) : s.msiSend.pending = s.pending := by
  obtain ⟨x, y, h⟩ := s.msiSend_eq
  simp [h]

@[simp] theorem State.msiSend_latch (s : State) : s.msiSend.latch = s.latch := by
  obtain ⟨x, y, h⟩ := s.msiSend_eq
  simp [h]

@[simp] theorem State.msiSend_clk (s : State) : s.msiSend.clk = s.clk := by
  obtain ⟨x, y, h⟩ := s.msiSend_eq
  simp [h]

@[simp] theorem State.msiSend_free (s : State) : s.msiSend.free = s.free := by
  obtain ⟨x, y, h⟩ := s.msiSend_eq
  simp [h]

@[simp] theorem State.msiSend_bus (s : State) : s.msiSend.bus = s.bus := by
  obtain ⟨x, y, h⟩ := s.msiSend_eq
  simp [h]

@[simp] theorem State.msiSend_mem (s : State) : s.msiSend.mem = s.mem := by
  obtain ⟨x, y, h⟩ := s.msiSend_eq
  simp [h]

@[simp] theorem State.msiSend_upset (s : State) : s.msiSend.upset = s.upset := by
  obtain ⟨x, y, h⟩ := s.msiSend_eq
  simp [h]

@[simp] theorem State.msiSend_fuses (s : State) : s.msiSend.fuses = s.fuses := by
  obtain ⟨x, y, h⟩ := s.msiSend_eq
  simp [h]

@[simp] theorem State.msiSend_policy (s : State) : s.msiSend.policy = s.policy := by
  obtain ⟨x, y, h⟩ := s.msiSend_eq
  simp [h]

@[simp] theorem State.msiSend_ctl (s : State) : s.msiSend.ctl = s.ctl := by
  obtain ⟨x, y, h⟩ := s.msiSend_eq
  simp [h]

@[simp] theorem State.msiSend_acq (s : State) : s.msiSend.acq = s.acq := by
  obtain ⟨x, y, h⟩ := s.msiSend_eq
  simp [h]

@[simp] theorem State.msiSend_ang (s : State) : s.msiSend.ang = s.ang := by
  obtain ⟨x, y, h⟩ := s.msiSend_eq
  simp [h]

@[simp] theorem State.msiSend_resRec (s : State) : s.msiSend.resRec = s.resRec := by
  obtain ⟨x, y, h⟩ := s.msiSend_eq
  simp [h]

@[simp] theorem State.msiSend_pins (s : State) : s.msiSend.pins = s.pins := by
  obtain ⟨x, y, h⟩ := s.msiSend_eq
  simp [h]

@[simp] theorem State.msiSend_net (s : State) : s.msiSend.net = s.net := by
  obtain ⟨x, y, h⟩ := s.msiSend_eq
  simp [h]

@[simp] theorem State.msiSend_frm (s : State) : s.msiSend.frm = s.frm := by
  obtain ⟨x, y, h⟩ := s.msiSend_eq
  simp [h]

@[simp] theorem State.msiSend_prf (s : State) : s.msiSend.prf = s.prf := by
  obtain ⟨x, y, h⟩ := s.msiSend_eq
  simp [h]

@[simp] theorem State.msiSend_arm (s : State) : s.msiSend.arm = s.arm := by
  obtain ⟨x, y, h⟩ := s.msiSend_eq
  simp [h]

@[simp] theorem State.msiSend_mod (s : State) : s.msiSend.mod = s.mod := by
  obtain ⟨x, y, h⟩ := s.msiSend_eq
  simp [h]

@[simp] theorem State.msiSend_lnk (s : State) : s.msiSend.lnk = s.lnk := by
  obtain ⟨x, y, h⟩ := s.msiSend_eq
  simp [h]

@[simp] theorem State.msiSend_nodes (s : State) : s.msiSend.nodes = s.nodes := by
  obtain ⟨x, y, h⟩ := s.msiSend_eq
  simp [h]

@[simp] theorem State.msiSend_mir (s : State) : s.msiSend.mir = s.mir := by
  obtain ⟨x, y, h⟩ := s.msiSend_eq
  simp [h]

@[simp] theorem State.msiSend_brg (s : State) : s.msiSend.brg = s.brg := by
  obtain ⟨x, y, h⟩ := s.msiSend_eq
  simp [h]

@[simp] theorem State.msiSend_saf (s : State) : s.msiSend.saf = s.saf := by
  obtain ⟨x, y, h⟩ := s.msiSend_eq
  simp [h]

@[simp] theorem State.msiSend_cst (s : State) : s.msiSend.cst = s.cst := by
  obtain ⟨x, y, h⟩ := s.msiSend_eq
  simp [h]

@[simp] theorem State.msiSend_flash (s : State) : s.msiSend.flash = s.flash := by
  obtain ⟨x, y, h⟩ := s.msiSend_eq
  simp [h]

@[simp] theorem State.msiSend_mqt (s : State) : s.msiSend.mqt = s.mqt := by
  obtain ⟨x, y, h⟩ := s.msiSend_eq
  simp [h]

@[simp] theorem State.msiSend_bst (s : State) : s.msiSend.bst = s.bst := by
  obtain ⟨x, y, h⟩ := s.msiSend_eq
  simp [h]

/-- A command that ends in `done s` answers a next state. -/
theorem done_eq (s : State) : done s = .next s.msiSend := rfl

/-! ## The gate (R28, R416) -/

/-- An access that reaches its address acts, and moves the pointers of the interconnect (R22). -/
theorem State.gate_reaches (s : State) (m : Master) (write : Bool) (a : Nat) (k : State → State) (h : s.reaches m write a = true) :
    s.gate m write a k = k ((s.granted m a).answer m 0) := by
  unfold State.reaches at h
  unfold State.gate
  cases ht : addrTarget a with
  | none => simp [ht] at h
  | some t =>
    simp only [ht, Bool.and_eq_true] at h
    have hb : ¬ (spFind s.sup.busBad m.val).isSome = true := by simpa using h.1.1.2
    cases hr : addrRegion a with
    | none => simp [h.1.1.1, hb, h.1.2]
    | some r => rw [hr] at h; simp [h.1.1.1, hb, h.1.2, h.2]

/-- An access that does not reach its address faults in its core (R364), meets an error of the interconnect (R447), or changes the answer and the
record of programming errors, and nothing else. -/
theorem State.gate_refuses (s : State) (m : Master) (write : Bool) (a : Nat) (k : State → State) (h : s.reaches m write a = false) :
    (s.leaves m write a = false ∧ s.gate m write a k = s.answerError m)
      ∨ (s.leaves m write a = true ∧ (spFind s.sup.busBad m.val).isSome = true ∧ s.gate m write a k = s.busFault m a)
      ∨ (s.leaves m write a = true ∧ (spFind s.sup.busBad m.val).isSome = false
          ∧ ∃ kind, s.gate m write a k = (s.answerError m).perr kind m a) := by
  unfold State.reaches at h
  unfold State.gate
  by_cases hl : s.leaves m write a = false
  · exact .inl ⟨hl, by simp [hl]⟩
  right
  rw [if_neg hl]
  have hl' : s.leaves m write a = true := by simpa using hl
  by_cases hb : (spFind s.sup.busBad m.val).isSome = true
  · exact .inl ⟨hl', hb, by rw [if_pos hb]⟩
  refine .inr ⟨hl', by simpa using hb, ?_⟩
  rw [if_neg hb]
  have hn : (spFind s.sup.busBad m.val).isNone = true := by simpa using hb
  cases ht : addrTarget a with
  | none => exact ⟨peUnmapped, rfl⟩
  | some t =>
    simp only [ht] at h
    by_cases hp : s.permits m write t = true
    · cases hr : addrRegion a with
      | none => simp [hl', hn, hp, hr] at h
      | some r =>
        have hr' : s.regionOn r = false := by simpa [hl', hn, hp, hr] using h
        exact ⟨peRegionOff, by simp [hp, hr']⟩
    · exact ⟨pePolicy, by simp [hp]⟩

end Sys2Proof.Machine
end

