-- ==== Sys2Proof/Laws/Frame.lean ====
section
/-! SUPPORT. How `onlyChanges` passes over the operations that change the state. -/

namespace Sys2Proof

open Machine

theorem onlyChanges_refl (fs : List Fld) (ps : List Part) (s : State) : onlyChanges fs ps s s :=
  ⟨fun _ _ => rfl, fun p _ => by cases p <;> first | rfl | exact fun _ => rfl | exact ⟨_, _, rfl⟩⟩

theorem onlyChanges_wr {fs : List Fld} {ps : List Part} {s t : State} (f : Fld) (v : Nat) (hf : f ∈ fs) (h : onlyChanges fs ps s t) :
    onlyChanges fs ps s (t.wr f v) := by
  refine ⟨fun g hg => ?_, fun p hp => ?_⟩
  · have : g.key ≠ f.key := fun e => hg (e ▸ List.mem_map_of_mem hf)
    rw [State.rd_wr_ne t v this, h.1 g hg]
  · have := h.2 p hp
    cases p <;> exact this

theorem onlyChanges_set1 {fs : List Fld} {ps : List Part} {s t : State} (f : Fld) (hf : f ∈ fs) (h : onlyChanges fs ps s t) :
    onlyChanges fs ps s (t.set1 f) := onlyChanges_wr f 1 hf h

theorem onlyChanges_set0 {fs : List Fld} {ps : List Part} {s t : State} (f : Fld) (hf : f ∈ fs) (h : onlyChanges fs ps s t) :
    onlyChanges fs ps s (t.set0 f) := onlyChanges_wr f 0 hf h

theorem onlyChanges_addSat {fs : List Fld} {ps : List Part} {s t : State} (f : Fld) (n : Nat) (hf : f ∈ fs) (h : onlyChanges fs ps s t) :
    onlyChanges fs ps s (t.addSat f n) := onlyChanges_wr f _ hf h

theorem onlyChanges_addWrap {fs : List Fld} {ps : List Part} {s t : State} (f : Fld) (n : Nat) (hf : f ∈ fs) (h : onlyChanges fs ps s t) :
    onlyChanges fs ps s (t.addWrap f n) := onlyChanges_wr f _ hf h

theorem onlyChanges_wrBit {fs : List Fld} {ps : List Part} {s t : State} (f : Fld) (i : Nat) (b : Bool) (hf : f ∈ fs)
    (h : onlyChanges fs ps s t) : onlyChanges fs ps s (t.wrBit f i b) := onlyChanges_wr f _ hf h

/-- A change of one part that is listed. -/
theorem onlyChanges_part {fs : List Fld} {ps : List Part} {s t u : State} (q : Part) (hq : q ∈ ps) (hr : u.regs = t.regs)
    (hp : ∀ p, p ≠ q → p.same t u) (h : onlyChanges fs ps s t) : onlyChanges fs ps s u := by
  refine ⟨fun g hg => ?_, fun p hpn => ?_⟩
  · rw [show u.rd g = t.rd g by simp [State.rd, hr], h.1 g hg]
  · have h1 := h.2 p hpn
    have h2 := hp p (fun e => hpn (e ▸ hq))
    cases p <;> simp only [Part.same] at h1 h2 ⊢ <;> first
      | exact h2.trans h1
      | (intro a; exact (h2 a).trans (h1 a))
      | (obtain ⟨x, z, h1⟩ := h1; obtain ⟨y, w, h2⟩ := h2; exact ⟨y, w, by rw [h2, h1]⟩)

theorem onlyChanges_setPending {fs : List Fld} {ps : List Part} {s t : State} (x) (hq : Part.pending ∈ ps) (h : onlyChanges fs ps s t) :
    onlyChanges fs ps s (t.setPending x) := onlyChanges_part (t := t) .pending hq rfl (by intro p hp; cases p <;> first | exact absurd rfl hp | rfl | exact fun _ => rfl | exact ⟨_, _, rfl⟩) h

theorem onlyChanges_setLatch {fs : List Fld} {ps : List Part} {s t : State} (x) (hq : Part.latch ∈ ps) (h : onlyChanges fs ps s t) :
    onlyChanges fs ps s (t.setLatch x) := onlyChanges_part (t := t) .latch hq rfl (by intro p hp; cases p <;> first | exact absurd rfl hp | rfl | exact fun _ => rfl | exact ⟨_, _, rfl⟩) h

theorem onlyChanges_setClk {fs : List Fld} {ps : List Part} {s t : State} (x) (hq : Part.clk ∈ ps) (h : onlyChanges fs ps s t) :
    onlyChanges fs ps s (t.setClk x) := onlyChanges_part (t := t) .clk hq rfl (by intro p hp; cases p <;> first | exact absurd rfl hp | rfl | exact fun _ => rfl | exact ⟨_, _, rfl⟩) h

theorem onlyChanges_setFree {fs : List Fld} {ps : List Part} {s t : State} (x) (hq : Part.free ∈ ps) (h : onlyChanges fs ps s t) :
    onlyChanges fs ps s (t.setFree x) := onlyChanges_part (t := t) .free hq rfl (by intro p hp; cases p <;> first | exact absurd rfl hp | rfl | exact fun _ => rfl | exact ⟨_, _, rfl⟩) h

theorem onlyChanges_setBus {fs : List Fld} {ps : List Part} {s t : State} (x) (hq : Part.bus ∈ ps) (h : onlyChanges fs ps s t) :
    onlyChanges fs ps s (t.setBus x) := onlyChanges_part (t := t) .bus hq rfl (by intro p hp; cases p <;> first | exact absurd rfl hp | rfl | exact fun _ => rfl | exact ⟨_, _, rfl⟩) h

theorem onlyChanges_setSent {fs : List Fld} {ps : List Part} {s t : State} (x) (hq : Part.sent ∈ ps) (h : onlyChanges fs ps s t) :
    onlyChanges fs ps s (t.setSent x) := onlyChanges_part (t := t) .sent hq rfl (by intro p hp; cases p <;> first | exact absurd rfl hp | rfl | exact fun _ => rfl | exact ⟨_, _, rfl⟩) h

theorem onlyChanges_setMem {fs : List Fld} {ps : List Part} {s t : State} (x) (hq : Part.mem ∈ ps) (h : onlyChanges fs ps s t) :
    onlyChanges fs ps s (t.setMem x) := onlyChanges_part (t := t) .mem hq rfl (by intro p hp; cases p <;> first | exact absurd rfl hp | rfl | exact fun _ => rfl | exact ⟨_, _, rfl⟩) h

theorem onlyChanges_setUpset {fs : List Fld} {ps : List Part} {s t : State} (x) (hq : Part.upset ∈ ps) (h : onlyChanges fs ps s t) :
    onlyChanges fs ps s (t.setUpset x) := onlyChanges_part (t := t) .upset hq rfl (by intro p hp; cases p <;> first | exact absurd rfl hp | rfl | exact fun _ => rfl | exact ⟨_, _, rfl⟩) h

theorem onlyChanges_setSup {fs : List Fld} {ps : List Part} {s t : State} (x) (hq : Part.sup ∈ ps) (h : onlyChanges fs ps s t) :
    onlyChanges fs ps s (t.setSup x) := onlyChanges_part (t := t) .sup hq rfl (by intro p hp; cases p <;> first | exact absurd rfl hp | rfl | exact fun _ => rfl | exact ⟨_, _, rfl⟩) h

theorem onlyChanges_setFuses {fs : List Fld} {ps : List Part} {s t : State} (x) (hq : Part.fuses ∈ ps) (h : onlyChanges fs ps s t) :
    onlyChanges fs ps s (t.setFuses x) := onlyChanges_part (t := t) .fuses hq rfl (by intro p hp; cases p <;> first | exact absurd rfl hp | rfl | exact fun _ => rfl | exact ⟨_, _, rfl⟩) h

theorem onlyChanges_setPolicy {fs : List Fld} {ps : List Part} {s t : State} (x) (hq : Part.policy ∈ ps) (h : onlyChanges fs ps s t) :
    onlyChanges fs ps s (t.setPolicy x) := onlyChanges_part (t := t) .policy hq rfl (by intro p hp; cases p <;> first | exact absurd rfl hp | rfl | exact fun _ => rfl | exact ⟨_, _, rfl⟩) h

theorem onlyChanges_setCtl {fs : List Fld} {ps : List Part} {s t : State} (x) (hq : Part.ctl ∈ ps) (h : onlyChanges fs ps s t) :
    onlyChanges fs ps s (t.setCtl x) := onlyChanges_part (t := t) .ctl hq rfl (by intro p hp; cases p <;> first | exact absurd rfl hp | rfl | exact fun _ => rfl | exact ⟨_, _, rfl⟩) h

theorem onlyChanges_setAcq {fs : List Fld} {ps : List Part} {s t : State} (x) (hq : Part.acq ∈ ps) (h : onlyChanges fs ps s t) :
    onlyChanges fs ps s (t.setAcq x) := onlyChanges_part (t := t) .acq hq rfl (by intro p hp; cases p <;> first | exact absurd rfl hp | rfl | exact fun _ => rfl | exact ⟨_, _, rfl⟩) h

theorem onlyChanges_setAng {fs : List Fld} {ps : List Part} {s t : State} (x) (hq : Part.ang ∈ ps) (h : onlyChanges fs ps s t) :
    onlyChanges fs ps s (t.setAng x) := onlyChanges_part (t := t) .ang hq rfl (by intro p hp; cases p <;> first | exact absurd rfl hp | rfl | exact fun _ => rfl | exact ⟨_, _, rfl⟩) h

theorem onlyChanges_setResRec {fs : List Fld} {ps : List Part} {s t : State} (x) (hq : Part.resRec ∈ ps) (h : onlyChanges fs ps s t) :
    onlyChanges fs ps s (t.setResRec x) := onlyChanges_part (t := t) .resRec hq rfl (by intro p hp; cases p <;> first | exact absurd rfl hp | rfl | exact fun _ => rfl | exact ⟨_, _, rfl⟩) h

theorem onlyChanges_setPins {fs : List Fld} {ps : List Part} {s t : State} (x) (hq : Part.pins ∈ ps) (h : onlyChanges fs ps s t) :
    onlyChanges fs ps s (t.setPins x) := onlyChanges_part (t := t) .pins hq rfl (by intro p hp; cases p <;> first | exact absurd rfl hp | rfl | exact fun _ => rfl | exact ⟨_, _, rfl⟩) h

theorem onlyChanges_setNet {fs : List Fld} {ps : List Part} {s t : State} (x) (hq : Part.net ∈ ps) (h : onlyChanges fs ps s t) :
    onlyChanges fs ps s (t.setNet x) := onlyChanges_part (t := t) .net hq rfl (by intro p hp; cases p <;> first | exact absurd rfl hp | rfl | exact fun _ => rfl | exact ⟨_, _, rfl⟩) h

theorem onlyChanges_setFrm {fs : List Fld} {ps : List Part} {s t : State} (x) (hq : Part.frm ∈ ps) (h : onlyChanges fs ps s t) :
    onlyChanges fs ps s (t.setFrm x) := onlyChanges_part (t := t) .frm hq rfl (by intro p hp; cases p <;> first | exact absurd rfl hp | rfl | exact fun _ => rfl | exact ⟨_, _, rfl⟩) h

theorem onlyChanges_setPrf {fs : List Fld} {ps : List Part} {s t : State} (x) (hq : Part.prf ∈ ps) (h : onlyChanges fs ps s t) :
    onlyChanges fs ps s (t.setPrf x) := onlyChanges_part (t := t) .prf hq rfl (by intro p hp; cases p <;> first | exact absurd rfl hp | rfl | exact fun _ => rfl | exact ⟨_, _, rfl⟩) h

theorem onlyChanges_setArm {fs : List Fld} {ps : List Part} {s t : State} (x) (hq : Part.arm ∈ ps) (h : onlyChanges fs ps s t) :
    onlyChanges fs ps s (t.setArm x) := onlyChanges_part (t := t) .arm hq rfl (by intro p hp; cases p <;> first | exact absurd rfl hp | rfl | exact fun _ => rfl | exact ⟨_, _, rfl⟩) h

theorem onlyChanges_setMod {fs : List Fld} {ps : List Part} {s t : State} (x) (hq : Part.mod ∈ ps) (h : onlyChanges fs ps s t) :
    onlyChanges fs ps s (t.setMod x) := onlyChanges_part (t := t) .mod hq rfl (by intro p hp; cases p <;> first | exact absurd rfl hp | rfl | exact fun _ => rfl | exact ⟨_, _, rfl⟩) h

theorem onlyChanges_setLnk {fs : List Fld} {ps : List Part} {s t : State} (x) (hq : Part.lnk ∈ ps) (h : onlyChanges fs ps s t) :
    onlyChanges fs ps s (t.setLnk x) := onlyChanges_part (t := t) .lnk hq rfl (by intro p hp; cases p <;> first | exact absurd rfl hp | rfl | exact fun _ => rfl | exact ⟨_, _, rfl⟩) h

theorem onlyChanges_setNodes {fs : List Fld} {ps : List Part} {s t : State} (x) (hq : Part.nodes ∈ ps) (h : onlyChanges fs ps s t) :
    onlyChanges fs ps s (t.setNodes x) := onlyChanges_part (t := t) .nodes hq rfl (by intro p hp; cases p <;> first | exact absurd rfl hp | rfl | exact fun _ => rfl | exact ⟨_, _, rfl⟩) h

theorem onlyChanges_setMir {fs : List Fld} {ps : List Part} {s t : State} (x) (hq : Part.mir ∈ ps) (h : onlyChanges fs ps s t) :
    onlyChanges fs ps s (t.setMir x) := onlyChanges_part (t := t) .mir hq rfl (by intro p hp; cases p <;> first | exact absurd rfl hp | rfl | exact fun _ => rfl | exact ⟨_, _, rfl⟩) h

theorem onlyChanges_setBrg {fs : List Fld} {ps : List Part} {s t : State} (x) (hq : Part.brg ∈ ps) (h : onlyChanges fs ps s t) :
    onlyChanges fs ps s (t.setBrg x) := onlyChanges_part (t := t) .brg hq rfl (by intro p hp; cases p <;> first | exact absurd rfl hp | rfl | exact fun _ => rfl | exact ⟨_, _, rfl⟩) h

theorem onlyChanges_setSaf {fs : List Fld} {ps : List Part} {s t : State} (x) (hq : Part.saf ∈ ps) (h : onlyChanges fs ps s t) :
    onlyChanges fs ps s (t.setSaf x) := onlyChanges_part (t := t) .saf hq rfl (by intro p hp; cases p <;> first | exact absurd rfl hp | rfl | exact fun _ => rfl | exact ⟨_, _, rfl⟩) h

theorem onlyChanges_setCst {fs : List Fld} {ps : List Part} {s t : State} (x) (hq : Part.cst ∈ ps) (h : onlyChanges fs ps s t) :
    onlyChanges fs ps s (t.setCst x) := onlyChanges_part (t := t) .cst hq rfl (by intro p hp; cases p <;> first | exact absurd rfl hp | rfl | exact fun _ => rfl | exact ⟨_, _, rfl⟩) h

theorem onlyChanges_setFlash {fs : List Fld} {ps : List Part} {s t : State} (x) (hq : Part.flash ∈ ps) (h : onlyChanges fs ps s t) :
    onlyChanges fs ps s (t.setFlash x) := onlyChanges_part (t := t) .flash hq rfl (by intro p hp; cases p <;> first | exact absurd rfl hp | rfl | exact fun _ => rfl | exact ⟨_, _, rfl⟩) h

theorem onlyChanges_setMqt {fs : List Fld} {ps : List Part} {s t : State} (x) (hq : Part.mqt ∈ ps) (h : onlyChanges fs ps s t) :
    onlyChanges fs ps s (t.setMqt x) := onlyChanges_part (t := t) .mqt hq rfl (by intro p hp; cases p <;> first | exact absurd rfl hp | rfl | exact fun _ => rfl | exact ⟨_, _, rfl⟩) h

theorem onlyChanges_setBst {fs : List Fld} {ps : List Part} {s t : State} (x) (hq : Part.bst ∈ ps) (h : onlyChanges fs ps s t) :
    onlyChanges fs ps s (t.setBst x) := onlyChanges_part (t := t) .bst hq rfl (by intro p hp; cases p <;> first | exact absurd rfl hp | rfl | exact fun _ => rfl | exact ⟨_, _, rfl⟩) h

/-- The messages that end a command leave every register and every part alone. -/
theorem msiSend_same (s : State) : s.msiSend.sent.filter notMsi = s.sent.filter notMsi := by
  unfold State.msiSend
  split
  · have : ∀ (l : List Nat) (t : State), (l.foldl State.msiVector t).sent.filter notMsi = t.sent.filter notMsi := by
      intro l
      induction l with
      | nil => intro t; rfl
      | cons v l ih =>
        intro t
        rw [List.foldl_cons, ih]
        unfold State.msiVector
        split
        · simp [State.emit, notMsi]
        · rfl
    exact this _ s
  · rfl

theorem onlyChanges_msiSend {fs : List Fld} {ps : List Part} {s t : State} (h : onlyChanges fs ps s t) : onlyChanges fs ps s t.msiSend := by
  refine ⟨fun g hg => by rw [State.rd_msiSend, h.1 g hg], fun p hp => ?_⟩
  have h1 := h.2 p hp
  cases p <;> simp only [Part.same] at h1 ⊢ <;> first
    | (simpa using h1)
    | (rw [msiSend_same]; exact h1)
    | (intro a; have := h1 a; simpa [State.memByte] using this)
    | (obtain ⟨x, y, e⟩ := t.msiSend_eq; obtain ⟨z, w, h1⟩ := h1; rw [e]; exact ⟨x, w, by simp [h1]⟩)

end Sys2Proof
end

