-- ==== Sys2Proof/Laws/Store.lean ====
section
/-! SUPPORT. What leaves the byte memories, the flash and the queue of commands as they are: one lemma for each operation that cannot
write a byte memory. A command's lemma speaks of the state after it. -/

namespace Sys2Proof.Machine

/-- The parts of the state that hold the byte memories, the flash and the queue of commands. -/
def State.store (s : State) : List Host.Cell × List Host.Cell × List Instr := (s.mem, s.flash, s.pending)

theorem store_ite (c : Prop) [Decidable c] (a b : State) : (if c then a else b).store = if c then a.store else b.store := by
  split <;> rfl

@[simp] theorem foldl_store {α : Type} (l : List α) (f : State → α → State) (s : State) (h : ∀ s x, (f s x).store = s.store) :
    (l.foldl f s).store = s.store := by
  induction l generalizing s with
  | nil => rfl
  | cons x r ih => simp [ih, h]
/-- The same for a state that runs along with something else. -/
theorem foldl_fst_store {α β : Type} (l : List α) (f : State × β → α → State × β) (x : State × β)
    (h : ∀ x a, (f x a).1.store = x.1.store) : (l.foldl f x).1.store = x.1.store := by
  induction l generalizing x with
  | nil => rfl
  | cons a r ih => rw [List.foldl_cons, ih, h]

theorem after_ite (s : State) (c : Prop) [Decidable c] (f g : State → Result) :
    s.after (if c then f else g) = if c then s.after f else s.after g := by
  split <;> rfl

@[simp] theorem State.setRegs_store (s : State) (x : Sparse Nat) : (State.setRegs s x).store = s.store := id rfl

@[simp] theorem State.setLatch_store (s : State) (x : Sparse Nat) : (State.setLatch s x).store = s.store := id rfl

@[simp] theorem State.setClk_store (s : State) (x : Clk) : (State.setClk s x).store = s.store := id rfl

@[simp] theorem State.setFree_store (s : State) (x : Nat) : (State.setFree s x).store = s.store := id rfl

@[simp] theorem State.setBus_store (s : State) (x : List BusAnswer) : (State.setBus s x).store = s.store := id rfl

@[simp] theorem State.setSent_store (s : State) (x : List Sent) : (State.setSent s x).store = s.store := id rfl

@[simp] theorem State.setUpset_store (s : State) (x : Sparse Nat) : (State.setUpset s x).store = s.store := id rfl

@[simp] theorem State.setSup_store (s : State) (x : Sup) : (State.setSup s x).store = s.store := id rfl

@[simp] theorem State.setFuses_store (s : State) (x : Fuses) : (State.setFuses s x).store = s.store := id rfl

@[simp] theorem State.setPolicy_store (s : State) (x : Policy) : (State.setPolicy s x).store = s.store := id rfl

@[simp] theorem State.setCtl_store (s : State) (x : Ctl) : (State.setCtl s x).store = s.store := id rfl

@[simp] theorem State.setAcq_store (s : State) (x : Acq) : (State.setAcq s x).store = s.store := id rfl

@[simp] theorem State.setAng_store (s : State) (x : Ang) : (State.setAng s x).store = s.store := id rfl

@[simp] theorem State.setResRec_store (s : State) (x : List Nat) : (State.setResRec s x).store = s.store := id rfl

@[simp] theorem State.setPins_store (s : State) (x : Pins) : (State.setPins s x).store = s.store := id rfl

@[simp] theorem State.setNet_store (s : State) (x : Net) : (State.setNet s x).store = s.store := id rfl

@[simp] theorem State.setFrm_store (s : State) (x : Frm) : (State.setFrm s x).store = s.store := id rfl

@[simp] theorem State.setPrf_store (s : State) (x : Sparse PrfCh) : (State.setPrf s x).store = s.store := id rfl

@[simp] theorem State.setArm_store (s : State) (x : Arm) : (State.setArm s x).store = s.store := id rfl

@[simp] theorem State.setMod_store (s : State) (x : Mod) : (State.setMod s x).store = s.store := id rfl

@[simp] theorem State.setLnk_store (s : State) (x : Lnk) : (State.setLnk s x).store = s.store := id rfl

@[simp] theorem State.setNodes_store (s : State) (x : Sparse Node) : (State.setNodes s x).store = s.store := id rfl

@[simp] theorem State.setMir_store (s : State) (x : Mir) : (State.setMir s x).store = s.store := id rfl

@[simp] theorem State.setBrg_store (s : State) (x : Brg) : (State.setBrg s x).store = s.store := id rfl

@[simp] theorem State.setSaf_store (s : State) (x : Saf) : (State.setSaf s x).store = s.store := id rfl

@[simp] theorem State.setCst_store (s : State) (x : Cst) : (State.setCst s x).store = s.store := id rfl

@[simp] theorem State.setMqt_store (s : State) (x : Mqt) : (State.setMqt s x).store = s.store := id rfl

@[simp] theorem State.setBst_store (s : State) (x : Bst) : (State.setBst s x).store = s.store := id rfl

@[simp] theorem State.wr_store (s : State) (f : Fld) (v : Nat) : (State.wr s f v).store = s.store := by
  simp only [State.wr, State.setRegs_store]

@[simp] theorem State.set1_store (s : State) (f : Fld) : (State.set1 s f).store = s.store := by
  simp only [State.set1, State.wr_store]

@[simp] theorem State.set0_store (s : State) (f : Fld) : (State.set0 s f).store = s.store := by
  simp only [State.set0, State.wr_store]

@[simp] theorem State.addSat_store (s : State) (f : Fld) (n : Nat) : (State.addSat s f n).store = s.store := by
  simp only [State.addSat, State.wr_store]

@[simp] theorem State.addWrap_store (s : State) (f : Fld) (n : Nat) : (State.addWrap s f n).store = s.store := by
  simp only [State.addWrap, State.wr_store]

@[simp] theorem State.wrBit_store (s : State) (f : Fld) (i : Nat) (b : Bool) : (State.wrBit s f i b).store = s.store := by
  simp only [State.wrBit, State.wr_store]

@[simp] theorem State.blockStart_store (s : State) (b : Block) : (State.blockStart s b).store = s.store := by
  simp only [State.blockStart, State.wr_store]

@[simp] theorem State.elapse_store (s : State) (n : Nat) : (State.elapse s n).store = s.store := by
  simp only [State.elapse, State.addWrap_store, State.set1_store, State.setClk_store, State.setSup_store, store_ite, ite_self
    ]

@[simp] theorem State.elapseTo_store (s : State) (t : Nat) : (State.elapseTo s t).store = s.store := by
  simp only [State.elapseTo, State.elapse_store, store_ite, ite_self]

@[simp] theorem State.elapseToDevice_store (s : State) (d : Nat) : (State.elapseToDevice s d).store = s.store := by
  simp only [State.elapseToDevice, State.elapse_store, store_ite, ite_self]

@[simp] theorem State.startTimer_store (s : State) (k : Nat) : (State.startTimer s k).store = s.store := by
  simp only [State.startTimer, State.setClk_store]

@[simp] theorem State.stopTimer_store (s : State) (k : Nat) : (State.stopTimer s k).store = s.store := by
  simp only [State.stopTimer, State.setClk_store]

@[simp] theorem State.expire_store (s : State) (k d : Nat) : (State.expire s k d).store = s.store := by
  rw [State.expire]
  split <;> simp only [State.elapseTo_store, State.stopTimer_store]

@[simp] theorem State.drawnBy_store (s : State) (n : Nat) : (State.drawnBy s n).store = s.store := by
  simp only [State.drawnBy, State.setFree_store]

@[simp] theorem State.drawn_store (s : State) : (State.drawn s).store = s.store := by
  simp only [State.drawn, State.setFree_store]

@[simp] theorem State.report_store (s : State) (f : Fld) (exact : Int) (k : Nat) : (State.report s f exact k).store = s.store := by
  simp only [State.report, State.drawn_store, State.wr_store]

@[simp] theorem State.reportNear_store (s : State) (f : Fld) (k : Nat) (b : Int) (a : Int) : (State.reportNear s f k b a).store = s.store := by
  unfold State.reportNear
  (repeat' split) <;> first | rfl | simp only [State.drawn_store, State.wr_store, foldl_store, store_ite, ite_self, implies_true]

@[simp] theorem State.answer_store (s : State) (m d : Nat) : (State.answer s m d).store = s.store := by
  simp only [State.answer, State.setBus_store]

@[simp] theorem State.coreTrap_store (s : State) (m : Nat) : (State.coreTrap s m).store = s.store := by
  unfold State.coreTrap
  (repeat' split) <;> first | rfl | simp only [State.setSup_store, foldl_store, store_ite, ite_self, implies_true]

@[simp] theorem State.answerError_store (s : State) (m : Nat) : (State.answerError s m).store = s.store := by
  unfold State.answerError
  (repeat' split) <;> first | rfl | simp only [State.coreTrap_store, State.setBus_store]

@[simp] theorem State.svUnbound_store (s : State) : (State.svUnbound s).store = s.store := by
  simp only [State.svUnbound, State.set0_store, foldl_store, store_ite, ite_self, implies_true]

@[simp] theorem State.perr_store (s : State) (kind m addr : Nat) : (State.perr s kind m addr).store = s.store := by
  simp only [State.perr, State.addSat_store, State.set1_store, State.wr_store, store_ite, ite_self]

@[simp] theorem State.errorRec_store (s : State) (cls region block kind detail addr : Nat) :
    (State.errorRec s cls region block kind detail addr).store = s.store := by
  simp only [State.errorRec, State.addSat_store, State.set1_store, State.wr_store, store_ite, ite_self]

@[simp] theorem State.errorA_store (s : State) : (State.errorA s).store = s.store := by
  simp only [State.errorA, State.addSat_store]

@[simp] theorem State.errorB_store (s : State) (b : Block) (kind detail addr : Nat) : (State.errorB s b kind detail addr).store = s.store := by
  simp only [State.errorB, State.errorRec_store]

@[simp] theorem State.granted_store (s : State) (m a : Nat) : (State.granted s m a).store = s.store := by
  unfold State.granted
  (repeat' split) <;> first | rfl | simp only [State.setSup_store, foldl_store, store_ite, ite_self, implies_true]

@[simp] theorem State.busFault_store (s : State) (m a : Nat) : (State.busFault s m a).store = s.store := by
  unfold State.busFault
  (repeat' split) <;> first | rfl | simp only [State.answerError_store, State.errorRec_store, State.setSup_store]

@[simp] theorem State.gate_store (s : State) (m : Master) (write : Bool) (a : Nat) (k : State → State)
    (hk : ∀ s, (k s).store = s.store) : (State.gate s m write a k).store = s.store := by
  rw [State.gate]
  repeat' split
  all_goals simp only [State.busFault_store, State.perr_store, State.answerError_store, State.answer_store, State.granted_store, hk]

@[simp] theorem State.emit_store (s : State) (x : Sent) : (State.emit s x).store = s.store := by
  simp only [State.emit, State.setSent_store]

@[simp] theorem State.msiVector_store (s : State) (v : Nat) : (State.msiVector s v).store = s.store := by
  simp only [State.msiVector, State.emit_store, State.setSup_store, store_ite, ite_self]

@[simp] theorem State.msiSend_store (s : State) : (State.msiSend s).store = s.store := by
  simp only [State.msiSend, State.msiVector_store, foldl_store, store_ite, ite_self, implies_true]

theorem State.afterDone_store (s : State) (f : State → Result) (t : State) (h : f s = done t) : (s.after f).store = t.store := by
  unfold State.after
  rw [h]
  exact State.msiSend_store t

theorem done_store (s : State) : (s.after done).store = s.store := by
  exact State.msiSend_store s

@[simp] theorem State.putUpset_store (s : State) (array w x : Nat) : (State.putUpset s array w x).store = s.store := by
  simp only [State.putUpset, State.setUpset_store]

@[simp] theorem State.countCorr_store (s : State) (array : Nat) : (State.countCorr s array).store = s.store := by
  unfold State.countCorr
  (repeat' split) <;> first | rfl | simp only [State.addSat_store, State.errorA_store, State.setBst_store, foldl_store, store_ite, ite_self,
    implies_true]

@[simp] theorem State.countUncorr_store (s : State) (array addr : Nat) (b : Block) : (State.countUncorr s array addr b).store = s.store := by
  simp only [State.countUncorr, State.addSat_store, State.errorB_store]

@[simp] theorem State.readWords_store (s : State) (a : Nat) (p : Nat → Bool) : (State.readWords s a p).1.store = s.store := by
  unfold State.readWords
  rw [foldl_fst_store]
  intro x w
  split <;> simp only [State.countCorr_store, State.putUpset_store, State.addSat_store]

@[simp] theorem State.cleanWords_store (s : State) (a : Nat) (p : Nat → Bool) : (State.cleanWords s a p).store = s.store := by
  unfold State.cleanWords
  (repeat' split) <;> first | rfl | simp only [State.setUpset_store, foldl_store, store_ite, ite_self, implies_true]

@[simp] theorem State.wordSeen_store (array : Nat) (s : State) (a : Nat) : (State.wordSeen array s a).store = s.store := by
  unfold State.wordSeen
  dsimp only
  rw [store_ite]
  generalize eccRead 32 _ = r
  cases r <;> simp only [State.countCorr_store, State.putUpset_store, State.countUncorr_store, ite_self]

@[simp] theorem State.regsOfRegion_store (s : State) (r : Region) : (State.regsOfRegion s r).store = s.store := by
  simp only [State.regsOfRegion, State.setRegs_store]

@[simp] theorem State.regsOfChip_store (s : State) : (State.regsOfChip s).store = s.store := by
  simp only [State.regsOfChip, State.setRegs_store]

@[simp] theorem State.loadWord_store (s : State) (a w : Nat) : (State.loadWord s a w).store = s.store := by
  simp only [State.loadWord, State.wr_store, foldl_store, implies_true]

@[simp] theorem State.elapseToQ_store (s : State) (q : Nat) : (State.elapseToQ s q).store = s.store := by
  simp only [State.elapseToQ, State.elapseTo_store]

@[simp] theorem State.putPair_store (s : State) (p : Nat) (x : LbrPair) : (State.putPair s p x).store = s.store := by
  simp only [State.putPair, State.setBrg_store]

@[simp] theorem State.pairOff_store (s : State) (p : Nat) : (State.pairOff s p).store = s.store := by
  simp only [State.pairOff, State.putPair_store, store_ite, ite_self]

@[simp] theorem State.pairsOff_store (s : State) : (State.pairsOff s).store = s.store := by
  simp only [State.pairsOff, State.pairOff_store, foldl_store, implies_true]

@[simp] theorem State.haltPairs_store (s : State) : (State.haltPairs s).store = s.store := by
  simp only [State.haltPairs, State.set1_store, State.setBrg_store]

@[simp] theorem State.resumePairs_store (s : State) : (State.resumePairs s).store = s.store := by
  rw [State.resumePairs]
  split <;> simp only [State.set0_store, State.setBrg_store]

@[simp] theorem State.castEvent_store (s : State) (k : Nat) : (State.castEvent s k).store = s.store := by
  simp only [State.castEvent, State.setCst_store]

@[simp] theorem State.seqTrigger_store (s : State) (n : Nat) : (State.seqTrigger s n).store = s.store := by
  simp only [State.seqTrigger, State.addSat_store, State.set1_store, State.setAcq_store, State.startTimer_store, store_ite, ite_self
    ]

@[simp] theorem State.seqTriggers_store (s : State) (src : Nat) (sel : Option Nat) : (State.seqTriggers s src sel).store = s.store := by
  simp only [State.seqTriggers, State.seqTrigger_store, foldl_store, store_ite, ite_self, implies_true]

@[simp] theorem State.calMayStart_store (s : State) : (State.calMayStart s).store = s.store := by
  simp only [State.calMayStart, State.setAcq_store, State.startTimer_store, store_ite, ite_self]

@[simp] theorem State.seqEnd_store (s : State) (n : Nat) : (State.seqEnd s n).store = s.store := by
  simp only [State.seqEnd, State.calMayStart_store, State.set0_store, State.setAcq_store, State.stopTimer_store]

@[simp] theorem State.rotNext_store (s : State) : (State.rotNext s).store = s.store := by
  unfold State.rotNext
  (repeat' split) <;> first | rfl | simp only [State.setAcq_store, State.wr_store, foldl_store, store_ite, ite_self, implies_true]

@[simp] theorem State.rotTake_store (s : State) (n : Nat) : (State.rotTake s n).store = s.store := by
  unfold State.rotTake
  (repeat' split) <;> first | rfl | simp only [State.rotNext_store, State.setAcq_store, State.wr_store, store_ite, ite_self]

@[simp] theorem State.noteFirst_store (s : State) : (State.noteFirst s).store = s.store := by
  unfold State.noteFirst
  refine foldl_store _ _ _ fun s n => ?_
  split <;> simp only [State.wr_store, store_ite, ite_self]

@[simp] theorem State.seqStart_store (s : State) (n : Nat) : (State.seqStart s n).store = s.store := by
  unfold State.seqStart
  split
  · rfl
  · dsimp only
    split <;> simp only [State.addWrap_store, State.elapseTo_store, State.noteFirst_store, State.rotTake_store, State.seqEnd_store,
      State.setAcq_store]

@[simp] theorem State.putChannel_store (s : State) (c : Nat) (valid sat stale nosync : Bool) (seq data time : Nat) :
    (State.putChannel s c valid sat stale nosync seq data time).store = s.store := by
  simp only [State.putChannel, State.cleanWords_store, State.wr_store]

@[simp] theorem State.putQueue_store (s : State) (q : Nat) (l : List Nat) : (State.putQueue s q l).store = s.store := by
  simp only [State.putQueue, State.setAcq_store, State.wr_store]

@[simp] theorem State.pushQueue_store (s : State) (q x : Nat) : (State.pushQueue s q x).store = s.store := by
  unfold State.pushQueue
  (repeat' split) <;> first | rfl | simp only [State.addSat_store, State.cleanWords_store, State.putQueue_store, State.set1_store, foldl_store,
    store_ite, ite_self, implies_true]

@[simp] theorem State.deliver_store (s : State) (c : Nat) (sat : Bool) (seq data time : Nat) :
    (State.deliver s c sat seq data time).store = s.store := by
  simp only [State.deliver, State.pushQueue_store, State.putChannel_store, store_ite, ite_self]

@[simp] theorem State.resRecord_store (s : State) (b : Block) (detail : Nat) : (State.resRecord s b detail).store = s.store := by
  simp only [State.resRecord, State.setResRec_store]

@[simp] theorem State.fenceAcq_store (s : State) (kind detail : Nat) : (State.fenceAcq s kind detail).store = s.store := by
  simp only [State.fenceAcq, State.errorB_store, State.resRecord_store, State.seqEnd_store, State.set0_store, State.wr_store,
    foldl_store, implies_true]

@[simp] theorem State.acqEcc_store (s : State) (kind : Nat) : (State.acqEcc s kind).store = s.store := by
  unfold State.acqEcc
  (repeat' split) <;> first | rfl | simp only [State.errorB_store, State.fenceAcq_store]

@[simp] theorem State.entryResult_store (s : State) (n e : Nat) (raw incoming : List Int) (resOk : Bool) :
    (State.entryResult s n e raw incoming resOk).store = s.store := by
  unfold State.entryResult
  dsimp only
  rw [store_ite]
  split
  · rfl
  · generalize hx : State.noteFirst _ = x
    have h : x.store = s.store := by rw [← hx]; simp only [State.noteFirst_store, State.setAcq_store, State.elapseTo_store]
    cases x.acq.incoming <;> dsimp only <;>
      simp only [State.fenceAcq_store, State.deliver_store, State.seqEnd_store, State.setAcq_store, store_ite, ite_self, h]

@[simp] theorem State.putCal_store (s : State) (p w : Nat) : (State.putCal s p w).store = s.store := by
  simp only [State.putCal, State.wr_store]

@[simp] theorem State.calStart_store (s : State) (m : Master) : (State.calStart s m).store = s.store := by
  simp only [State.calStart, State.calMayStart_store, State.gate_store, State.perr_store, State.set1_store, State.setAcq_store,
    store_ite, ite_self, implies_true]

@[simp] theorem State.calFailed_store (s : State) (p : Nat) : (State.calFailed s p).store = s.store := by
  simp only [State.calFailed, State.set1_store, State.setAcq_store, State.wr_store, store_ite, ite_self]

@[simp] theorem State.calComplete_store (s : State) (factors : List Word) : (State.calComplete s factors).store = s.store := by
  simp only [State.calComplete, State.calFailed_store, State.expire_store, State.putCal_store, State.set0_store, State.setAcq_store, foldl_store,
    store_ite,
    ite_self, implies_true]

@[simp] theorem State.rotSlotStart_store (s : State) : (State.rotSlotStart s).store = s.store := by
  unfold State.rotSlotStart
  (repeat' split) <;> first | rfl | simp only [State.expire_store, State.rotNext_store, State.setAcq_store, State.startTimer_store, State.wr_store,
    store_ite, ite_self]

@[simp] theorem State.rotCalComplete_store (s : State) (w : Nat) : (State.rotCalComplete s w).store = s.store := by
  simp only [State.rotCalComplete, State.calFailed_store, State.expire_store, State.putCal_store, State.setAcq_store, State.wr_store,
    store_ite, ite_self]

@[simp] theorem State.rotDecide_store (s : State) : (State.rotDecide s).store = s.store := by
  unfold State.rotDecide
  (repeat' split) <;> first | rfl | simp only [State.rotNext_store, State.set1_store, State.setAcq_store, State.wrBit_store, foldl_store,
    store_ite, ite_self, implies_true]

@[simp] theorem State.itestStart_store (s : State) : (State.itestStart s).store = s.store := by
  rw [State.itestStart]
  split <;> simp only [State.setAcq_store, State.startTimer_store, store_ite, ite_self]

@[simp] theorem State.itestFrame_store (s : State) : (State.itestFrame s).store = s.store := by
  unfold State.itestFrame
  (repeat' split) <;> first | rfl | simp only [State.setAcq_store, foldl_store, store_ite, ite_self, implies_true]

@[simp] theorem State.itestResult_store (s : State) (raw : Int) : (State.itestResult s raw).store = s.store := by
  rw [State.itestResult]
  split <;> simp only [State.expire_store, State.set0_store, State.setAcq_store, State.wrBit_store, store_ite, ite_self]

@[simp] theorem State.queueRead_store (s : State) (m : Master) (q : Nat) : (State.queueRead s m q).store = s.store := by
  unfold State.queueRead
  refine State.gate_store _ _ _ _ _ fun s => ?_
  split
  · simp only [State.answer_store]
  · dsimp only
    split <;> simp only [State.answer_store, State.drawn_store, State.acqEcc_store, State.setAcq_store, State.putQueue_store,
      State.readWords_store]

@[simp] theorem State.svStale_store (s : State) (st : Nat) : (State.svStale s st).store = s.store := by
  simp only [State.svStale, State.expire_store, State.set0_store, State.set1_store, foldl_store, store_ite, ite_self, implies_true]

@[simp] theorem execSeqGo_store (m : Master) (n : Fin 4) (s : State) : (s.after (execSeqGo m n)).store = s.store := by
  simp only [State.after, execSeqGo, done, State.msiSend_store, State.gate_store, State.seqTrigger_store, store_ite, ite_self,
    implies_true]

@[simp] theorem execSeqDelayExpiry_store (n : Fin 4) (s : State) : (s.after (execSeqDelayExpiry n)).store = s.store := by
  simp only [State.after, execSeqDelayExpiry, done, State.msiSend_store, State.seqStart_store]

@[simp] theorem execAdcEntryResult_store (n : Fin 4) (e : Fin 32) (raw incoming : List Int) (resOk : Bool) (s : State) :
    (s.after (execAdcEntryResult n e raw incoming resOk)).store = s.store := by
  simp only [State.after, execAdcEntryResult, done, State.msiSend_store, State.entryResult_store]

@[simp] theorem execQueueRead_store (m : Master) (q : Fin 4) (s : State) : (s.after (execQueueRead m q)).store = s.store := by
  simp only [State.after, execQueueRead, done, State.msiSend_store, State.queueRead_store]

@[simp] theorem execCalStart_store (m : Master) (s : State) : (s.after (execCalStart m)).store = s.store := by
  simp only [State.after, execCalStart, done, State.msiSend_store, State.calStart_store]

@[simp] theorem execCalComplete_store (factors : List Word) (s : State) : (s.after (execCalComplete factors)).store = s.store := by
  simp only [State.after, execCalComplete, done, State.msiSend_store, State.calComplete_store]

@[simp] theorem execRotSlotStart_store (s : State) : (s.after (execRotSlotStart)).store = s.store := by
  simp only [State.after, execRotSlotStart, done, State.msiSend_store, State.rotSlotStart_store]

@[simp] theorem execRotCalComplete_store (factors : Word) (s : State) : (s.after (execRotCalComplete factors)).store = s.store := by
  simp only [State.after, execRotCalComplete, done, State.msiSend_store, State.rotCalComplete_store]

@[simp] theorem execRotHandoverDecision_store (s : State) : (s.after (execRotHandoverDecision)).store = s.store := by
  simp only [State.after, execRotHandoverDecision, done, State.msiSend_store, State.rotDecide_store]

@[simp] theorem execBurnoutTestStart_store (s : State) : (s.after (execBurnoutTestStart)).store = s.store := by
  simp only [State.after, execBurnoutTestStart, done, State.msiSend_store, State.itestStart_store]

@[simp] theorem execBurnoutTestResult_store (raw : Int) (s : State) : (s.after (execBurnoutTestResult raw)).store = s.store := by
  simp only [State.after, execBurnoutTestResult, done, State.msiSend_store, State.itestResult_store]

@[simp] theorem execSvStreamStale_store (st : Fin 8) (s : State) : (s.after (execSvStreamStale st)).store = s.store := by
  simp only [State.after, execSvStreamStale, done, State.msiSend_store, State.svStale_store]

@[simp] theorem State.angHold_store (s : State) : (State.angHold s).store = s.store := by
  unfold State.angHold
  (repeat' split) <;> first | rfl | simp only [State.setAng_store, foldl_store, store_ite, ite_self, implies_true]

@[simp] theorem State.acpDisarm_store (s : State) (n : Nat) : (State.acpDisarm s n).store = s.store := by
  simp only [State.acpDisarm, State.set0_store, State.set1_store, store_ite, ite_self]

@[simp] theorem State.angShow_store (s : State) : (State.angShow s).store = s.store := by
  unfold State.angShow
  (repeat' split) <;> first | rfl | simp only [State.acpDisarm_store, State.angHold_store, State.report_store, State.set1_store, State.wr_store,
    foldl_store, store_ite, ite_self, implies_true]

@[simp] theorem State.acpOff_store (s : State) : (State.acpOff s).store = s.store := by
  simp only [State.acpOff, State.setAng_store, State.stopTimer_store, foldl_store, implies_true]

@[simp] theorem State.sectorError_store (s : State) : (State.sectorError s).store = s.store := by
  simp only [State.sectorError, State.addSat_store, State.set1_store, State.setAng_store]

@[simp] theorem State.countStep_store (s : State) (code : Nat) (d : Int) : (State.countStep s code d).store = s.store := by
  simp only [State.countStep, State.set0_store, State.set1_store, State.setAng_store, State.startTimer_store, store_ite, ite_self
    ]

@[simp] theorem State.zcEdge_store (s : State) (code : Nat) : (State.zcEdge s code).store = s.store := by
  rw [State.zcEdge]
  (repeat' split) <;> first | rfl | simp only [State.angShow_store, State.countStep_store, State.sectorError_store,
    State.setAng_store, State.wr_store, store_ite, ite_self]

@[simp] theorem State.sectorDead_store (s : State) : (State.sectorDead s).store = s.store := by
  simp only [State.sectorDead, State.angShow_store, State.expire_store, State.set1_store, State.setAng_store, store_ite, ite_self
    ]

@[simp] theorem State.idxArm_store (s : State) (m : Master) : (State.idxArm s m).store = s.store := by
  simp only [State.idxArm, State.gate_store, State.set0_store, State.setAng_store, implies_true]

@[simp] theorem State.pllTakeOver_store (s : State) : (State.pllTakeOver s).store = s.store := by
  simp only [State.pllTakeOver, State.setAng_store]

@[simp] theorem State.pllStep_store (s : State) (v : Int × Int) (mag : Int) : (State.pllStep s v mag).store = s.store := by
  simp only [State.pllStep, State.set1_store, State.setAng_store, store_ite, ite_self]

@[simp] theorem State.angStop_store (s : State) : (State.angStop s).store = s.store := by
  simp only [State.angStop, State.acpOff_store, State.angShow_store, State.setAng_store, State.stopTimer_store, State.wr_store
    ]

@[simp] theorem State.angStart_store (s : State) : (State.angStart s).store = s.store := by
  unfold State.angStart
  (repeat' split) <;> first | rfl | simp only [State.angShow_store, State.set0_store, State.set1_store, State.setAng_store, State.startTimer_store,
    State.wr_store]

@[simp] theorem State.angFrameEnd_store (s : State) : (State.angFrameEnd s).store = s.store := by
  simp only [State.angFrameEnd, State.angStop_store, store_ite, ite_self]

@[simp] theorem State.acpCross_store (old s : State) : (State.acpCross old s).store = s.store := by
  unfold State.acpCross
  (repeat' split) <;> first | rfl | simp only [State.setAng_store, foldl_store, store_ite, ite_self, implies_true]

@[simp] theorem State.angFrame_store (s : State) : (State.angFrame s).store = s.store := by
  unfold State.angFrame
  repeat' (first | rfl | split | simp only [State.acpCross_store, State.angShow_store, State.drawn_store, State.pllStep_store,
    State.pllTakeOver_store, State.setAng_store, State.startTimer_store, State.stopTimer_store, State.wr_store])

@[simp] theorem State.pllPersist_store (s : State) : (State.pllPersist s).store = s.store := by
  rw [State.pllPersist]
  (repeat' split) <;> first | rfl | simp only [State.angShow_store, State.elapseTo_store, State.pllTakeOver_store, store_ite,
    ite_self]

@[simp] theorem State.sawSelect_store (s : State) (k : Nat) : (State.sawSelect s k).store = s.store := by
  simp only [State.sawSelect, State.setAng_store, store_ite, ite_self]

@[simp] theorem State.sawAccept_store (s : State) (w t : Nat) : (State.sawAccept s w t).store = s.store := by
  unfold State.sawAccept
  (repeat' split) <;> first | rfl | simp only [State.angShow_store, State.setAng_store, State.startTimer_store, State.wr_store]

@[simp] theorem State.sawWord_store (s : State) (w : Nat) : (State.sawWord s w).store = s.store := by
  unfold State.sawWord
  (repeat' split) <;> first | rfl | simp only [State.elapseTo_store, State.sawAccept_store, State.setAng_store]

@[simp] theorem State.sawTimeout_store (s : State) : (State.sawTimeout s).store = s.store := by
  simp only [State.sawTimeout, State.angShow_store, State.expire_store, State.set1_store, State.setAng_store, store_ite, ite_self
    ]

@[simp] theorem State.acpArm_store (s : State) (n : Nat) : (State.acpArm s n).store = s.store := by
  simp only [State.acpArm, State.acpDisarm_store, State.set1_store, store_ite, ite_self]

@[simp] theorem State.acpArmWrite_store (s : State) (n : Nat) : (State.acpArmWrite s n).store = s.store := by
  unfold State.acpArmWrite
  (repeat' split) <;> first | rfl | simp only [State.acpArm_store]

@[simp] theorem State.acpLatch_store (s : State) : (State.acpLatch s).store = s.store := by
  unfold State.acpLatch
  (repeat' split) <;> first | rfl | simp only [State.acpArm_store, State.setAng_store, foldl_store, implies_true]

@[simp] theorem State.acpTargets_store (s : State) : (State.acpTargets s).store = s.store := by
  unfold State.acpTargets
  (repeat' split) <;> first | rfl | simp only [State.acpCross_store, State.acpLatch_store, State.setAng_store, foldl_store, implies_true]

@[simp] theorem State.acpFire_store (s : State) (n : Nat) : (State.acpFire s n).store = s.store := by
  simp only [State.acpFire, State.elapse_store, State.set0_store, State.set1_store, State.setAng_store, State.startTimer_store,
    State.wr_store, store_ite, ite_self]

@[simp] theorem State.acpEnd_store (s : State) (n : Nat) : (State.acpEnd s n).store = s.store := by
  unfold State.acpEnd
  (repeat' split) <;> first | rfl | simp only [State.expire_store, State.setAng_store]

@[simp] theorem State.acpWritten_store (s : State) (n : Nat) : (State.acpWritten s n).store = s.store := by
  unfold State.acpWritten
  (repeat' split) <;> first | rfl | simp only [State.setAng_store, foldl_store, store_ite, ite_self, implies_true]

@[simp] theorem State.fenceAng_store (s : State) (ch : Nat) : (State.fenceAng s ch).store = s.store := by
  unfold State.fenceAng
  (repeat' split) <;> first | rfl | simp only [State.acpOff_store, State.angShow_store, State.errorB_store, State.resRecord_store,
    State.set0_store, State.setAng_store, State.wr_store, foldl_store, implies_true]

@[simp] theorem execAngFrameUpdate_store (s : State) : (s.after execAngFrameUpdate).store = s.store := by
  simp only [State.after, execAngFrameUpdate, done, State.msiSend_store]
  split <;> simp only [State.angFrame_store, State.fenceAng_store, store_ite, ite_self]

@[simp] theorem execPllPersistenceExpiry_store (s : State) : (s.after (execPllPersistenceExpiry)).store = s.store := by
  simp only [State.after, execPllPersistenceExpiry, done, State.msiSend_store, State.pllPersist_store]

@[simp] theorem execZcEdge_store (code : Fin 8) (s : State) : (s.after (execZcEdge code)).store = s.store := by
  simp only [State.after, execZcEdge, done, State.msiSend_store, State.zcEdge_store]

@[simp] theorem execSectorDeadTimeout_store (s : State) : (s.after (execSectorDeadTimeout)).store = s.store := by
  simp only [State.after, execSectorDeadTimeout, done, State.msiSend_store, State.sectorDead_store]

@[simp] theorem execIdxarm_store (m : Master) (s : State) : (s.after (execIdxarm m)).store = s.store := by
  simp only [State.after, execIdxarm, done, State.msiSend_store, State.idxArm_store]

@[simp] theorem execAngEnableChange_store (m : Master) (en : Bool) (s : State) : (s.after (execAngEnableChange m en)).store = s.store := by
  simp only [State.after, execAngEnableChange, done, State.msiSend_store, State.angStart_store, State.gate_store, State.perr_store,
    State.set0_store, store_ite, ite_self, implies_true]

@[simp] theorem execSawWordReceived_store (w : BitVec 48) (s : State) : (s.after (execSawWordReceived w)).store = s.store := by
  simp only [State.after, execSawWordReceived, done, State.msiSend_store, State.sawWord_store]

@[simp] theorem execSawTimeout_store (s : State) : (s.after (execSawTimeout)).store = s.store := by
  simp only [State.after, execSawTimeout, done, State.msiSend_store, State.sawTimeout_store]

@[simp] theorem execAcpPulseEnd_store (n : Fin 4) (s : State) : (s.after (execAcpPulseEnd n)).store = s.store := by
  simp only [State.after, execAcpPulseEnd, done, State.msiSend_store, State.acpEnd_store]

@[simp] theorem execAcpArm_store (m : Master) (n : Fin 4) (s : State) : (s.after (execAcpArm m n)).store = s.store := by
  simp only [State.after, execAcpArm, done, State.msiSend_store, State.acpArmWrite_store, State.acpWritten_store, State.gate_store, implies_true]

@[simp] theorem State.mbxPost_store (s : State) (c k : Nat) : (State.mbxPost s c k).store = s.store := by
  simp only [State.mbxPost, State.set1_store, State.wr_store, store_ite, ite_self]

@[simp] theorem State.mbxGate_store (s : State) (m : Master) (c a : Nat) (k : State → State) (hk : ∀ s, (k s).store = s.store) :
    (State.mbxGate s m c a k).store = s.store := by
  rw [State.mbxGate]
  refine State.gate_store _ _ _ _ _ fun s => ?_
  split <;> simp only [State.perr_store, State.answerError_store, hk]

@[simp] theorem State.mbxDataWrite_store (s : State) (m : Master) (c i v : Nat) : (State.mbxDataWrite s m c i v).store = s.store := by
  simp only [State.mbxDataWrite, State.mbxGate_store, State.mbxPost_store, State.perr_store, State.wr_store, store_ite, ite_self,
    implies_true]

@[simp] theorem State.mbxGo_store (s : State) (m : Master) (c : Nat) : (State.mbxGo s m c).store = s.store := by
  simp only [State.mbxGo, State.addWrap_store, State.mbxGate_store, State.mbxPost_store, State.perr_store, State.set1_store,
    State.startTimer_store, store_ite, ite_self, implies_true]

@[simp] theorem State.mbxAck_store (s : State) (m : Master) (c : Nat) : (State.mbxAck s m c).store = s.store := by
  simp only [State.mbxAck, State.addSat_store, State.mbxGate_store, State.mbxPost_store, State.perr_store, State.set0_store,
    State.stopTimer_store, store_ite, ite_self, implies_true]

@[simp] theorem State.mbxExpiry_store (s : State) (c : Nat) : (State.mbxExpiry s c).store = s.store := by
  simp only [State.mbxExpiry, State.expire_store, State.mbxPost_store, State.set0_store, store_ite, ite_self]

@[simp] theorem State.mbxNoteClr_store (s : State) (m : Master) (c : Nat) : (State.mbxNoteClr s m c).store = s.store := by
  simp only [State.mbxNoteClr, State.mbxGate_store, State.perr_store, State.set0_store, store_ite, ite_self, implies_true]

@[simp] theorem State.mbxMasterReset_store (m : Nat) (s : State) (c : Nat) : (State.mbxMasterReset m s c).store = s.store := by
  simp only [State.mbxMasterReset, State.mbxPost_store, State.set0_store, State.stopTimer_store, State.wr_store, foldl_store,
    store_ite, ite_self, implies_true]

@[simp] theorem State.putSem_store (s : State) (n o : Nat) : (State.putSem s n o).store = s.store := by
  simp only [State.putSem, State.setSup_store]

@[simp] theorem State.semMasterReset_store (s : State) (m : Nat) : (State.semMasterReset s m).store = s.store := by
  simp only [State.semMasterReset, State.set1_store, State.setSup_store, store_ite, ite_self]

@[simp] theorem State.semRead_store (n : Nat) (s : State) (m : Master) : (State.semRead n s m).store = s.store := by
  simp only [State.semRead, State.answer_store, State.gate_store, State.putSem_store, State.setBus_store,
    store_ite, ite_self, implies_true]

@[simp] theorem State.semReads_store (s : State) (ms : List Master) (n : Nat) : (State.semReads s ms n).store = s.store := by
  simp only [State.semReads, State.semRead_store, State.setBus_store, foldl_store, implies_true]

@[simp] theorem State.semWrite_store (s : State) (m : Master) (n : Nat) : (State.semWrite s m n).store = s.store := by
  simp only [State.semWrite, State.gate_store, State.perr_store, State.putSem_store, store_ite, ite_self, implies_true]

@[simp] theorem State.semForce_store (s : State) (m : Master) (n : Nat) : (State.semForce s m n).store = s.store := by
  simp only [State.semForce, State.gate_store, State.putSem_store, State.set1_store, implies_true]

@[simp] theorem State.coreStartAt_store (s : State) (c : Nat) : (State.coreStartAt s c).store = s.store := by
  simp only [State.coreStartAt, State.setSup_store, State.wr_store]

@[simp] theorem State.masterReset_store (s : State) (m : Nat) : (State.masterReset s m).store = s.store := by
  simp only [State.masterReset, State.mbxMasterReset_store, State.semMasterReset_store, foldl_store, implies_true]

@[simp] theorem State.coreReset_store (s : State) (c : Nat) : (State.coreReset s c).store = s.store := by
  simp only [State.coreReset, State.coreStartAt_store, State.masterReset_store, State.setSup_store, State.wr_store, store_ite,
    ite_self]

@[simp] theorem State.clearResv_store (s : State) (a : Nat) : (State.clearResv s a).store = s.store := by
  simp only [State.clearResv, State.setSup_store]

@[simp] theorem State.ringWrWrite_store (s : State) (m : Master) (n v : Nat) : (State.ringWrWrite s m n v).store = s.store := by
  simp only [State.ringWrWrite, State.gate_store, State.perr_store, State.set1_store, State.wr_store, store_ite, ite_self,
    implies_true]

@[simp] theorem State.ringRdWrite_store (s : State) (m : Master) (n v : Nat) : (State.ringRdWrite s m n v).store = s.store := by
  simp only [State.ringRdWrite, State.gate_store, State.perr_store, State.set1_store, State.wr_store, store_ite, ite_self,
    implies_true]

@[simp] theorem State.ringTake_store (s : State) (n k : Nat) : (State.ringTake s n k).store = s.store := by
  simp only [State.ringTake, State.wr_store]

@[simp] theorem State.dmaPost_store (s : State) (c : Nat) : (State.dmaPost s c).store = s.store := by
  simp only [State.dmaPost, State.set1_store, State.setSup_store, store_ite, ite_self]

@[simp] theorem State.dmaTrigger_store (s : State) (k : Nat) : (State.dmaTrigger s k).store = s.store := by
  simp only [State.dmaTrigger, State.dmaPost_store, foldl_store, store_ite, ite_self, implies_true]

@[simp] theorem execCoreRun_store (m : Master) (c : Fin 4) (s : State) : (s.after (execCoreRun m c)).store = s.store := by
  simp only [State.after, execCoreRun, done, State.msiSend_store, State.coreStartAt_store, State.gate_store, State.wrBit_store,
    store_ite, ite_self, implies_true]

@[simp] theorem execCoreReset_store (m : Master) (c : Fin 4) (s : State) : (s.after (execCoreReset m c)).store = s.store := by
  simp only [State.after, execCoreReset, done, State.msiSend_store, State.coreReset_store, State.gate_store, implies_true]

@[simp] theorem execWdtKick_store (m : Master) (c : Fin 4) (v : Word) (s : State) : (s.after (execWdtKick m c v)).store = s.store := by
  simp only [State.after, execWdtKick, done, State.msiSend_store, State.gate_store, State.perr_store, State.startTimer_store,
    store_ite, ite_self, implies_true]

@[simp] theorem State.wdtWritten_store (s : State) (c : Nat) (was : Bool) : (State.wdtWritten s c was).store = s.store := by
  unfold State.wdtWritten
  (repeat' split) <;> first | rfl | simp only [State.startTimer_store, State.stopTimer_store, foldl_store, store_ite, ite_self, implies_true]

@[simp] theorem execWdtTimeout_store (c : Fin 4) (s : State) : (s.after (execWdtTimeout c)).store = s.store := by
  simp only [State.after, execWdtTimeout, done, State.msiSend_store, State.coreReset_store, State.expire_store, State.set1_store,
    State.startTimer_store, store_ite, ite_self]

@[simp] theorem execMtimeCompareMatch_store (c : Fin 4) (s : State) : (s.after (execMtimeCompareMatch c)).store = s.store := by
  rw [State.afterDone_store s _ _ (execMtimeCompareMatch.eq_1 c s)]
  (repeat' split) <;> simp only [State.wr_store, State.elapse_store]

@[simp] theorem execRingWrWrite_store (m : Master) (n : Fin 64) (v : Word) (s : State) : (s.after (execRingWrWrite m n v)).store = s.store := by
  simp only [State.after, execRingWrWrite, done, State.msiSend_store, State.ringWrWrite_store]

@[simp] theorem execRingRdWrite_store (m : Master) (n : Fin 64) (v : Word) (s : State) : (s.after (execRingRdWrite m n v)).store = s.store := by
  simp only [State.after, execRingRdWrite, done, State.msiSend_store, State.ringRdWrite_store]

@[simp] theorem execMbxDataWrite_store (m : Master) (c : Fin 32) (i : Fin 16) (v : Word) (s : State) :
    (s.after (execMbxDataWrite m c i v)).store = s.store := by
  simp only [State.after, execMbxDataWrite, done, State.msiSend_store, State.mbxDataWrite_store]

@[simp] theorem execMbxGo_store (m : Master) (c : Fin 32) (s : State) : (s.after (execMbxGo m c)).store = s.store := by
  simp only [State.after, execMbxGo, done, State.msiSend_store, State.mbxGo_store]

@[simp] theorem execMbxAck_store (m : Master) (c : Fin 32) (s : State) : (s.after (execMbxAck m c)).store = s.store := by
  simp only [State.after, execMbxAck, done, State.msiSend_store, State.mbxAck_store]

@[simp] theorem execMbxExpiry_store (c : Fin 32) (s : State) : (s.after (execMbxExpiry c)).store = s.store := by
  simp only [State.after, execMbxExpiry, done, State.msiSend_store, State.mbxExpiry_store]

@[simp] theorem execMbxNoteClr_store (m : Master) (c : Fin 32) (s : State) : (s.after (execMbxNoteClr m c)).store = s.store := by
  simp only [State.after, execMbxNoteClr, done, State.msiSend_store, State.mbxNoteClr_store]

@[simp] theorem execSemLockRead_store (ms : List Master) (n : Fin 64) (s : State) : (s.after (execSemLockRead ms n)).store = s.store := by
  simp only [State.after, execSemLockRead, done, State.msiSend_store, State.semReads_store]

@[simp] theorem execSemLockWrite_store (m : Master) (n : Fin 64) (s : State) : (s.after (execSemLockWrite m n)).store = s.store := by
  simp only [State.after, execSemLockWrite, done, State.msiSend_store, State.semWrite_store]

@[simp] theorem execSemForce_store (m : Master) (n : Fin 64) (s : State) : (s.after (execSemForce m n)).store = s.store := by
  simp only [State.after, execSemForce, done, State.msiSend_store, State.semForce_store]

@[simp] theorem execIntHack_store (m : Master) (v : Byte) (s : State) : (s.after (execIntHack m v)).store = s.store := by
  simp only [State.after, execIntHack, done, State.msiSend_store, State.gate_store, State.setSup_store, implies_true]

@[simp] theorem execHostMsiEnable_store (granted : Fin 4) (s : State) : (s.after (execHostMsiEnable granted)).store = s.store := by
  simp only [State.after, execHostMsiEnable, done, State.msiSend_store, State.setSup_store, State.wr_store, store_ite, ite_self
    ]

@[simp] theorem State.commitInc_store (s : State) (m inc : Nat) : (State.commitInc s m inc).store = s.store := by
  simp only [State.commitInc, State.set1_store, State.setClk_store, store_ite, ite_self]

@[simp] theorem State.endHalt_store (s : State) : (State.endHalt s).store = s.store := by
  simp only [State.endHalt, State.resumePairs_store, State.set0_store, State.wr_store, foldl_store, store_ite, ite_self, implies_true]

@[simp] theorem State.setSub_store (s : State) (n : Nat) : (State.setSub s n).store = s.store := by
  simp only [State.setSub, State.wr_store, store_ite, ite_self]

@[simp] theorem State.claimStart_store (s : State) : (State.claimStart s).store = s.store := by
  simp only [State.claimStart, State.setSub_store, State.stopTimer_store]

@[simp] theorem State.frmMode_store (s : State) (old m : Nat) : (State.frmMode s old m).store = s.store := by
  simp only [State.frmMode, State.claimStart_store, State.set0_store, State.set1_store, State.setArm_store, State.setFrm_store,
    State.setSub_store, State.stopTimer_store, State.wr_store, foldl_store, store_ite, ite_self, implies_true]

@[simp] theorem State.setMode_store (s : State) (m : Nat) : (State.setMode s m).store = s.store := by
  unfold State.setMode
  (repeat' split) <;> first | rfl | simp only [State.addSat_store, State.castEvent_store, State.commitInc_store, State.endHalt_store,
    State.frmMode_store, State.pairsOff_store, State.set0_store, State.set1_store, State.setCtl_store, State.wr_store]

@[simp] theorem State.trip_store (s : State) (f : Fld) : (State.trip s f).store = s.store := by
  simp only [State.trip, State.set1_store, State.setCtl_store, State.wr_store, store_ite, ite_self]

@[simp] theorem execTripRequest_store (m : Master) (s : State) : (s.after (execTripRequest m)).store = s.store := by
  simp only [State.after, execTripRequest, done, State.msiSend_store, State.gate_store, State.trip_store, implies_true]

@[simp] theorem State.prfAdvance_store (s : State) (n : Nat) : (State.prfAdvance s n).store = s.store := by
  unfold State.prfAdvance
  (repeat' split) <;> first | rfl | simp only [State.reportNear_store, State.set0_store, State.setPrf_store, foldl_store, store_ite, ite_self,
    implies_true]

@[simp] theorem State.prfHold_store (s : State) : (State.prfHold s).store = s.store := by
  simp only [State.prfHold, State.setPrf_store, State.wr_store, foldl_store, implies_true]

@[simp] theorem State.prfFrame_store (s : State) : (State.prfFrame s).store = s.store := by
  simp only [State.prfFrame, State.prfAdvance_store, foldl_store, store_ite, ite_self, implies_true]

@[simp] theorem State.frmNote_store (s : State) (m : FrmIn) : (State.frmNote s m).store = s.store := by
  simp only [State.frmNote, State.set1_store, State.setFrm_store, store_ite, ite_self]

@[simp] theorem State.frmInit_store (s : State) : (State.frmInit s).store = s.store := by
  simp only [State.frmInit, State.setFrm_store, store_ite, ite_self]

@[simp] theorem State.seqPush_store (s : State) (v : Int × Int) : (State.seqPush s v).store = s.store := by
  simp only [State.seqPush, State.setFrm_store]

@[simp] theorem State.frmFilter_store (s : State) (m : FrmIn) : (State.frmFilter s m).store = s.store := by
  simp only [State.frmFilter, State.setFrm_store]

@[simp] theorem State.frmLimit_store (s : State) (m : FrmIn) : (State.frmLimit s m).store = s.store := by
  simp only [State.frmLimit, State.setFrm_store, store_ite, ite_self]

@[simp] theorem State.gridPush_store (s : State) (m : FrmIn) : (State.gridPush s m).store = s.store := by
  simp only [State.gridPush, State.setFrm_store]

@[simp] theorem State.frmReturn_store (s : State) : (State.frmReturn s).store = s.store := by
  simp only [State.frmReturn, State.setFrm_store]

@[simp] theorem State.frmOmegaStar_store (s : State) (m : FrmIn) (g : FrmGrid) : (State.frmOmegaStar s m g).store = s.store := by
  unfold State.frmOmegaStar
  (repeat' split) <;> first | rfl | simp only [State.frmReturn_store, State.setFrm_store, foldl_store, store_ite, ite_self, implies_true]

@[simp] theorem State.frmVStar_store (s : State) : (State.frmVStar s).store = s.store := by
  rw [State.frmVStar]
  split <;> simp only [State.setFrm_store]

@[simp] theorem State.frmSwing_store (s : State) : (State.frmSwing s).store = s.store := by
  simp only [State.frmSwing, State.set1_store, State.setFrm_store, store_ite, ite_self]

@[simp] theorem State.frmTurn_store (s : State) : (State.frmTurn s).store = s.store := by
  simp only [State.frmTurn, State.setFrm_store]

@[simp] theorem State.frmMag_store (s : State) (ride : Bool) : (State.frmMag s ride).store = s.store := by
  simp only [State.frmMag, State.set1_store, State.setFrm_store, store_ite, ite_self]

@[simp] theorem State.frmVector_store (s : State) (m : FrmIn) : (State.frmVector s m).store = s.store := by
  simp only [State.frmVector, State.setFrm_store, store_ite, ite_self]

@[simp] theorem State.frmWords_store (s : State) (ride : Bool) (th : Int) : (State.frmWords s ride th).store = s.store := by
  unfold State.frmWords
  (repeat' split) <;> first | rfl | simp only [State.drawnBy_store, State.setFrm_store, State.wr_store, foldl_store, store_ite, ite_self,
    implies_true]

@[simp] theorem State.frmHold_store (s : State) (ride : Bool) : (State.frmHold s ride).store = s.store := by
  unfold State.frmHold
  (repeat' split) <;> first | rfl | simp only [State.drawnBy_store, State.setFrm_store, foldl_store, store_ite, ite_self, implies_true]

@[simp] theorem State.frmObserve_store (s : State) (m : FrmIn) (g : FrmGrid) (th : Int) : (State.frmObserve s m g th).store = s.store := by
  simp only [State.frmObserve, State.drawn_store, State.reportNear_store, State.wr_store]

@[simp] theorem State.rtCount_store (s : State) (m : FrmIn) : (State.rtCount s m).store = s.store := by
  simp only [State.rtCount, State.setFrm_store]

@[simp] theorem State.closeDisarm_store (s : State) : (State.closeDisarm s).store = s.store := by
  simp only [State.closeDisarm, State.set0_store, store_ite, ite_self]

@[simp] theorem State.rtJudge_store (s : State) (m : FrmIn) : (State.rtJudge s m).store = s.store := by
  simp only [State.rtJudge, State.closeDisarm_store, State.setFrm_store, State.setMode_store, State.wr_store, store_ite, ite_self
    ]

@[simp] theorem State.timeWhile_store (s : State) (k : Nat) (b : Bool) : (State.timeWhile s k b).store = s.store := by
  simp only [State.timeWhile, State.startTimer_store, State.stopTimer_store, store_ite, ite_self]

@[simp] theorem State.frmTimers_store (s : State) (m : FrmIn) (g : FrmGrid) : (State.frmTimers s m g).store = s.store := by
  simp only [State.frmTimers, State.timeWhile_store]

@[simp] theorem State.collide_store (s : State) : (State.collide s).store = s.store := by
  simp only [State.collide, State.claimStart_store, State.set0_store, State.set1_store, State.setMode_store, State.setSub_store,
    State.wr_store, store_ite, ite_self]

@[simp] theorem State.bsJudge_store (s : State) (m : FrmIn) : (State.bsJudge s m).store = s.store := by
  rw [State.bsJudge]
  split <;> simp only [State.collide_store, State.set0_store, State.setFrm_store, State.setMode_store, State.setSub_store,
    State.timeWhile_store, store_ite, ite_self]

@[simp] theorem State.rsJudge_store (s : State) (m : FrmIn) (g : FrmGrid) : (State.rsJudge s m g).store = s.store := by
  rw [State.rsJudge]
  split <;> simp only [State.acpArm_store, State.closeDisarm_store, State.set1_store, State.setFrm_store, State.setSub_store,
    store_ite, ite_self]

@[simp] theorem State.fenceFrm_store (s : State) (kind detail : Nat) : (State.fenceFrm s kind detail).store = s.store := by
  simp only [State.fenceFrm, State.errorB_store, State.set0_store, State.setFrm_store, State.trip_store, State.wr_store]

@[simp] theorem State.fencePrf_store (s : State) (kind detail : Nat) : (State.fencePrf s kind detail).store = s.store := by
  simp only [State.fencePrf, State.errorB_store, State.prfHold_store, State.wr_store]

@[simp] theorem State.frmIdle_store (s : State) : (State.frmIdle s).store = s.store := by
  simp only [State.frmIdle, State.set0_store, State.setFrm_store]

@[simp] theorem State.frmCompute_store (s : State) : (State.frmCompute s).store = s.store := by
  unfold State.frmCompute
  (repeat' split) <;> first | rfl | simp only [State.bsJudge_store, State.drawnBy_store, State.frmFilter_store, State.frmHold_store,
    State.frmInit_store, State.frmLimit_store, State.frmMag_store, State.frmNote_store, State.frmObserve_store, State.frmOmegaStar_store,
    State.frmSwing_store, State.frmTimers_store, State.frmTurn_store, State.frmVStar_store, State.frmVector_store, State.frmWords_store,
    State.gridPush_store, State.rsJudge_store, State.rtCount_store, State.rtJudge_store, State.seqPush_store, State.set0_store, State.set1_store,
    store_ite, ite_self]

@[simp] theorem State.prfCheck_store (s : State) (bad : Option Nat) : (State.prfCheck s bad).store = s.store := by
  unfold State.prfCheck
  (repeat' split) <;> first | rfl | simp only [State.fencePrf_store, State.resRecord_store]

@[simp] theorem State.frmCheck_store (s : State) (bad : Option Nat) : (State.frmCheck s bad).store = s.store := by
  cases bad <;> simp only [State.frmCheck, State.fenceFrm_store, State.resRecord_store, store_ite, ite_self]

@[simp] theorem State.formingFrame_store (s : State) (frmBad prfBad : Option Nat) : (State.formingFrame s frmBad prfBad).store = s.store := by
  rw [State.formingFrame]
  (repeat' split) <;> first | rfl | simp only [State.frmCheck_store, State.frmCompute_store, State.frmIdle_store, State.frmReturn_store,
    State.prfCheck_store]

@[simp] theorem execFormingFrame_store (frmBad prfBad : Option (BitVec 8)) (s : State) :
    (s.after (execFormingFrame frmBad prfBad)).store = s.store := by
  simp only [State.after, execFormingFrame, done, State.msiSend_store, State.formingFrame_store]

@[simp] theorem execStage2End_store (s : State) : (s.after (execStage2End)).store = s.store := by
  simp only [State.after, execStage2End, done, State.msiSend_store, State.setFrm_store, store_ite, ite_self]

@[simp] theorem execIholdTrip_store (s : State) : (s.after (execIholdTrip)).store = s.store := by
  simp only [State.after, execIholdTrip, done, State.msiSend_store, State.set1_store, State.trip_store, store_ite, ite_self
    ]

@[simp] theorem execPrfLoad_store (m : Master) (n : Fin 8) (s : State) : (s.after (execPrfLoad m n)).store = s.store := by
  simp only [State.after, execPrfLoad, done, State.msiSend_store, State.gate_store, State.set1_store, implies_true]

@[simp] theorem State.flagSat_store (s : State) (t : Nat) : (State.flagSat s t).store = s.store := by
  simp only [State.flagSat, State.set1_store, State.wrBit_store]

@[simp] theorem State.putAcc_store (s : State) (t i p : Nat) : (State.putAcc s t i p).store = s.store := by
  simp only [State.putAcc, State.setArm_store]

@[simp] theorem State.flagDomain_store (s : State) : (State.flagDomain s).store = s.store := by
  simp only [State.flagDomain, State.set1_store]

@[simp] theorem State.armHalt_store (s : State) : (State.armHalt s).store = s.store := by
  simp only [State.armHalt, State.set0_store, State.setArm_store]

@[simp] theorem State.armRecord_store (s : State) (t pc kind : Nat) : (State.armRecord s t pc kind).store = s.store := by
  unfold State.armRecord
  (repeat' split) <;> first | rfl | simp only [State.set1_store, State.setArm_store, State.wr_store, store_ite, ite_self]

@[simp] theorem State.armStop_store (s : State) : (State.armStop s).store = s.store := by
  unfold State.armStop
  (repeat' split) <;> first | rfl | simp only [State.armHalt_store, State.set0_store, State.trip_store, State.wr_store]

@[simp] theorem State.armFault_store (s : State) (t pc kind addr : Nat) : (State.armFault s t pc kind addr).store = s.store := by
  simp only [State.armFault, State.armRecord_store, State.armStop_store, State.errorB_store, State.resRecord_store]

@[simp] theorem State.armCorrect_store (s : State) (array w : Nat) : (State.armCorrect s array w).store = s.store := by
  simp only [State.armCorrect, State.addSat_store, State.countCorr_store, State.putUpset_store]

@[simp] theorem State.armData_store (s : State) (t a : Nat) : (State.armData s t a).1.store = s.store := by
  rw [State.armData]
  simp only []
  generalize s.upsetOf 5 (1024 * t + a) = x
  generalize eccRead 20 _ = r
  generalize spGet s.arm.dat (1024 * t + a) 0 = d
  by_cases hx : x = 0
  · simp only [hx, if_true]
  · simp only [hx, if_false]
    cases r with
    | bad => exact State.addSat_store _ _ _
    | good v => simp only []; split <;> rfl
    | corrected v =>
      simp only []
      split
      · exact (State.setArm_store _ _).trans (State.armCorrect_store ..)
      · rfl

@[simp] theorem State.putData_store (s : State) (t a v : Nat) : (State.putData s t a v).store = s.store := by
  simp only [State.putData, State.putUpset_store, State.setArm_store]

@[simp] theorem State.armFetch_store (s : State) (t pc : Nat) : (State.armFetch s t pc).1.store = s.store := by
  rw [State.armFetch]
  split
  · rfl
  · split
    · exact State.addSat_store _ _ _
    · rfl
    · exact (State.setArm_store _ _).trans (State.armCorrect_store ..)

@[simp] theorem State.armTake_store (s : State) (q c : Nat) : (State.armTake s q c).store = s.store := by
  unfold State.armTake
  (repeat' split) <;> first | rfl | simp only [State.setArm_store, foldl_store, store_ite, ite_self, implies_true]

@[simp] theorem State.armOperand_store (s : State) (t f c hit : Nat) : (State.armOperand s t f c hit).1.store = s.store := by
  have hd := State.armData_store s t f
  rw [State.armOperand]
  dsimp only
  repeat' split
  all_goals first | rfl | exact State.armTake_store .. | (rename_i h; rw [h] at hd; exact hd)

@[simp] theorem State.armDest_store (s : State) (t f last v : Nat) : (State.armDest s t f last v).store = s.store := by
  simp only [State.armDest, State.putData_store, State.setArm_store, store_ite, ite_self]

@[simp] theorem State.breakerShown_store (s : State) (closed : Bool) : (State.breakerShown s closed).store = s.store := by
  simp only [State.breakerShown, State.setPins_store]

@[simp] theorem State.rtExit_store (s : State) : (State.rtExit s).store = s.store := by
  simp only [State.rtExit, State.expire_store, State.setMode_store, store_ite, ite_self]

@[simp] theorem State.toIsland_store (s : State) : (State.toIsland s).store = s.store := by
  simp only [State.toIsland, State.set1_store, State.setMode_store]

@[simp] theorem State.toGrid_store (s : State) : (State.toGrid s).store = s.store := by
  simp only [State.toGrid, State.set0_store, State.setMode_store]

@[simp] theorem State.islandDetect_store (s : State) (why : IslandCause) : (State.islandDetect s why).store = s.store := by
  unfold State.islandDetect
  split <;> simp only [State.breakerShown_store, State.expire_store, State.toIsland_store, store_ite, ite_self]

@[simp] theorem State.breakerClosed_store (s : State) : (State.breakerClosed s).store = s.store := by
  simp only [State.breakerClosed, State.breakerShown_store, State.toGrid_store, store_ite, ite_self]

@[simp] theorem State.closeTimeout_store (s : State) : (State.closeTimeout s).store = s.store := by
  simp only [State.closeTimeout, State.expire_store, State.set1_store, State.setFrm_store, State.setSub_store,
    State.startTimer_store, State.toGrid_store, store_ite, ite_self]

@[simp] theorem State.gridTimeout_store (s : State) : (State.gridTimeout s).store = s.store := by
  simp only [State.gridTimeout, State.expire_store, State.setMode_store, store_ite, ite_self]

@[simp] theorem State.blackStart_store (s : State) (sub : Nat) : (State.blackStart s sub).store = s.store := by
  simp only [State.blackStart, State.setFrm_store, State.setMode_store, State.setSub_store]

@[simp] theorem State.seqctrlWrite_store (s : State) (v : Nat) : (State.seqctrlWrite s v).store = s.store := by
  simp only [State.seqctrlWrite, State.claimStart_store, State.setSub_store, State.stopTimer_store, State.wr_store, store_ite,
    ite_self]

@[simp] theorem State.deadExpiry_store (s : State) : (State.deadExpiry s).store = s.store := by
  simp only [State.deadExpiry, State.expire_store, State.setSub_store, State.wr_store, store_ite, ite_self]

@[simp] theorem State.slotExpiry_store (s : State) : (State.slotExpiry s).store = s.store := by
  unfold State.slotExpiry
  (repeat' split) <;> first | rfl | simp only [State.elapseTo_store]

@[simp] theorem State.joinSettle_store (s : State) : (State.joinSettle s).store = s.store := by
  simp only [State.joinSettle, State.expire_store, State.setSub_store, store_ite, ite_self]

@[simp] theorem State.acpStarts_store (s : State) (n : Nat) : (State.acpStarts s n).store = s.store := by
  simp only [State.acpStarts, State.acpFire_store, State.setFrm_store, State.startTimer_store, store_ite, ite_self]

@[simp] theorem State.clampNote_store (s : State) (old : State) : (State.clampNote s old).store = s.store := by
  unfold State.clampNote
  (repeat' split) <;> first | rfl | simp only [State.set1_store, foldl_store, store_ite, ite_self, implies_true]

@[simp] theorem execRideThroughExit_store (s : State) : (s.after (execRideThroughExit)).store = s.store := by
  simp only [State.after, execRideThroughExit, done, State.msiSend_store, State.rtExit_store]

@[simp] theorem execIslandDetect_store (why : IslandCause) (s : State) : (s.after (execIslandDetect why)).store = s.store := by
  simp only [State.after, execIslandDetect, done, State.msiSend_store, State.islandDetect_store]

@[simp] theorem execBreakerClosedDetect_store (s : State) : (s.after (execBreakerClosedDetect)).store = s.store := by
  simp only [State.after, execBreakerClosedDetect, done, State.msiSend_store, State.breakerClosed_store]

@[simp] theorem execBsarmWrite_store (m : Master) (v : Word) (s : State) : (s.after (execBsarmWrite m v)).store = s.store := by
  simp only [State.after, execBsarmWrite, done, State.msiSend_store, State.gate_store, State.seqctrlWrite_store, implies_true]

@[simp] theorem execWaitDeadExpiry_store (s : State) : (s.after (execWaitDeadExpiry)).store = s.store := by
  simp only [State.after, execWaitDeadExpiry, done, State.msiSend_store, State.deadExpiry_store]

@[simp] theorem execClaimSlotExpiry_store (s : State) : (s.after (execClaimSlotExpiry)).store = s.store := by
  simp only [State.after, execClaimSlotExpiry, done, State.msiSend_store, State.slotExpiry_store]

@[simp] theorem execJoinSettle_store (s : State) : (s.after (execJoinSettle)).store = s.store := by
  simp only [State.after, execJoinSettle, done, State.msiSend_store, State.joinSettle_store]

@[simp] theorem execResyncCloseTimeout_store (s : State) : (s.after (execResyncCloseTimeout)).store = s.store := by
  simp only [State.after, execResyncCloseTimeout, done, State.msiSend_store, State.closeTimeout_store]

@[simp] theorem execResyncGridTimeout_store (s : State) : (s.after (execResyncGridTimeout)).store = s.store := by
  simp only [State.after, execResyncGridTimeout, done, State.msiSend_store, State.gridTimeout_store]

@[simp] theorem execAcpFire_store (n : Fin 4) (s : State) : (s.after (execAcpFire n)).store = s.store := by
  simp only [State.after, execAcpFire, done, State.msiSend_store, State.acpStarts_store]

@[simp] theorem State.seeEpoch_store (s : State) (e : Nat) : (State.seeEpoch s e).store = s.store := by
  simp only [State.seeEpoch, State.wr_store]

@[simp] theorem State.seePartner_store (s : State) : (State.seePartner s).store = s.store := by
  unfold State.seePartner
  (repeat' split) <;> first | rfl | simp only [State.set1_store, State.startTimer_store, foldl_store, store_ite, ite_self, implies_true]

@[simp] theorem State.partnerAge_store (s : State) : (State.partnerAge s).store = s.store := by
  simp only [State.partnerAge, State.set0_store, store_ite, ite_self]

@[simp] theorem State.toShadow_store (s : State) : (State.toShadow s).store = s.store := by
  simp only [State.toShadow, State.acpOff_store, State.set0_store, State.setMode_store, foldl_store, implies_true]

@[simp] theorem State.enterShadow_store (s : State) : (State.enterShadow s).store = s.store := by
  simp only [State.enterShadow, State.toShadow_store, store_ite, ite_self]

@[simp] theorem State.endHolding_store (s : State) : (State.endHolding s).store = s.store := by
  unfold State.endHolding
  (repeat' split) <;> first | rfl | simp only [State.setMir_store, State.wr_store, foldl_store, store_ite, ite_self, implies_true]

@[simp] theorem State.dropMallet_store (s : State) : (State.dropMallet s).store = s.store := by
  unfold State.dropMallet
  (repeat' split) <;> first | rfl | simp only [State.endHolding_store, State.enterShadow_store]

@[simp] theorem State.leaseCheck_store (s : State) (apply : Nat) : (State.leaseCheck s apply).store = s.store := by
  simp only [State.leaseCheck, State.dropMallet_store, State.set1_store, store_ite, ite_self]

@[simp] theorem State.higherEpoch_store (s : State) (e : Nat) : (State.higherEpoch s e).store = s.store := by
  simp only [State.higherEpoch, State.dropMallet_store, State.set1_store, store_ite, ite_self]

@[simp] theorem State.takeMallet_store (s : State) (e : Nat) : (State.takeMallet s e).store = s.store := by
  simp only [State.takeMallet, State.addSat_store, State.set1_store, State.setMir_store, State.wr_store, store_ite, ite_self
    ]

@[simp] theorem State.singleClaim_store (s : State) : (State.singleClaim s).store = s.store := by
  rw [State.singleClaim]
  (repeat' split) <;> first | rfl | simp only [State.takeMallet_store]

@[simp] theorem State.sendLease_store (s : State) (paths : List Nat) (kind le frame : Nat) :
    (State.sendLease s paths kind le frame).store = s.store := by
  simp only [State.sendLease, State.emit_store, State.setMir_store, State.startTimer_store, foldl_store,
    implies_true]

@[simp] theorem State.lockDue_store (s : State) (kind region : Nat) : (State.lockDue s kind region).store = s.store := by
  simp only [State.lockDue, State.sendLease_store, State.setCtl_store, store_ite, ite_self]

@[simp] theorem State.classDError_store (s : State) (region : Nat) : (State.classDError s region).store = s.store := by
  simp only [State.classDError, State.lockDue_store]

@[simp] theorem State.incfWrite_store (s : State) (m : Master) (v : Nat) : (State.incfWrite s m v).store = s.store := by
  simp only [State.incfWrite, State.commitInc_store, State.gate_store, State.wr_store, implies_true]

@[simp] theorem State.moveTime_store (s : State) (d : Nat) : (State.moveTime s d).store = s.store := by
  simp only [State.moveTime, State.addWrap_store, State.setClk_store, State.setNet_store, foldl_store, store_ite, ite_self,
    implies_true]

@[simp] theorem State.timeWrite_store (s : State) (m : Master) (v : Nat) : (State.timeWrite s m v).store = s.store := by
  simp only [State.timeWrite, State.gate_store, State.moveTime_store, State.perr_store, store_ite, ite_self, implies_true]

@[simp] theorem State.toWrap_store (s : State) : (State.toWrap s).store = s.store := by
  simp only [State.toWrap, State.elapse_store, store_ite, ite_self]

@[simp] theorem State.secondBoundary_store (s : State) : (State.secondBoundary s).store = s.store := by
  simp only [State.secondBoundary, State.elapseToDevice_store, State.setNet_store, State.startTimer_store, State.wr_store, store_ite,
    ite_self]

@[simp] theorem State.ppsEnd_store (s : State) : (State.ppsEnd s).store = s.store := by
  simp only [State.ppsEnd, State.expire_store, State.setNet_store, store_ite, ite_self]

@[simp] theorem State.ppsIn_store (s : State) (rising : Bool) : (State.ppsIn s rising).store = s.store := by
  simp only [State.ppsIn, State.set1_store, State.startTimer_store, State.wr_store, store_ite, ite_self]

@[simp] theorem State.triggerFire_store (s : State) (k : Nat) : (State.triggerFire s k).store = s.store := by
  simp only [State.triggerFire, State.addSat_store, State.addWrap_store, State.elapseToDevice_store, State.set0_store,
    State.set1_store, State.wr_store, store_ite, ite_self]

@[simp] theorem State.triggerStarts_store (s : State) (k : Nat) : (State.triggerStarts s k).store = s.store := by
  simp only [State.triggerStarts, State.dmaTrigger_store, State.sawSelect_store, State.seqTriggers_store]

@[simp] theorem State.putTxq_store (s : State) (l : List TxStamp) : (State.putTxq s l).store = s.store := by
  simp only [State.putTxq, State.setNet_store, State.wr_store]

@[simp] theorem State.pushStamp_store (s : State) (x : TxStamp) : (State.pushStamp s x).store = s.store := by
  simp only [State.pushStamp, State.addSat_store, State.putTxq_store, State.set1_store, store_ite, ite_self]

@[simp] theorem State.txqRead_store (s : State) (m : Master) : (State.txqRead s m).store = s.store := by
  rw [State.txqRead]
  refine State.gate_store _ _ _ _ _ fun s => ?_
  (repeat' split) <;> first | rfl | simp only [State.answer_store, State.gate_store, State.putTxq_store, State.wr_store, implies_true]

@[simp] theorem State.txStamp_store (s : State) (p : Nat) (f : TxFrame) : (State.txStamp s p f).1.store = s.store := by
  unfold State.txStamp
  (repeat' split) <;> first | rfl | simp only [State.drawnBy_store, State.elapseToDevice_store]

@[simp] theorem State.txDiscard_store (s : State) (p len : Nat) : (State.txDiscard s p len).store = s.store := by
  simp only [State.txDiscard, State.set1_store, State.addSat_store, State.ringTake_store]

@[simp] theorem State.netRead_store (s : State) (p : Nat → Bool) : (State.netRead s p).1.store = s.store := by
  simp [State.netRead]

@[simp] theorem State.takeRecord_store (s : State) (p : Nat) (launched : Option Nat) : (State.takeRecord s p launched).store = s.store := by
  unfold State.takeRecord
  (repeat' split) <;> simp [store_ite]

@[simp] theorem State.launchAfter_store (s : State) (p : Nat) : (State.launchAfter s p).store = s.store := by
  unfold State.launchAfter
  (repeat' split) <;> first | rfl | simp only [State.takeRecord_store]

@[simp] theorem State.frameSent_store (s : State) (p : Nat) : (State.frameSent s p).store = s.store := by
  rw [State.frameSent]
  split
  · rfl
  · dsimp only
    simp only [State.launchAfter_store, State.pushStamp_store, State.set1_store, State.addSat_store, State.emit_store, State.setNet_store,
      State.txStamp_store, store_ite, ite_self]

@[simp] theorem State.txRecord_store (s : State) (p : Nat) : (State.txRecord s p).store = s.store := by
  simp only [State.txRecord, State.txDiscard_store, State.addSat_store, State.ringTake_store, State.set1_store, State.setNet_store,
    State.takeRecord_store, store_ite, ite_self]

@[simp] theorem State.launchReached_store (s : State) (p : Nat) : (State.launchReached s p).store = s.store := by
  unfold State.launchReached
  (repeat' split) <;> first | rfl | simp only [State.elapseToDevice_store, State.takeRecord_store, store_ite, ite_self]

@[simp] theorem State.ethLink_store (s : State) (p : Nat) (up : Bool) : (State.ethLink s p up).store = s.store := by
  simp only [State.ethLink, State.set1_store, State.wr_store, store_ite, ite_self]

@[simp] theorem State.pcieLoss_store (s : State) : (State.pcieLoss s).store = s.store := by
  simp only [State.pcieLoss, State.masterReset_store, State.set0_store, State.set1_store, State.setNet_store, State.setSup_store, State.wr_store]

@[simp] theorem State.pcieUp_store (s : State) (speed width : Nat) : (State.pcieUp s speed width).store = s.store := by
  simp only [State.pcieUp, State.set1_store, State.wr_store, store_ite, ite_self]

@[simp] theorem execEthTxRecord_store (p : Fin 8) (s : State) : (s.after (execEthTxRecord p)).store = s.store := by
  simp only [State.after, execEthTxRecord, done, State.msiSend_store, State.txRecord_store]

@[simp] theorem execEthFrameSent_store (p : Fin 8) (s : State) : (s.after (execEthFrameSent p)).store = s.store := by
  simp only [State.after, execEthFrameSent, done, State.msiSend_store, State.frameSent_store]

@[simp] theorem execLaunchTimeReached_store (p : Fin 8) (s : State) : (s.after (execLaunchTimeReached p)).store = s.store := by
  simp only [State.after, execLaunchTimeReached, done, State.msiSend_store, State.launchReached_store]

@[simp] theorem execEthLinkChange_store (p : Fin 8) (up : Bool) (s : State) : (s.after (execEthLinkChange p up)).store = s.store := by
  simp only [State.after, execEthLinkChange, done, State.msiSend_store, State.ethLink_store]

@[simp] theorem execTxqheadRead_store (m : Master) (s : State) : (s.after (execTxqheadRead m)).store = s.store := by
  simp only [State.after, execTxqheadRead, done, State.msiSend_store, State.txqRead_store]

@[simp] theorem execPtpIncfWrite_store (m : Master) (v : Word) (s : State) : (s.after (execPtpIncfWrite m v)).store = s.store := by
  simp only [State.after, execPtpIncfWrite, done, State.msiSend_store, State.incfWrite_store]

@[simp] theorem execPtpTimeWrite_store (m : Master) (v : Word) (s : State) : (s.after (execPtpTimeWrite m v)).store = s.store := by
  simp only [State.after, execPtpTimeWrite, done, State.msiSend_store, State.timeWrite_store]

@[simp] theorem execDeviceTimeWrap_store (s : State) : (s.after (execDeviceTimeWrap)).store = s.store := by
  simp only [State.after, execDeviceTimeWrap, done, State.msiSend_store, State.toWrap_store]

@[simp] theorem execSecondBoundary_store (s : State) : (s.after (execSecondBoundary)).store = s.store := by
  simp only [State.after, execSecondBoundary, done, State.msiSend_store, State.secondBoundary_store]

@[simp] theorem execPpsPulseEnd_store (s : State) : (s.after (execPpsPulseEnd)).store = s.store := by
  simp only [State.after, execPpsPulseEnd, done, State.msiSend_store, State.ppsEnd_store]

@[simp] theorem execPpsInEdge_store (rising : Bool) (s : State) : (s.after (execPpsInEdge rising)).store = s.store := by
  simp only [State.after, execPpsInEdge, done, State.msiSend_store, State.ppsIn_store]

@[simp] theorem execPcieLinkLoss_store (s : State) : (s.after (execPcieLinkLoss)).store = s.store := by
  simp only [State.after, execPcieLinkLoss, done, State.msiSend_store, State.pcieLoss_store]

@[simp] theorem execPcieLinkUp_store (speed : Fin 3) (width : Fin 2) (s : State) : (s.after (execPcieLinkUp speed width)).store = s.store := by
  simp only [State.after, execPcieLinkUp, done, State.msiSend_store, State.pcieUp_store]

@[simp] theorem State.armSum_store (s : State) (t pc i : Nat) (x : Int) (v : Nat) (hit : ArmHit) :
    (State.armSum s t pc i x v hit).store = s.store := by
  simp only [State.armSum, State.armFault_store, State.flagSat_store, State.putAcc_store, store_ite, ite_self]

@[simp] theorem State.armRegen_store (s : State) (t pc f last w : Nat) (hit : ArmHit) : (State.armRegen s t pc f last w hit).store = s.store := by
  simp only [State.armRegen, State.armDest_store, State.armFault_store, store_ite, ite_self]

@[simp] theorem State.armCopies_store (s : State) (t pc f last w : Nat) (hit : ArmHit) : (State.armCopies s t pc f last w hit).store = s.store := by
  simp only [State.armCopies, State.armFault_store, State.armRegen_store, store_ite, ite_self]

@[simp] theorem State.armWrite_store (s : State) (t pc last : Nat) (i : ArmInstr) (hit : ArmHit) (o : ArmOut) :
    (State.armWrite s t pc last i hit o).store = s.store := by
  unfold State.armWrite
  (repeat' split) <;> first | rfl | simp only [State.armCopies_store, State.armDest_store, State.armFault_store, State.armRegen_store,
    State.armSum_store, State.drawn_store, State.flagDomain_store, State.putAcc_store, State.putData_store, store_ite, ite_self]

@[simp] theorem State.armThree_store (s : State) (t a : Nat) : (State.armThree s t a).1.store = s.store := by
  rw [State.armThree]
  have h1 := State.armData_store s t a
  split
  · rename_i heq; rw [heq] at h1; exact h1
  · rename_i s1 _ heq
    rw [heq] at h1
    have h2 := State.armData_store s1 t (a + 1)
    split
    · rename_i heq; rw [heq] at h2; exact h2.trans h1
    · rename_i s2 _ heq
      rw [heq] at h2
      have h3 := State.armData_store s2 t (a + 2)
      split
      · rename_i heq; rw [heq] at h3; exact h3.trans (h2.trans h1)
      · rename_i heq; rw [heq] at h3; exact h3.trans (h2.trans h1)

@[simp] theorem State.armDo_store (s : State) (t pc c : Nat) (i : ArmInstr) (hit : ArmHit) (op : ArmOp) :
    (State.armDo s t pc c i hit op).store = s.store := by
  rw [State.armDo]
  dsimp only
  have ha : (if usesA i.opc then s.armOperand t i.a c hit.a.toNat else (s, ArmRead.val 0)).1.store = s.store := by
    split <;> simp only [State.armOperand_store]
  split
  · rename_i h; rw [h] at ha; rw [State.armFault_store]; exact ha
  · rename_i s1 a h
    rw [h] at ha
    have hb : (if usesB i.opc then s1.armOperand t i.b c hit.b.toNat else (s1, ArmRead.val 0)).1.store = s1.store := by
      split <;> simp only [State.armOperand_store]
    split
    · rename_i h; rw [h] at hb; rw [State.armFault_store]; exact hb.trans ha
    · rename_i s2 b h
      rw [h] at hb
      split
      · rw [State.armFault_store]; exact hb.trans ha
      · have hw : (if i.opc = 20 then s2.armThree t i.a else (s2, Except.ok (0, 0))).1.store = s2.store := by
          split <;> simp only [State.armThree_store]
        split
        · rename_i h; rw [h] at hw; rw [State.armFault_store]; exact hw.trans (hb.trans ha)
        · rename_i h; rw [h] at hw; rw [State.armWrite_store]; exact hw.trans (hb.trans ha)

@[simp] theorem State.armNext_store (s : State) (t : Nat) (x : ArmTile) (cycles : Nat) (ended : Bool) :
    (State.armNext s t x cycles ended).store = s.store := by
  simp only [State.armNext, State.setArm_store, store_ite, ite_self]

@[simp] theorem State.armMove_store (s : State) (q : Nat) : (State.armMove s q).store = s.store := by
  unfold State.armMove
  (repeat' split) <;> first | rfl | simp only [State.setArm_store, foldl_store, store_ite, ite_self, implies_true]

@[simp] theorem State.armArrived_store (s : State) (c : Nat) : (State.armArrived s c).store = s.store := by
  unfold State.armArrived
  (repeat' split) <;> first | rfl | simp only [State.armMove_store, foldl_store, implies_true]

@[simp] theorem State.armIssue_store (s : State) (t c opc : Nat) (hit : ArmHit) (op : ArmOp) :
    (State.armIssue s t c opc hit op).store = s.store := by
  rw [State.armIssue]
  split
  · rfl
  · rename_i x _
    have hf := State.armFetch_store s t x.pc
    split
    · rfl
    · split
      · rename_i h; rw [h] at hf; rw [State.armFault_store]; exact hf
      · rename_i h
        rw [h] at hf
        dsimp only
        split
        · rw [State.armNext_store, State.armDo_store, State.armArrived_store]; exact hf
        · exact hf

@[simp] theorem State.armResidue_store (s : State) : (State.armResidue s).store = s.store := by
  simp only [State.armResidue, State.set1_store, store_ite, ite_self]

@[simp] theorem State.armEnd_store (s : State) (t c : Nat) : (State.armEnd s t c).store = s.store := by
  rw [State.armEnd]
  split
  · rfl
  · rename_i x _
    have hf := State.armFetch_store s t x.pc
    split
    · rfl
    · split
      · rename_i heq; rw [heq] at hf; rw [State.armFault_store]; exact hf
      · rename_i heq
        rw [heq] at hf
        split
        · rw [State.armResidue_store, State.setArm_store, State.armNext_store]; exact hf
        · exact hf

@[simp] theorem State.armIllegal_store (s : State) (t c : Nat) : (State.armIllegal s t c).store = s.store := by
  rw [State.armIllegal]
  split
  · rfl
  · rename_i x _
    have hf := State.armFetch_store s t x.pc
    split
    · rfl
    · split
      · rename_i heq; rw [heq] at hf; rw [State.armFault_store]; exact hf
      · rename_i heq
        rw [heq] at hf
        split
        · exact hf
        · rw [State.armFault_store]; exact hf

@[simp] theorem State.armArrive_store (s : State) (q : Nat) : (State.armArrive s q).store = s.store := by
  unfold State.armArrive
  (repeat' split) <;> first | rfl | simp only [State.armMove_store, State.armResidue_store]

@[simp] theorem State.armCommit_store (s : State) : (State.armCommit s).store = s.store := by
  unfold State.armCommit
  (repeat' split) <;> first | rfl | simp only [State.putData_store, State.setArm_store, State.wr_store, foldl_store, implies_true]

@[simp] theorem State.fabricStart_store (s : State) : (State.fabricStart s).store = s.store := by
  simp only [State.fabricStart, State.armCommit_store, State.elapseToDevice_store, State.set1_store, State.setArm_store,
    store_ite, ite_self]

@[simp] theorem State.armDeliver_store (s : State) : (State.armDeliver s).store = s.store := by
  simp only [State.armDeliver, State.wr_store, foldl_store, implies_true]

@[simp] theorem State.armOverrun_store (s : State) : (State.armOverrun s).store = s.store := by
  simp only [State.armOverrun, State.addSat_store, State.set0_store, State.set1_store, State.trip_store, State.wr_store, foldl_store,
    store_ite, ite_self, implies_true]

@[simp] theorem State.armUnitEnd_store (s : State) : (State.armUnitEnd s).store = s.store := by
  simp only [State.armUnitEnd, State.wr_store, store_ite, ite_self]

@[simp] theorem State.armDeadline_store (s : State) : (State.armDeadline s).store = s.store := by
  simp only [State.armDeadline, State.armArrived_store, State.armDeliver_store, State.armHalt_store, State.armOverrun_store,
    State.armResidue_store, State.armUnitEnd_store, State.elapseToDevice_store, State.set1_store, State.setMod_store, State.wr_store, store_ite,
    ite_self]

@[simp] theorem State.armFrame_store (s : State) : (State.armFrame s).store = s.store := by
  simp only [State.armFrame, State.armCommit_store, State.setArm_store, store_ite, ite_self]

@[simp] theorem State.armRun1_store (s : State) (m : Master) (en : Bool) : (State.armRun1 s m en).store = s.store := by
  simp only [State.armRun1, State.armUnitEnd_store, State.blockStart_store, State.gate_store, State.perr_store, State.setArm_store,
    State.wr_store, store_ite, ite_self, implies_true]

@[simp] theorem State.tileDataWrite_store (s : State) (m : Master) (t a v : Nat) : (State.tileDataWrite s m t a v).store = s.store := by
  simp only [State.tileDataWrite, State.gate_store, State.putData_store, State.setArm_store, store_ite, ite_self, implies_true]

@[simp] theorem State.progFirst_store (s : State) (m : Master) (t k v : Nat) : (State.progFirst s m t k v).store = s.store := by
  simp only [State.progFirst, State.gate_store, State.perr_store, State.setArm_store, store_ite, ite_self, implies_true]

@[simp] theorem State.progSecond_store (s : State) (m : Master) (t k v : Nat) : (State.progSecond s m t k v).store = s.store := by
  rw [State.progSecond]
  refine State.gate_store _ _ _ _ _ fun s => ?_
  dsimp only
  (repeat' split) <;> simp only [State.perr_store, State.setArm_store, State.putUpset_store]

@[simp] theorem execFabricStart_store (s : State) : (s.after (execFabricStart)).store = s.store := by
  simp only [State.after, execFabricStart, done, State.msiSend_store, State.fabricStart_store]

@[simp] theorem execArmatureDeadline_store (s : State) : (s.after execArmatureDeadline).store = s.store := by
  simp only [State.after, execArmatureDeadline, done, State.msiSend_store, State.armDeadline_store]

@[simp] theorem execPortWordArrival_store (t : Fin 128) (p : Fin 8) (s : State) : (s.after (execPortWordArrival t p)).store = s.store := by
  simp only [State.after, execPortWordArrival, done, State.msiSend_store, State.armArrive_store]

@[simp] theorem execArmRun1_store (m : Master) (en : Bool) (s : State) : (s.after (execArmRun1 m en)).store = s.store := by
  simp only [State.after, execArmRun1, done, State.msiSend_store, State.armRun1_store]

@[simp] theorem execPcommit_store (m : Master) (s : State) : (s.after (execPcommit m)).store = s.store := by
  simp only [State.after, execPcommit, done, State.msiSend_store, State.gate_store, State.set1_store, State.setArm_store, store_ite, ite_self,
    implies_true]

@[simp] theorem execTileDataWrite_store (m : Master) (t : Fin 128) (a : Fin 1024) (v : Word) (s : State) :
    (s.after (execTileDataWrite m t a v)).store = s.store := by
  simp only [State.after, execTileDataWrite, done, State.msiSend_store, State.tileDataWrite_store]

@[simp] theorem execProgramFirstWordWrite_store (m : Master) (t : Fin 128) (slot : Fin 256) (v : Word) (s : State) :
    (s.after (execProgramFirstWordWrite m t slot v)).store = s.store := by
  simp only [State.after, execProgramFirstWordWrite, done, State.msiSend_store, State.progFirst_store]

@[simp] theorem execProgramSecondWordWrite_store (m : Master) (t : Fin 128) (slot : Fin 256) (v : Word) (s : State) :
    (s.after (execProgramSecondWordWrite m t slot v)).store = s.store := by
  simp only [State.after, execProgramSecondWordWrite, done, State.msiSend_store, State.progSecond_store]

@[simp] theorem execEnd_store (t : Fin 128) (c : Fin 800) (s : State) : (s.after (execEnd t c)).store = s.store := by
  simp only [State.after, execEnd, done, State.msiSend_store, State.armEnd_store]

@[simp] theorem execIllegalInstruction_store (t : Fin 128) (c : Fin 800) (s : State) : (s.after (execIllegalInstruction t c)).store = s.store := by
  simp only [State.after, execIllegalInstruction, done, State.msiSend_store, State.armIllegal_store]

@[simp] theorem execNop_store (t : Fin 128) (c : Fin 800) (s : State) : (s.after (execNop t c)).store = s.store := by
  simp only [State.after, execNop, done, State.msiSend_store, State.armIssue_store]

@[simp] theorem execClr_store (t : Fin 128) (c : ArmIssue) (s : State) : (s.after (execClr t c)).store = s.store := by
  simp only [State.after, execClr, done, State.msiSend_store, State.armIssue_store]

@[simp] theorem execLda_store (t : Fin 128) (c : Fin 800) (hit : ArmHit) (s : State) : (s.after (execLda t c hit)).store = s.store := by
  simp only [State.after, execLda, done, State.msiSend_store, State.armIssue_store]

@[simp] theorem execMul_store (t : Fin 128) (c : Fin 800) (hit : ArmHit) (s : State) : (s.after (execMul t c hit)).store = s.store := by
  simp only [State.after, execMul, done, State.msiSend_store, State.armIssue_store]

@[simp] theorem execMac_store (t : Fin 128) (c : Fin 800) (hit : ArmHit) (s : State) : (s.after (execMac t c hit)).store = s.store := by
  simp only [State.after, execMac, done, State.msiSend_store, State.armIssue_store]

@[simp] theorem execMsu_store (t : Fin 128) (c : Fin 800) (hit : ArmHit) (s : State) : (s.after (execMsu t c hit)).store = s.store := by
  simp only [State.after, execMsu, done, State.msiSend_store, State.armIssue_store]

@[simp] theorem execAdd_store (t : Fin 128) (c : Fin 800) (hit : ArmHit) (s : State) : (s.after (execAdd t c hit)).store = s.store := by
  simp only [State.after, execAdd, done, State.msiSend_store, State.armIssue_store]

@[simp] theorem execSub_store (t : Fin 128) (c : Fin 800) (hit : ArmHit) (s : State) : (s.after (execSub t c hit)).store = s.store := by
  simp only [State.after, execSub, done, State.msiSend_store, State.armIssue_store]

@[simp] theorem execAdda_store (t : Fin 128) (c : Fin 800) (hit : ArmHit) (s : State) : (s.after (execAdda t c hit)).store = s.store := by
  simp only [State.after, execAdda, done, State.msiSend_store, State.armIssue_store]

@[simp] theorem execSuba_store (t : Fin 128) (c : Fin 800) (hit : ArmHit) (s : State) : (s.after (execSuba t c hit)).store = s.store := by
  simp only [State.after, execSuba, done, State.msiSend_store, State.armIssue_store]

@[simp] theorem execSha_store (t : Fin 128) (c : Fin 800) (hit : ArmHit) (s : State) : (s.after (execSha t c hit)).store = s.store := by
  simp only [State.after, execSha, done, State.msiSend_store, State.armIssue_store]

@[simp] theorem execNeg_store (t : Fin 128) (c : Fin 800) (hit : ArmHit) (s : State) : (s.after (execNeg t c hit)).store = s.store := by
  simp only [State.after, execNeg, done, State.msiSend_store, State.armIssue_store]

@[simp] theorem execAbs_store (t : Fin 128) (c : Fin 800) (hit : ArmHit) (s : State) : (s.after (execAbs t c hit)).store = s.store := by
  simp only [State.after, execAbs, done, State.msiSend_store, State.armIssue_store]

@[simp] theorem execMax_store (t : Fin 128) (c : Fin 800) (hit : ArmHit) (s : State) : (s.after (execMax t c hit)).store = s.store := by
  simp only [State.after, execMax, done, State.msiSend_store, State.armIssue_store]

@[simp] theorem execMin_store (t : Fin 128) (c : Fin 800) (hit : ArmHit) (s : State) : (s.after (execMin t c hit)).store = s.store := by
  simp only [State.after, execMin, done, State.msiSend_store, State.armIssue_store]

@[simp] theorem execLim_store (t : Fin 128) (c : Fin 800) (hit : ArmHit) (s : State) : (s.after (execLim t c hit)).store = s.store := by
  simp only [State.after, execLim, done, State.msiSend_store, State.armIssue_store]

@[simp] theorem execStr_store (t : Fin 128) (c : Fin 800) (hit : ArmHit) (s : State) : (s.after (execStr t c hit)).store = s.store := by
  simp only [State.after, execStr, done, State.msiSend_store, State.armIssue_store]

@[simp] theorem execMov_store (t : Fin 128) (c : Fin 800) (hit : ArmHit) (s : State) : (s.after (execMov t c hit)).store = s.store := by
  simp only [State.after, execMov, done, State.msiSend_store, State.armIssue_store]

@[simp] theorem execSel_store (t : Fin 128) (c : Fin 800) (hit : ArmHit) (s : State) : (s.after (execSel t c hit)).store = s.store := by
  simp only [State.after, execSel, done, State.msiSend_store, State.armIssue_store]

@[simp] theorem execSin_store (t : Fin 128) (c : Fin 800) (hit : ArmHit) (s : State) : (s.after (execSin t c hit)).store = s.store := by
  simp only [State.after, execSin, done, State.msiSend_store, State.armIssue_store]

@[simp] theorem execCos_store (t : Fin 128) (c : Fin 800) (hit : ArmHit) (s : State) : (s.after (execCos t c hit)).store = s.store := by
  simp only [State.after, execCos, done, State.msiSend_store, State.armIssue_store]

@[simp] theorem execAtn_store (t : Fin 128) (c : Fin 800) (hit : ArmHit) (s : State) : (s.after (execAtn t c hit)).store = s.store := by
  simp only [State.after, execAtn, done, State.msiSend_store, State.armIssue_store]

@[simp] theorem execSqr_store (t : Fin 128) (c : Fin 800) (hit : ArmHit) (s : State) : (s.after (execSqr t c hit)).store = s.store := by
  simp only [State.after, execSqr, done, State.msiSend_store, State.armIssue_store]

@[simp] theorem execDiv_store (t : Fin 128) (c : Fin 800) (hit : ArmHit) (s : State) : (s.after (execDiv t c hit)).store = s.store := by
  simp only [State.after, execDiv, done, State.msiSend_store, State.armIssue_store]

@[simp] theorem execMag_store (t : Fin 128) (c : Fin 800) (hit : ArmHit) (s : State) : (s.after (execMag t c hit)).store = s.store := by
  simp only [State.after, execMag, done, State.msiSend_store, State.armIssue_store]

@[simp] theorem execLdx_store (t : Fin 128) (c : Fin 800) (hit : ArmHit) (s : State) : (s.after (execLdx t c hit)).store = s.store := by
  simp only [State.after, execLdx, done, State.msiSend_store, State.armIssue_store]

@[simp] theorem execStx_store (t : Fin 128) (c : Fin 800) (hit : ArmHit) (s : State) : (s.after (execStx t c hit)).store = s.store := by
  simp only [State.after, execStx, done, State.msiSend_store, State.armIssue_store]

@[simp] theorem State.cpsStored_store (s : State) (a : Nat) : (State.cpsStored s a).store = s.store := by
  unfold State.cpsStored
  (repeat' split) <;> first | rfl | simp only [State.set1_store, State.wr_store, foldl_store, store_ite, ite_self, implies_true]

@[simp] theorem State.putArm_store (s : State) (a : Nat) (x : ArmMod) : (State.putArm s a x).store = s.store := by
  simp only [State.putArm, State.setMod_store]

@[simp] theorem State.smJudge_store (s : State) (j : Nat) : (State.smJudge s j).store = s.store := by
  rw [State.smJudge]
  split <;> simp only [State.set1_store, State.setMod_store, State.wr_store, store_ite, ite_self]

@[simp] theorem State.telSnapshot_store (s : State) : (State.telSnapshot s).store = s.store := by
  simp only [State.telSnapshot, State.smJudge_store, foldl_store, implies_true]

@[simp] theorem State.telStale_store (s : State) (j : Nat) : (State.telStale s j).store = s.store := by
  simp only [State.telStale, State.set1_store, store_ite, ite_self]

@[simp] theorem State.aggArm_store (s : State) (a : Nat) : (State.aggArm s a).store = s.store := by
  simp only [State.aggArm, State.drawn_store, State.putArm_store, State.setMod_store, State.wr_store]

@[simp] theorem State.raspArm_store (s : State) (a : Nat) : (State.raspArm s a).store = s.store := by
  simp only [State.raspArm, State.putArm_store, State.set1_store, State.wr_store, foldl_store, store_ite, ite_self, implies_true]

@[simp] theorem State.modFrameStart_store (s : State) : (State.modFrameStart s).store = s.store := by
  simp only [State.modFrameStart, State.aggArm_store, State.cleanWords_store, State.drawn_store, State.raspArm_store, State.telSnapshot_store,
    State.wr_store, foldl_store, store_ite, ite_self, implies_true]

@[simp] theorem State.putCmd_store (s : State) (a j : Nat) (c : SmCmd) : (State.putCmd s a j c).1.store = s.store := by
  simp only [State.putCmd, State.setMod_store, State.wr_store]

@[simp] theorem State.redundancy_store (s : State) (a n : Nat) : (State.redundancy s a n).store = s.store := by
  simp only [State.redundancy, State.set1_store, State.trip_store, State.wr_store, State.wrBit_store, store_ite, ite_self
    ]

@[simp] theorem State.modulateArm_store (s : State) (a : Nat) : (State.modulateArm s a).store = s.store := by
  rw [State.modulateArm]
  split
  · rfl
  · dsimp only
    simp only [State.redundancy_store, State.putArm_store, State.wr_store]
    rw [foldl_fst_store]
    · simp only [State.wrBit_store, State.set1_store, store_ite, ite_self]
    · intro x e; exact State.putCmd_store ..

@[simp] theorem State.fenceMod_store (s : State) (b : Block) (kind detail : Nat) : (State.fenceMod s b kind detail).store = s.store := by
  simp only [State.fenceMod, State.errorB_store, State.resRecord_store, State.set1_store, State.trip_store, State.wr_store
    ]

@[simp] theorem State.modEcc_store (s : State) (b : Block) (kind : Nat) : (State.modEcc s b kind).store = s.store := by
  unfold State.modEcc
  (repeat' split) <;> first | rfl | simp only [State.errorB_store, State.fenceMod_store]

@[simp] theorem State.modRead_store (s : State) (b : Block) (lo : Nat) : (State.modRead s b lo).store = s.store := by
  unfold State.modRead
  (repeat' split) <;> simp [store_ite]

@[simp] theorem State.blockAll_store (s : State) : (State.blockAll s).store = s.store := by
  unfold State.blockAll
  (repeat' split) <;> first | rfl | simp only [State.cleanWords_store, State.set0_store, State.setMod_store, foldl_store, store_ite, ite_self,
    implies_true]

@[simp] theorem State.modCheck_store (s : State) (b : Block) (bad : Option Nat) : (State.modCheck s b bad).store = s.store := by
  unfold State.modCheck
  (repeat' split) <;> first | rfl | simp only [State.fenceMod_store]

@[simp] theorem State.modulatorFrame_store (s : State) (modBad rspBad : Option Nat) : (State.modulatorFrame s modBad rspBad).store = s.store := by
  unfold State.modulatorFrame
  (repeat' split) <;> first | rfl | simp only [State.blockAll_store, State.cleanWords_store, State.modCheck_store, State.modRead_store,
    State.modulateArm_store, State.set0_store, State.set1_store, State.setMod_store, State.wr_store, foldl_store, store_ite, ite_self, implies_true]

@[simp] theorem execModulatorFrame_store (modBad rspBad : Option (Fin 8192)) (s : State) :
    (s.after (execModulatorFrame modBad rspBad)).store = s.store := by
  simp only [State.after, execModulatorFrame, done, State.msiSend_store, State.modulatorFrame_store]

@[simp] theorem execTelemetryStale_store (j : Fin 8192) (s : State) : (s.after (execTelemetryStale j)).store = s.store := by
  simp only [State.after, execTelemetryStale, done, State.msiSend_store, State.telStale_store]

@[simp] theorem State.timerFrom_store (s : State) (u k w : Nat) : (State.timerFrom s u k w).store = s.store := by
  unfold State.timerFrom
  (repeat' split) <;> first | rfl | simp only [State.setClk_store, State.stopTimer_store, foldl_store, store_ite, ite_self, implies_true]

@[simp] theorem State.mirFrmFrom_store (s : State) (w : List Nat) : (State.mirFrmFrom s w).store = s.store := by
  unfold State.mirFrmFrom
  (repeat' split) <;> first | rfl | simp only [State.setFrm_store, State.setPrf_store, State.timerFrom_store, State.wr_store, foldl_store,
    implies_true]

@[simp] theorem State.mirModFrom_store (s : State) (w : List Nat) : (State.mirModFrom s w).store = s.store := by
  simp only [State.mirModFrom, State.putArm_store, foldl_store, implies_true]

@[simp] theorem State.mirUserFrom_store (s : State) (l w : List Nat) : (State.mirUserFrom s l w).store = s.store := by
  induction l generalizing s w with
  | nil => unfold State.mirUserFrom; rfl
  | cons e r ih =>
    rw [State.mirUserFrom]
    split <;> simp only [ih, State.putAcc_store, State.putUpset_store, State.setArm_store]

@[simp] theorem State.mirApply_store (s : State) (frame : Nat) (w : List Nat) : (State.mirApply s frame w).store = s.store := by
  simp only [State.mirApply, State.mirFrmFrom_store, State.mirModFrom_store, State.mirUserFrom_store, State.setMod_store,
    State.wr_store, foldl_store, implies_true]

@[simp] theorem State.mirMiss_store (s : State) : (State.mirMiss s).store = s.store := by
  simp only [State.mirMiss, State.addSat_store, State.set1_store, State.setMir_store, store_ite, ite_self]

@[simp] theorem State.pairFrame_store (s : State) : (State.pairFrame s).store = s.store := by
  unfold State.pairFrame
  (repeat' split) <;> first | rfl | simp only [State.set0_store, State.setMir_store, store_ite, ite_self]

@[simp] theorem State.mirFrame_store (s : State) : (State.mirFrame s).store = s.store := by
  unfold State.mirFrame
  repeat' (first | rfl | split | simp only [State.mirApply_store, State.mirMiss_store, State.pairFrame_store, State.setMir_store, store_ite])

@[simp] theorem State.mirRead_store (s : State) (k : Nat) : (State.mirRead s k).1.store = s.store := by
  unfold State.mirRead
  (repeat' split) <;> simp [store_ite]

@[simp] theorem State.recordSend_store (s : State) : (State.recordSend s).store = s.store := by
  unfold State.recordSend
  (repeat' split) <;> simp [store_ite]

@[simp] theorem State.recordIn_store (s : State) (r : MirRecord) : (State.recordIn s r).store = s.store := by
  unfold State.recordIn
  (repeat' split) <;> first | rfl | simp only [State.mirMiss_store, State.mirRead_store, State.seePartner_store, State.set1_store,
    State.setMir_store, store_ite, ite_self]

@[simp] theorem execMirrorRecordSend_store (s : State) : (s.after (execMirrorRecordSend)).store = s.store := by
  simp only [State.after, execMirrorRecordSend, done, State.msiSend_store, State.recordSend_store]

@[simp] theorem execMirrorRecordReceived_store (r : MirRecord) (s : State) : (s.after (execMirrorRecordReceived r)).store = s.store := by
  simp only [State.after, execMirrorRecordReceived, done, State.msiSend_store, State.recordIn_store]

@[simp] theorem State.leaseIn_store (s : State) (x : LeaseMsg) (k : State → State) (hk : ∀ s, (k s).store = s.store) :
    (State.leaseIn s x k).store = s.store := by
  rw [State.leaseIn]
  simp only [store_ite, hk, State.seeEpoch_store, State.higherEpoch_store, State.setMir_store, State.seePartner_store,
    State.startTimer_store, ite_self]

@[simp] theorem State.renewIn_store (s : State) (x : LeaseMsg) : (State.renewIn s x).store = s.store := by
  simp only [State.renewIn, State.leaseIn_store, State.sendLease_store, State.setMir_store, State.wr_store, store_ite, ite_self,
    implies_true]

@[simp] theorem State.ackIn_store (s : State) (x : LeaseMsg) : (State.ackIn s x).store = s.store := by
  rw [State.ackIn]
  refine State.leaseIn_store _ _ _ fun s => ?_
  dsimp only
  (repeat' split) <;> simp only [State.setMir_store, State.wr_store]

@[simp] theorem State.releaseIn_store (s : State) (x : LeaseMsg) : (State.releaseIn s x).store = s.store := by
  simp only [State.releaseIn, State.leaseIn_store, State.sendLease_store, State.set1_store, State.setMir_store, implies_true]

@[simp] theorem State.handoverIn_store (s : State) (x : LeaseMsg) : (State.handoverIn s x).store = s.store := by
  simp only [State.handoverIn, State.leaseIn_store, State.set1_store, State.setMir_store, implies_true]

@[simp] theorem State.renewSend_store (s : State) : (State.renewSend s).store = s.store := by
  simp only [State.renewSend, State.elapseToDevice_store, State.sendLease_store, State.setMir_store, store_ite, ite_self]

@[simp] theorem State.claim_store (s : State) : (State.claim s).store = s.store := by
  rw [State.claim]
  dsimp only
  (repeat' split) <;> first | rfl | simp only [State.setCtl_store, State.setMode_store, State.takeMallet_store
    ]

@[simp] theorem State.autorun_store (s old : State) : (State.autorun s old).store = s.store := by
  unfold State.autorun
  (repeat' split) <;> first | rfl | simp only [State.set1_store, State.setCtl_store, store_ite, ite_self]

@[simp] theorem State.idleWaitEnd_store (s : State) : (State.idleWaitEnd s).store = s.store := by
  rw [State.idleWaitEnd]
  dsimp only
  (repeat' split) <;> first | rfl | simp only [State.elapseTo_store, State.set1_store, State.setCtl_store,
    State.stopTimer_store, State.takeMallet_store]

@[simp] theorem State.handover_store (s : State) (m : Master) : (State.handover s m).store = s.store := by
  simp only [State.handover, State.gate_store, State.perr_store, State.sendLease_store, State.setMir_store, State.wr_store,
    store_ite, ite_self, implies_true]

@[simp] theorem State.handoverFrame_store (s : State) : (State.handoverFrame s).store = s.store := by
  unfold State.handoverFrame
  (repeat' split) <;> first | rfl | simp only [State.endHolding_store, foldl_store, store_ite, ite_self, implies_true]

@[simp] theorem State.shadowModes_store (s : State) : (State.shadowModes s).store = s.store := by
  unfold State.shadowModes
  (repeat' split) <;> first | rfl | simp only [State.enterShadow_store]

@[simp] theorem State.epochWrite_store (s : State) (m : Master) (v : Nat) : (State.epochWrite s m v).store = s.store := by
  simp only [State.epochWrite, State.gate_store, State.perr_store, State.seeEpoch_store, State.wr_store, store_ite, ite_self,
    implies_true]

@[simp] theorem State.heartbeatSend_store (s : State) : (State.heartbeatSend s).store = s.store := by
  simp only [State.heartbeatSend, State.emit_store, State.expire_store, State.startTimer_store, foldl_store, store_ite, ite_self,
    implies_true]

@[simp] theorem State.hbLost_store (s : State) : (State.hbLost s).store = s.store := by
  simp only [State.hbLost, State.expire_store, State.partnerAge_store, State.set1_store, store_ite, ite_self]

@[simp] theorem State.heartbeatIn_store (s : State) (e : Nat) : (State.heartbeatIn s e).store = s.store := by
  unfold State.heartbeatIn
  (repeat' split) <;> first | rfl | simp only [State.seeEpoch_store, State.seePartner_store, State.startTimer_store]

@[simp] theorem State.snapshotSend_store (s : State) : (State.snapshotSend s).store = s.store := by
  simp only [State.snapshotSend, State.emit_store, State.expire_store, State.startTimer_store, store_ite, ite_self]

@[simp] theorem State.snapshotIn_store (s : State) (mode : Nat) (targets words : List Nat) :
    (State.snapshotIn s mode targets words).store = s.store := by
  simp only [State.snapshotIn, State.setMir_store, State.startTimer_store, State.wr_store, foldl_store, store_ite, ite_self,
    implies_true]

@[simp] theorem State.snapLate_store (s : State) : (State.snapLate s).store = s.store := by
  rw [State.snapLate]
  split <;> simp only [State.elapseTo_store, State.set1_store, State.wr_store, store_ite, ite_self]

@[simp] theorem State.tofsFrame_store (s : State) (tofs : Int) : (State.tofsFrame s tofs).store = s.store := by
  simp only [State.tofsFrame, State.set1_store, State.wr_store, store_ite, ite_self]

@[simp] theorem execRenewSend_store (s : State) : (s.after (execRenewSend)).store = s.store := by
  simp only [State.after, execRenewSend, done, State.msiSend_store, State.renewSend_store]

@[simp] theorem execLeaseRenewReceived_store (x : LeaseMsg) (s : State) : (s.after (execLeaseRenewReceived x)).store = s.store := by
  simp only [State.after, execLeaseRenewReceived, done, State.msiSend_store, State.renewIn_store]

@[simp] theorem execLeaseAckReceived_store (x : LeaseMsg) (s : State) : (s.after (execLeaseAckReceived x)).store = s.store := by
  simp only [State.after, execLeaseAckReceived, done, State.msiSend_store, State.ackIn_store]

@[simp] theorem execLeaseReleaseReceived_store (x : LeaseMsg) (s : State) : (s.after (execLeaseReleaseReceived x)).store = s.store := by
  simp only [State.after, execLeaseReleaseReceived, done, State.msiSend_store, State.releaseIn_store]

@[simp] theorem execLeaseHandoverReceived_store (x : LeaseMsg) (s : State) : (s.after (execLeaseHandoverReceived x)).store = s.store := by
  simp only [State.after, execLeaseHandoverReceived, done, State.msiSend_store, State.handoverIn_store]

@[simp] theorem execMalletClaim_store (s : State) : (s.after (execMalletClaim)).store = s.store := by
  simp only [State.after, execMalletClaim, done, State.msiSend_store, State.claim_store]

@[simp] theorem execPairIdleWaitEnd_store (s : State) : (s.after (execPairIdleWaitEnd)).store = s.store := by
  simp only [State.after, execPairIdleWaitEnd, done, State.msiSend_store, State.idleWaitEnd_store]

@[simp] theorem execHandover_store (m : Master) (s : State) : (s.after (execHandover m)).store = s.store := by
  simp only [State.after, execHandover, done, State.msiSend_store, State.handover_store]

@[simp] theorem execMirEpochWrite_store (m : Master) (v : Word) (s : State) : (s.after (execMirEpochWrite m v)).store = s.store := by
  simp only [State.after, execMirEpochWrite, done, State.msiSend_store, State.epochWrite_store]

@[simp] theorem execHeartbeatSend_store (s : State) : (s.after (execHeartbeatSend)).store = s.store := by
  simp only [State.after, execHeartbeatSend, done, State.msiSend_store, State.heartbeatSend_store]

@[simp] theorem execHblost_store (s : State) : (s.after (execHblost)).store = s.store := by
  simp only [State.after, execHblost, done, State.msiSend_store, State.hbLost_store]

@[simp] theorem execMirrorLaneLoss_store (l : Fin 2) (s : State) : (s.after (execMirrorLaneLoss l)).store = s.store := by
  simp only [State.after, execMirrorLaneLoss, done, State.msiSend_store, State.semMasterReset_store, State.set1_store,
    State.wrBit_store, store_ite, ite_self]

@[simp] theorem execMirrorLaneAlign_store (l : Fin 2) (s : State) : (s.after (execMirrorLaneAlign l)).store = s.store := by
  simp only [State.after, execMirrorLaneAlign, done, State.msiSend_store, State.wrBit_store, store_ite, ite_self]

@[simp] theorem execSnapshotSend_store (s : State) : (s.after (execSnapshotSend)).store = s.store := by
  simp only [State.after, execSnapshotSend, done, State.msiSend_store, State.snapshotSend_store]

@[simp] theorem execSnaplate_store (s : State) : (s.after (execSnaplate)).store = s.store := by
  simp only [State.after, execSnaplate, done, State.msiSend_store, State.snapLate_store]

@[simp] theorem State.pairFlag_store (s : State) (f a : Fld) : (State.pairFlag s f a).store = s.store := by
  simp only [State.pairFlag, State.set1_store]

@[simp] theorem State.putRog_store (s : State) (n : Nat) (x : RogCh) : (State.putRog s n x).store = s.store := by
  simp only [State.putRog, State.setBrg_store]

@[simp] theorem State.turnOn_store (s : State) (p q : Nat) (hi : Bool) (exc : List (Nat × Bool)) : (State.turnOn s p q hi exc).store = s.store := by
  simp only [State.turnOn, State.putRog_store, foldl_store, store_ite, ite_self, implies_true]

@[simp] theorem State.applyEdge_store (s : State) (p : Nat) (e : Edge) (exc : List (Nat × Bool)) : (State.applyEdge s p e exc).store = s.store := by
  simp only [State.applyEdge, State.elapseToQ_store, State.putPair_store, State.turnOn_store, store_ite, ite_self]

@[simp] theorem State.nextEdge_store (s : State) (p : Nat) (exc : List (Nat × Bool)) : (State.nextEdge s p exc).store = s.store := by
  unfold State.nextEdge
  repeat' (first | rfl | split | simp only [State.applyEdge_store, State.putPair_store])

@[simp] theorem State.flushEdges_store (fuel : Nat) (s : State) (p : Nat) : (State.flushEdges fuel s p).store = s.store := by
  induction fuel generalizing s with
  | zero => rfl
  | succ n ih =>
    rw [State.flushEdges]
    split
    · rfl
    · rw [ih, State.nextEdge_store]

@[simp] theorem State.chopper_store (s : State) (p : Nat) (on vov : Bool) : (State.chopper s p on vov).store = s.store := by
  simp only [State.chopper, State.applyEdge_store, State.putPair_store, store_ite, ite_self]

@[simp] theorem State.fenceLbr_store (s : State) (detail : Nat) : (State.fenceLbr s detail).store = s.store := by
  simp only [State.fenceLbr, State.errorB_store, State.pairsOff_store, State.resRecord_store, State.set1_store, State.wr_store
    ]

@[simp] theorem State.placePeriod_store (s : State) (p start per : Nat) : (State.placePeriod s p start per).store = s.store := by
  simp only [State.placePeriod, State.applyEdge_store, State.chopper_store, State.pairFlag_store, State.putPair_store, State.set1_store, store_ite,
    ite_self]

@[simp] theorem State.cutCount_store (s : State) (p : Nat) : (State.cutCount s p).store = s.store := by
  unfold State.cutCount
  (repeat' split) <;> first | rfl | simp only [State.addSat_store, State.putPair_store, foldl_store, store_ite, ite_self, implies_true]

@[simp] theorem State.periodStart_store (s : State) (p : Nat) (bad : Option Nat) : (State.periodStart s p bad).store = s.store := by
  rw [State.periodStart]
  split
  · rfl
  · split
    · rfl
    · cases bad <;> dsimp only <;> simp only [State.pairOff_store, State.cutCount_store, State.putPair_store, State.wr_store, State.fenceLbr_store,
        State.placePeriod_store, State.seqTriggers_store, State.flushEdges_store, State.elapseToQ_store, store_ite, ite_self]

@[simp] theorem State.bridgeFrame_store (s : State) : (State.bridgeFrame s).store = s.store := by
  simp only [State.bridgeFrame, State.putPair_store, foldl_store, store_ite, ite_self, implies_true]

@[simp] theorem State.pairWritten_store (s : State) (p : Nat) : (State.pairWritten s p).store = s.store := by
  simp only [State.pairWritten, State.setBrg_store]

@[simp] theorem State.pairEnable_store (s : State) (p : Nat) : (State.pairEnable s p).store = s.store := by
  unfold State.pairEnable
  (repeat' split) <;> first | rfl | simp only [State.putPair_store, State.set1_store, foldl_store, store_ite, ite_self, implies_true]

@[simp] theorem State.pairDisable_store (s : State) (p : Nat) : (State.pairDisable s p).store = s.store := by
  unfold State.pairDisable
  (repeat' split) <;> first | rfl | simp only [State.pairOff_store, State.putPair_store, State.set0_store]

@[simp] theorem execPairPeriodStart_store (p : Fin 12) (bad : Option (BitVec 8)) (s : State) :
    (s.after (execPairPeriodStart p bad)).store = s.store := by
  simp only [State.after, execPairPeriodStart, done, State.msiSend_store, State.periodStart_store]

@[simp] theorem execPairEnable_store (m : Master) (p : Fin 12) (s : State) : (s.after (execPairEnable m p)).store = s.store := by
  simp only [State.after, execPairEnable, done, State.msiSend_store, State.gate_store, State.pairEnable_store,
    State.pairWritten_store, implies_true]

@[simp] theorem execPairDisable_store (m : Master) (p : Fin 12) (s : State) : (s.after (execPairDisable m p)).store = s.store := by
  simp only [State.after, execPairDisable, done, State.msiSend_store, State.gate_store, State.pairDisable_store,
    State.pairWritten_store, implies_true]

@[simp] theorem execPairOutputEdge_store (p : Fin 12) (exc : List (Fin 12 × Bool)) (s : State) :
    (s.after (execPairOutputEdge p exc)).store = s.store := by
  simp only [State.after, execPairOutputEdge, done, State.msiSend_store, State.nextEdge_store]

@[simp] theorem State.putRecord_store (s : State) (k kind src pairs time : Nat) : (State.putRecord s k kind src pairs time).store = s.store := by
  unfold State.putRecord
  (repeat' split) <;> first | rfl | simp only [State.wr_store, foldl_store, store_ite, ite_self, implies_true]

@[simp] theorem State.moveRecord_store (s : State) (k : Nat) : (State.moveRecord s k).store = s.store := by
  unfold State.moveRecord
  (repeat' split) <;> first | rfl | simp only [State.putRecord_store, foldl_store, store_ite, ite_self, implies_true]

@[simp] theorem State.firstIn_store (s : State) (kind src pairs q : Nat) : (State.firstIn s kind src pairs q).store = s.store := by
  unfold State.firstIn
  (repeat' split) <;> first | rfl | simp only [State.castEvent_store, State.moveRecord_store, State.putRecord_store, State.set1_store,
    State.setBrg_store, State.wr_store, foldl_store, store_ite, ite_self, implies_true]

@[simp] theorem State.firstInClear_store (s : State) : (State.firstInClear s).store = s.store := by
  simp only [State.firstInClear, State.putRecord_store, State.set0_store, State.setBrg_store, State.wr_store, foldl_store, implies_true]

@[simp] theorem State.cutNow_store (n : Nat) (s : State) (p : Nat) : (State.cutNow n s p).store = s.store := by
  unfold State.cutNow
  (repeat' split) <;> first | rfl | simp only [State.cutCount_store, State.pairOff_store, State.putPair_store, store_ite, ite_self]

@[simp] theorem State.cutPair_store (n : Nat) (s : State) (p : Nat) : (State.cutPair n s p).store = s.store := by
  unfold State.cutPair
  (repeat' split) <;> first | rfl | simp only [State.cutNow_store, State.pairFlag_store]

@[simp] theorem State.faultJudge_store (s : State) (n : Nat) (was : Bool) : (State.faultJudge s n was).store = s.store := by
  unfold State.faultJudge
  (repeat' split) <;> first | rfl | simp only [State.cutNow_store, State.cutPair_store, State.firstIn_store, State.set1_store, State.trip_store,
    State.wr_store, foldl_store, store_ite, ite_self, implies_true]

@[simp] theorem State.faultPin_store (s : State) (n : Nat) (active : Bool) (steps : Nat) : (State.faultPin s n active steps).store = s.store := by
  unfold State.faultPin
  (repeat' split) <;> first | rfl | simp only [State.faultJudge_store, State.setBrg_store]

@[simp] theorem State.twoStep_store (softT q : Nat) (s : State) (p : Nat) : (State.twoStep softT q s p).store = s.store := by
  rw [State.twoStep]
  (repeat' split) <;> first | rfl | simp only [State.pairFlag_store, State.pairOff_store]

@[simp] theorem State.detect_store (s : State) (n : Nat) (hard : Bool) (q : Nat) : (State.detect s n hard q).store = s.store := by
  unfold State.detect
  (repeat' split) <;> first | rfl | simp only [State.firstIn_store, State.set1_store, State.trip_store, State.twoStep_store, foldl_store,
    store_ite, ite_self, implies_true]

@[simp] theorem State.rogChange_store (s : State) (n : Nat) (soft hard : Bool) : (State.rogChange s n soft hard).store = s.store := by
  unfold State.rogChange
  (repeat' split) <;> first | rfl | simp only [State.detect_store, State.wr_store, store_ite, ite_self]

@[simp] theorem State.blankEnd_store (s : State) (n : Nat) : (State.blankEnd s n).store = s.store := by
  unfold State.blankEnd
  (repeat' split) <;> first | rfl | simp only [State.detect_store, State.elapseToQ_store, State.putRog_store, store_ite, ite_self]

@[simp] theorem State.softStart_store (s : State) (p : Nat) : (State.softStart s p).store = s.store := by
  unfold State.softStart
  (repeat' split) <;> first | rfl | simp only [State.elapseToQ_store, State.putPair_store, State.setBrg_store, store_ite, ite_self]

@[simp] theorem State.softEnd_store (s : State) (p : Nat) : (State.softEnd s p).store = s.store := by
  unfold State.softEnd
  (repeat' split) <;> first | rfl | simp only [State.elapseToQ_store, State.pairOff_store, State.putPair_store, State.wr_store, store_ite, ite_self]

@[simp] theorem State.coilCheck_store (s : State) (n vb : Nat) : (State.coilCheck s n vb).store = s.store := by
  unfold State.coilCheck
  (repeat' split) <;> first | rfl | simp only [State.expire_store, State.firstIn_store, State.pairOff_store, State.putRog_store, State.set1_store,
    State.startTimer_store, State.wr_store, foldl_store, store_ite, ite_self, implies_true]

@[simp] theorem State.polarityStart_store (s : State) : (State.polarityStart s).store = s.store := by
  simp only [State.polarityStart, State.putRog_store, State.set0_store, foldl_store, store_ite, ite_self, implies_true]

@[simp] theorem State.polarityDone_store (s : State) (n : Nat) : (State.polarityDone s n).store = s.store := by
  rw [State.polarityDone]
  split <;> simp only [State.putRog_store, State.set1_store, store_ite, ite_self]

@[simp] theorem State.ovOutput_store (s : State) (c : Nat) (on vov : Bool) : (State.ovOutput s c on vov).store = s.store := by
  simp only [State.ovOutput, State.chopper_store, State.wr_store, foldl_store, store_ite, ite_self, implies_true]

@[simp] theorem State.ovDisabled_store (s : State) (c : Nat) : (State.ovDisabled s c).store = s.store := by
  simp only [State.ovDisabled, State.ovOutput_store, State.set0_store, State.setBrg_store, State.stopTimer_store, store_ite,
    ite_self]

@[simp] theorem State.ovResult_store (s : State) (c : Nat) : (State.ovResult s c).store = s.store := by
  unfold State.ovResult
  (repeat' split) <;> first | rfl | simp only [State.firstIn_store, State.ovDisabled_store, State.ovOutput_store, State.set1_store,
    State.setBrg_store, State.startTimer_store, State.stopTimer_store, State.trip_store, State.wr_store, store_ite, ite_self]

@[simp] theorem State.ovInvalid_store (s : State) (c : Nat) : (State.ovInvalid s c).store = s.store := by
  simp only [State.ovInvalid, State.expire_store, State.ovOutput_store, store_ite, ite_self]

@[simp] theorem State.protNew_store (s old : State) : (State.protNew s old).store = s.store := by
  unfold State.protNew
  (repeat' split) <;> first | rfl | simp only [State.faultJudge_store, State.ovDisabled_store, foldl_store, implies_true]

@[simp] theorem execFaultInputActive_store (n : FaultPin) (s : State) : (s.after (execFaultInputActive n)).store = s.store := by
  simp only [State.after, execFaultInputActive, done, State.msiSend_store, State.faultPin_store]

@[simp] theorem execFaultInputInactive_store (n : FaultPin) (s : State) : (s.after (execFaultInputInactive n)).store = s.store := by
  simp only [State.after, execFaultInputInactive, done, State.msiSend_store, State.faultPin_store]

@[simp] theorem execRogDetection_store (n : Fin 12) (soft hard : Bool) (s : State) : (s.after (execRogDetection n soft hard)).store = s.store := by
  simp only [State.after, execRogDetection, done, State.msiSend_store, State.rogChange_store]

@[simp] theorem execRogBlankEnd_store (n : Fin 12) (s : State) : (s.after (execRogBlankEnd n)).store = s.store := by
  simp only [State.after, execRogBlankEnd, done, State.msiSend_store, State.blankEnd_store]

@[simp] theorem execRogSoftStageStart_store (p : Fin 12) (s : State) : (s.after (execRogSoftStageStart p)).store = s.store := by
  simp only [State.after, execRogSoftStageStart, done, State.msiSend_store, State.softStart_store]

@[simp] theorem execRogSoftStageEnd_store (p : Fin 12) (s : State) : (s.after (execRogSoftStageEnd p)).store = s.store := by
  simp only [State.after, execRogSoftStageEnd, done, State.msiSend_store, State.softEnd_store]

@[simp] theorem execRogThresholdUpdate_store (n : Fin 12) (s : State) : (s.after (execRogThresholdUpdate n)).store = s.store := by
  simp only [State.after, execRogThresholdUpdate, done, State.msiSend_store, State.putRog_store]

@[simp] theorem execCoilCheck_store (n : Fin 12) (vb : BitVec 16) (s : State) : (s.after (execCoilCheck n vb)).store = s.store := by
  simp only [State.after, execCoilCheck, done, State.msiSend_store, State.coilCheck_store]

@[simp] theorem execPolarityTestStart_store (m : Master) (s : State) : (s.after (execPolarityTestStart m)).store = s.store := by
  simp only [State.after, execPolarityTestStart, done, State.msiSend_store, State.gate_store, State.polarityStart_store, implies_true]

@[simp] theorem execPolarityTestDone_store (n : Fin 12) (s : State) : (s.after (execPolarityTestDone n)).store = s.store := by
  simp only [State.after, execPolarityTestDone, done, State.msiSend_store, State.polarityDone_store]

@[simp] theorem execOvControllerResult_store (c : Fin 2) (s : State) : (s.after (execOvControllerResult c)).store = s.store := by
  simp only [State.after, execOvControllerResult, done, State.msiSend_store, State.ovResult_store]

@[simp] theorem execOvInvalidTimeout_store (c : Fin 2) (s : State) : (s.after (execOvInvalidTimeout c)).store = s.store := by
  simp only [State.after, execOvInvalidTimeout, done, State.msiSend_store, State.ovInvalid_store]

@[simp] theorem execFiclr_store (m : Master) (s : State) : (s.after (execFiclr m)).store = s.store := by
  simp only [State.after, execFiclr, done, State.msiSend_store, State.firstInClear_store, State.gate_store, implies_true]

@[simp] theorem State.discWatch_store (s : State) (n : Nat) : (State.discWatch s n).store = s.store := by
  unfold State.discWatch
  (repeat' split) <;> first | rfl | simp only [State.startTimer_store, State.stopTimer_store, foldl_store, store_ite, ite_self, implies_true]

@[simp] theorem State.safLevel_store (s : State) (n : Nat) (b level : Bool) : (State.safLevel s n b level).store = s.store := by
  unfold State.safLevel
  repeat' (first | rfl | split | simp only [State.discWatch_store, State.setSaf_store, State.wr_store])

@[simp] theorem State.discrepancy_store (s : State) (n : Nat) : (State.discrepancy s n).store = s.store := by
  unfold State.discrepancy
  (repeat' split) <;> first | rfl | simp only [State.elapseTo_store]

@[simp] theorem State.scanDiscrepancy_store (s : State) (n : Nat) : (State.scanDiscrepancy s n).store = s.store := by
  unfold State.scanDiscrepancy
  (repeat' split) <;> first | rfl | simp only [State.set1_store, State.setSaf_store, State.stopTimer_store, foldl_store, store_ite, ite_self,
    implies_true]

@[simp] theorem State.restartCycle_store (s : State) (n : Nat) : (State.restartCycle s n).store = s.store := by
  simp only [State.restartCycle, State.set0_store, State.setSaf_store, store_ite, ite_self]

@[simp] theorem State.putDemand_store (s : State) (n : Nat) (d : Bool) : (State.putDemand s n d).store = s.store := by
  simp only [State.putDemand, State.addSat_store, State.castEvent_store, State.set1_store, State.wr_store, store_ite, ite_self
    ]

@[simp] theorem State.scanInput_store (s : State) (n : Nat) : (State.scanInput s n).store = s.store := by
  unfold State.scanInput
  (repeat' split) <;> first | rfl | simp only [State.putDemand_store, State.restartCycle_store, State.scanDiscrepancy_store]

@[simp] theorem State.takeRelease_store (s : State) (n : Nat) : (State.takeRelease s n).store = s.store := by
  rw [State.takeRelease]
  split <;> simp only [State.setSaf_store, store_ite, ite_self]

@[simp] theorem State.netCommand_store (s : State) (cmd : Nat) : (State.netCommand s cmd).store = s.store := by
  unfold State.netCommand
  split <;> simp only [State.setSaf_store, store_ite, ite_self]

@[simp] theorem State.takeCommand_store (s : State) (cmd : Nat) : (State.takeCommand s cmd).store = s.store := by
  simp only [State.takeCommand, State.netCommand_store, State.setSaf_store, store_ite, ite_self]

@[simp] theorem State.netTimeout_store (s : State) : (State.netTimeout s).store = s.store := by
  rw [State.netTimeout]
  split <;> simp only [State.elapseTo_store, State.set1_store, State.setSaf_store, store_ite, ite_self]

@[simp] theorem State.netDiffers_store (s : State) : (State.netDiffers s).store = s.store := by
  simp only [State.netDiffers, State.addSat_store, State.set1_store, State.setSaf_store]

@[simp] theorem State.compareTimeout_store (s : State) : (State.compareTimeout s).store = s.store := by
  rw [State.compareTimeout]
  split <;> simp only [State.elapseTo_store, State.netDiffers_store, store_ite, ite_self]

@[simp] theorem State.safFrame_store (s : State) (port : Nat) (payload : List Nat) : (State.safFrame s port payload).store = s.store := by
  rw [State.safFrame]
  dsimp only
  (repeat' split) <;> first | rfl | simp only [State.addSat_store, State.netDiffers_store, State.setSaf_store, State.wr_store,
    store_ite, ite_self, implies_true]

@[simp] theorem State.outOff_store (s : State) (m : Nat) : (State.outOff s m).store = s.store := by
  simp only [State.outOff, State.set0_store, State.setSaf_store, store_ite, ite_self]

@[simp] theorem State.switchOut_store (s : State) (m : Nat) : (State.switchOut s m).store = s.store := by
  simp only [State.switchOut, State.outOff_store, State.set1_store, State.setSaf_store, store_ite, ite_self]

@[simp] theorem State.inhibitTrip_store (s : State) : (State.inhibitTrip s).store = s.store := by
  unfold State.inhibitTrip
  (repeat' split) <;> first | rfl | simp only [State.trip_store]

@[simp] theorem State.inhibit_store (s : State) : (State.inhibit s).store = s.store := by
  unfold State.inhibit
  (repeat' split) <;> first | rfl | simp only [State.cutCount_store, State.inhibitTrip_store, State.pairOff_store, State.wr_store, foldl_store,
    store_ite, ite_self, implies_true]

@[simp] theorem State.allOutsOff_store (s : State) : (State.allOutsOff s).store = s.store := by
  simp only [State.allOutsOff, State.inhibit_store, State.outOff_store, foldl_store, implies_true]

@[simp] theorem State.resetEvent_store (s : State) : (State.resetEvent s).store = s.store := by
  simp only [State.resetEvent, State.set0_store, State.set1_store, State.setSaf_store, State.wr_store, foldl_store, store_ite, ite_self, implies_true]

@[simp] theorem State.putReadback_store (s : State) (rb : Nat) : (State.putReadback s rb).store = s.store := by
  simp only [State.putReadback, State.wr_store, foldl_store, implies_true]

@[simp] theorem State.outFault_store (s : State) (m kind part : Nat) : (State.outFault s m kind part).store = s.store := by
  simp only [State.outFault, State.inhibit_store, State.outOff_store, State.set1_store, State.wr_store
    ]

@[simp] theorem State.crossShort_store (s : State) (c : Nat) (low : List Nat) (rb : Nat) : (State.crossShort s c low rb).store = s.store := by
  unfold State.crossShort
  (repeat' split) <;> first | rfl | simp only [State.outFault_store, foldl_store, implies_true]

@[simp] theorem State.pulseJudge_store (s : State) (rb : Nat) : (State.pulseJudge s rb).store = s.store := by
  unfold State.pulseJudge
  (repeat' split) <;> first | rfl | simp only [State.crossShort_store]

@[simp] theorem State.safetyScan_store (s : State) (rb : Nat) : (State.safetyScan s rb).store = s.store := by
  unfold State.safetyScan
  (repeat' split) <;> first | rfl | simp only [State.allOutsOff_store, State.elapseTo_store, State.inhibitTrip_store, State.inhibit_store,
    State.netCommand_store, State.pulseJudge_store, State.putDemand_store, State.putReadback_store, State.resetEvent_store, State.scanInput_store,
    State.set0_store, State.setSaf_store, State.switchOut_store, State.takeRelease_store, State.wr_store, foldl_store, store_ite, ite_self,
    implies_true]

@[simp] theorem State.safStart_store (s : State) : (State.safStart s).store = s.store := by
  simp only [State.safStart, State.discWatch_store, State.setSaf_store, State.startTimer_store, foldl_store, implies_true]

@[simp] theorem State.pulseStart_store (s : State) (c : Nat) : (State.pulseStart s c).store = s.store := by
  simp only [State.pulseStart, State.elapseTo_store, State.setSaf_store, store_ite, ite_self]

@[simp] theorem State.pulseDone_store (s : State) (rb : Nat) : (State.pulseDone s rb).store = s.store := by
  unfold State.pulseDone
  (repeat' split) <;> first | rfl | simp only [State.addSat_store, State.crossShort_store, State.elapseTo_store, State.outFault_store,
    State.putReadback_store, State.setSaf_store]

@[simp] theorem State.readbackFault_store (s : State) (c : Nat) (high : Bool) : (State.readbackFault s c high).store = s.store := by
  unfold State.readbackFault
  dsimp only
  rw [store_ite, store_ite]
  split
  · rfl
  · split
    · cases spFind s.saf.offAt (c / 2) <;> dsimp only <;>
        simp only [State.outFault_store, State.set1_store, State.elapseTo_store, store_ite, ite_self]
    · split <;> simp only [State.crossShort_store, State.outFault_store, State.set0_store, store_ite, ite_self]

@[simp] theorem State.fenceD_store (s : State) (b : Block) : (State.fenceD s b).store = s.store := by
  unfold State.fenceD
  (repeat' split) <;> simp []

@[simp] theorem State.safFence_store (s : State) (alarm : Fld) : (State.safFence s alarm).store = s.store := by
  unfold State.safFence
  (repeat' split) <;> first | rfl | simp only [State.fenceD_store, State.set1_store]

@[simp] theorem State.safCrcCheck_store (s : State) : (State.safCrcCheck s).store = s.store := by
  simp only [State.safCrcCheck, State.expire_store, State.safFence_store, State.startTimer_store, State.wr_store, store_ite,
    ite_self]

@[simp] theorem execSafetyInputFiltered_store (n : Fin 8) (b level : Bool) (s : State) :
    (s.after (execSafetyInputFiltered n b level)).store = s.store := by
  simp only [State.after, execSafetyInputFiltered, done, State.msiSend_store, State.safLevel_store]

@[simp] theorem execSafetyScan_store (rb : BitVec 8) (s : State) : (s.after (execSafetyScan rb)).store = s.store := by
  simp only [State.after, execSafetyScan, done, State.msiSend_store, State.safetyScan_store]

@[simp] theorem execDiscrepancyTimeout_store (n : Fin 8) (s : State) : (s.after (execDiscrepancyTimeout n)).store = s.store := by
  simp only [State.after, execDiscrepancyTimeout, done, State.msiSend_store, State.discrepancy_store]

@[simp] theorem execTestPulseStart_store (c : Fin 8) (s : State) : (s.after (execTestPulseStart c)).store = s.store := by
  simp only [State.after, execTestPulseStart, done, State.msiSend_store, State.pulseStart_store]

@[simp] theorem execTestPulseEnd_store (rb : BitVec 8) (s : State) : (s.after (execTestPulseEnd rb)).store = s.store := by
  simp only [State.after, execTestPulseEnd, done, State.msiSend_store, State.pulseDone_store]

@[simp] theorem execReadbackTimeout_store (c : Fin 8) (high : Bool) (s : State) : (s.after (execReadbackTimeout c high)).store = s.store := by
  simp only [State.after, execReadbackTimeout, done, State.msiSend_store, State.readbackFault_store]

@[simp] theorem execSafetyPtest_store (m : Master) (s : State) : (s.after (execSafetyPtest m)).store = s.store := by
  simp only [State.after, execSafetyPtest, done, State.msiSend_store, State.gate_store, State.setSaf_store, implies_true]

@[simp] theorem execSafetyCopyMismatch_store (s : State) : (s.after (execSafetyCopyMismatch)).store = s.store := by
  simp only [State.after, execSafetyCopyMismatch, done, State.msiSend_store, State.safFence_store, store_ite, ite_self]

@[simp] theorem execSafetyCfgCrcCheck_store (s : State) : (s.after (execSafetyCfgCrcCheck)).store = s.store := by
  simp only [State.after, execSafetyCfgCrcCheck, done, State.msiSend_store, State.safCrcCheck_store]

@[simp] theorem execSafetyCompareTimeout_store (s : State) : (s.after (execSafetyCompareTimeout)).store = s.store := by
  simp only [State.after, execSafetyCompareTimeout, done, State.msiSend_store, State.compareTimeout_store]

@[simp] theorem execSafetyNetPermit_store (s : State) : (s.after (execSafetyNetPermit)).store = s.store := by
  simp only [State.after, execSafetyNetPermit, done, State.msiSend_store, State.takeCommand_store]

@[simp] theorem execSafetyNetDemand_store (s : State) : (s.after (execSafetyNetDemand)).store = s.store := by
  simp only [State.after, execSafetyNetDemand, done, State.msiSend_store, State.takeCommand_store]

@[simp] theorem execSafetyNetReset_store (s : State) : (s.after (execSafetyNetReset)).store = s.store := by
  simp only [State.after, execSafetyNetReset, done, State.msiSend_store, State.takeCommand_store]

@[simp] theorem execSafetyNetPtest_store (s : State) : (s.after (execSafetyNetPtest)).store = s.store := by
  simp only [State.after, execSafetyNetPtest, done, State.msiSend_store, State.takeCommand_store]

@[simp] theorem execNettmo_store (s : State) : (s.after (execNettmo)).store = s.store := by
  simp only [State.after, execNettmo, done, State.msiSend_store, State.netTimeout_store]

@[simp] theorem State.svValues_store (s : State) (st stamp : Nat) (a : SvAsdu) : (State.svValues s st stamp a).store = s.store := by
  simp only [State.svValues, State.pushQueue_store, State.putChannel_store, State.set0_store, foldl_store, store_ite, ite_self, implies_true]

@[simp] theorem State.svAsdu_store (s : State) (st stamp : Nat) (a : SvAsdu) : (State.svAsdu s st stamp a).store = s.store := by
  simp only [State.svAsdu, State.addSat_store, State.set1_store, State.setNet_store, State.startTimer_store, State.svValues_store,
    State.wr_store, store_ite, ite_self]

@[simp] theorem State.svTake_store (s : State) (st stamp : Nat) (a : SvAsdu) : (State.svTake s st stamp a).store = s.store := by
  unfold State.svTake
  (repeat' split) <;> simp [store_ite]

@[simp] theorem State.fenceSvs_store (s : State) (c : Nat) : (State.fenceSvs s c).store = s.store := by
  unfold State.fenceSvs
  (repeat' split) <;> first | rfl | simp only [State.errorB_store, State.resRecord_store, State.set0_store, State.set1_store, State.wr_store,
    foldl_store, implies_true]

@[simp] theorem State.heartbeatFrame_store (s : State) (h : Heartbeat) : (State.heartbeatFrame s h).store = s.store := by
  unfold State.heartbeatFrame
  (repeat' split) <;> first | rfl | simp only [State.ackIn_store, State.handoverIn_store, State.heartbeatIn_store, State.releaseIn_store,
    State.renewIn_store, State.snapshotIn_store]

@[simp] theorem State.putSeg_store (s : State) (g st : Nat) : (State.putSeg s g st).store = s.store := by
  simp only [State.putSeg, State.wr_store]

@[simp] theorem State.castArm_store (s : State) : (State.castArm s).store = s.store := by
  rw [State.castArm]
  (repeat' split) <;> first | rfl | simp only [State.putSeg_store, State.set1_store, State.setCst_store, State.wr_store, store_ite,
    ite_self, implies_true]

@[simp] theorem State.castTrigger_store (s : State) (ws : List Nat) : (State.castTrigger s ws).1.store = s.store := by
  simp only [State.castTrigger, State.setCst_store]

@[simp] theorem State.castEnd_store (s : State) (c : Cast) (trunc : Bool) : (State.castEnd s c trunc).store = s.store := by
  simp only [State.castEnd, State.putSeg_store, State.setCst_store, State.wr_store]

@[simp] theorem State.castLost_store (s : State) : (State.castLost s).store = s.store := by
  rw [State.castLost]
  (repeat' split) <;> first | rfl | simp only [State.addSat_store, State.set1_store, State.setCst_store, store_ite, ite_self,
    implies_true]

@[simp] theorem State.cstStopped_store (s : State) : (State.cstStopped s).store = s.store := by
  simp only [State.cstStopped, State.wr_store, store_ite, ite_self]

@[simp] theorem State.fenceCst_store (s : State) (k : Nat) : (State.fenceCst s k).store = s.store := by
  unfold State.fenceCst
  repeat' (first | rfl | split | simp only [State.castEnd_store, State.errorB_store, State.resRecord_store, State.set1_store, State.setCst_store,
    State.wr_store])

@[simp] theorem State.castRearm_store (s : State) : (State.castRearm s).store = s.store := by
  simp only [State.castRearm, State.castArm_store, State.castLost_store, State.setCst_store, store_ite, ite_self]

@[simp] theorem State.castRequest_store (s : State) (ncast : Nat) (ovw : Bool) : (State.castRequest s ncast ovw).store = s.store := by
  simp only [State.castRequest, State.castArm_store, State.setCst_store, State.wr_store, store_ite, ite_self]

@[simp] theorem State.castRelease_store (s : State) (m : Master) (g : Nat) : (State.castRelease s m g).store = s.store := by
  simp only [State.castRelease, State.castRearm_store, State.perr_store, State.putSeg_store, store_ite, ite_self]

@[simp] theorem State.castHold_store (s : State) (m : Master) (g : Nat) : (State.castHold s m g).store = s.store := by
  simp only [State.castHold, State.perr_store, State.putSeg_store, store_ite, ite_self]

@[simp] theorem State.castStop_store (s : State) : (State.castStop s).store = s.store := by
  rw [State.castStop]
  split <;> simp only [State.cstStopped_store, State.putSeg_store, State.setCst_store, State.wr_store, store_ite, ite_self
    ]

@[simp] theorem State.castStart_store (s : State) (resume : Bool) : (State.castStart s resume).store = s.store := by
  simp only [State.castStart, State.castArm_store, State.setCst_store, State.wr_store, store_ite, ite_self]

@[simp] theorem execCastRearm_store (s : State) : (s.after (execCastRearm)).store = s.store := by
  simp only [State.after, execCastRearm, done, State.msiSend_store, State.castRearm_store]

@[simp] theorem execCastArm_store (m : Master) (ncast : BitVec 12) (ovw : Bool) (s : State) :
    (s.after (execCastArm m ncast ovw)).store = s.store := by
  simp only [State.after, execCastArm, done, State.msiSend_store, State.castRequest_store, State.gate_store, implies_true]

@[simp] theorem execSwtrig_store (m : Master) (s : State) : (s.after (execSwtrig m)).store = s.store := by
  simp only [State.after, execSwtrig, done, State.msiSend_store, State.castEvent_store, State.gate_store, implies_true]

@[simp] theorem execCstHold_store (m : Master) (seg : BitVec 12) (s : State) : (s.after (execCstHold m seg)).store = s.store := by
  simp only [State.after, execCstHold, done, State.msiSend_store, State.castHold_store, State.gate_store, implies_true]

@[simp] theorem execCstRel_store (m : Master) (seg : BitVec 12) (s : State) : (s.after (execCstRel m seg)).store = s.store := by
  simp only [State.after, execCstRel, done, State.msiSend_store, State.castRelease_store, State.gate_store, implies_true]

@[simp] theorem State.putPort_store (s : State) (p : Nat) (x : LnkPort) : (State.putPort s p x).store = s.store := by
  simp only [State.putPort, State.setLnk_store]

@[simp] theorem State.putPt_store (s : State) (g : Nat) (x : PtNode) : (State.putPt s g x).store = s.store := by
  simp only [State.putPt, State.setLnk_store]

@[simp] theorem State.tryAlign_store (s : State) (p : Nat) : (State.tryAlign s p).store = s.store := by
  unfold State.tryAlign
  (repeat' split) <;> first | rfl | simp only [State.wr_store, foldl_store, store_ite, ite_self, implies_true]

@[simp] theorem State.linkFrame_store (s : State) : (State.linkFrame s).store = s.store := by
  simp only [State.linkFrame, State.putPort_store, State.tryAlign_store, foldl_store, store_ite, ite_self, implies_true]

@[simp] theorem State.countPend_store (s : State) (p : Nat) : (State.countPend s p).store = s.store := by
  simp only [State.countPend, State.wr_store]

@[simp] theorem State.placeOp_store (s : State) (p j : Nat) (active : Bool) : (State.placeOp s p j active).1.store = s.store := by
  rw [State.placeOp]
  dsimp only
  (repeat' split) <;> first | rfl | simp only [State.countPend_store, State.putPt_store, store_ite, ite_self, implies_true]

@[simp] theorem State.commandRead_store (s : State) (g : Nat) : (State.commandRead s g).store = s.store := by
  unfold State.commandRead
  (repeat' split) <;> simp [store_ite]

@[simp] theorem State.bufferRead_store (s : State) (p j : Nat) : (State.bufferRead s p j).1.store = s.store := by
  unfold State.bufferRead
  (repeat' split) <;> simp [store_ite]

@[simp] theorem State.launchSlot_store (p : Nat) (active : Bool) (bad : List Nat) (x : State × List (List Nat)) (j : Nat) :
    (State.launchSlot p active bad x j).1.store = x.1.store := by
  simp only [State.launchSlot, State.errorB_store, State.resRecord_store, State.set1_store, State.placeOp_store, State.bufferRead_store,
    State.commandRead_store, store_ite, ite_self]

@[simp] theorem State.bufferSent_store (s : State) (p : Nat) : (State.bufferSent s p).store = s.store := by
  unfold State.bufferSent
  (repeat' split) <;> first | rfl | simp only [State.cleanWords_store, State.setLnk_store, foldl_store, store_ite, ite_self, implies_true]

@[simp] theorem State.launch_store (s : State) (p : Nat) (bad : List Nat) : (State.launch s p bad).store = s.store := by
  rw [State.launch]
  split
  · rfl
  · dsimp only
    simp only [State.emit_store, State.wr_store, State.putPort_store, State.bufferSent_store]
    rw [foldl_fst_store]
    · simp only [State.drawn_store, State.leaseCheck_store, State.elapseToDevice_store]
    · intro x j; exact State.launchSlot_store ..

@[simp] theorem State.endStage_store (s : State) (p g : Nat) : (State.endStage s p g).store = s.store := by
  unfold State.endStage
  (repeat' split) <;> first | rfl | simp only [State.putPt_store, store_ite, ite_self]

@[simp] theorem State.endStages_store (s : State) (p : Nat) : (State.endStages s p).store = s.store := by
  unfold State.endStages
  (repeat' split) <;> first | rfl | simp only [State.endStage_store, foldl_store, implies_true]

@[simp] theorem State.startStage_store (s : State) (p g : Nat) : (State.startStage s p g).store = s.store := by
  unfold State.startStage
  (repeat' split) <;> first | rfl | simp only [State.endStage_store, State.putPt_store, store_ite, ite_self]

@[simp] theorem State.lnkError_store (s : State) (p : Nat) : (State.lnkError s p).store = s.store := by
  unfold State.lnkError
  (repeat' split) <;> first | rfl | simp only [State.endStages_store, State.wr_store]

@[simp] theorem State.idError_store (s : State) (p kind pos : Nat) : (State.idError s p kind pos).store = s.store := by
  simp only [State.idError, State.lnkError_store, State.set1_store, State.wr_store, store_ite, ite_self]

@[simp] theorem State.startAdmit_store (p : Nat) (s : State) (j : Nat) : (State.startAdmit p s j).store = s.store := by
  simp only [State.startAdmit, State.putPt_store, store_ite, ite_self]

@[simp] theorem State.lnkSettle_store (s : State) (p : Nat) : (State.lnkSettle s p).store = s.store := by
  simp only [State.lnkSettle, State.startAdmit_store, State.wr_store, foldl_store, store_ite, ite_self, implies_true]

@[simp] theorem State.stageReply_store (s : State) (p j : Nat) (ok : Bool) : (State.stageReply s p j ok).store = s.store := by
  rw [State.stageReply]
  split <;> simp only [State.idError_store, State.putPt_store, State.set1_store, State.startAdmit_store, store_ite, ite_self
    ]

@[simp] theorem State.pointErr_store (s : State) (p kind a : Nat) : (State.pointErr s p kind a).store = s.store := by
  simp only [State.pointErr, State.wr_store]

@[simp] theorem State.telemetry_store (s : State) (g st vcap aux : Nat) : (State.telemetry s g st vcap aux).store = s.store := by
  simp only [State.telemetry, State.set0_store, State.set1_store, State.setMod_store, State.wr_store, store_ite, ite_self
    ]

@[simp] theorem State.epochLow_store (s : State) (g st : Nat) : (State.epochLow s g st).store = s.store := by
  simp only [State.epochLow, State.putPt_store, State.set1_store, store_ite, ite_self]

@[simp] theorem State.returning_store (s : State) (p j st : Nat) : (State.returning s p j st).store = s.store := by
  unfold State.returning
  (repeat' split) <;> first | rfl | simp only [State.putPt_store, State.startStage_store, store_ite, ite_self]

@[simp] theorem State.shadowAlign_store (s : State) (p h : Nat) : (State.shadowAlign s p h).store = s.store := by
  simp only [State.shadowAlign, State.set0_store, State.set1_store, State.setMir_store, State.wr_store, store_ite, ite_self
    ]

@[simp] theorem State.partnerFrame_store (s : State) (p h : Nat) : (State.partnerFrame s p h).store = s.store := by
  simp only [State.partnerFrame, State.higherEpoch_store, State.seeEpoch_store, State.seePartner_store, State.setMir_store,
    State.shadowAlign_store, store_ite, ite_self]

@[simp] theorem State.reach_store (s : State) (p h rt : Nat) : (State.reach s p h rt).store = s.store := by
  simp only [State.reach, State.putPort_store, State.set1_store, State.wr_store, store_ite, ite_self]

@[simp] theorem State.badFrame_store (s : State) (p : Nat) : (State.badFrame s p).store = s.store := by
  simp only [State.badFrame, State.addSat_store, State.putPort_store, State.set1_store]

@[simp] theorem State.swapError_store (s : State) (p : Nat) : (State.swapError s p).store = s.store := by
  simp only [State.swapError, State.lnkError_store, State.set1_store]

@[simp] theorem State.rxAlign_store (s : State) (p : Nat) (invert : Bool) : (State.rxAlign s p invert).store = s.store := by
  unfold State.rxAlign
  (repeat' split) <;> first | rfl | simp only [State.putPort_store, State.tryAlign_store, State.wr_store]

@[simp] theorem State.rxLos_store (s : State) (p : Nat) : (State.rxLos s p).store = s.store := by
  unfold State.rxLos
  (repeat' split) <;> first | rfl | simp only [State.endStages_store, State.putPort_store, State.set1_store, State.wr_store, store_ite, ite_self]

@[simp] theorem State.rangeEnd_store (s : State) (p : Nat) : (State.rangeEnd s p).store = s.store := by
  unfold State.rangeEnd
  (repeat' split) <;> first | rfl | simp only [State.endStages_store, State.lnkError_store, State.lnkSettle_store, State.putPort_store,
    State.set0_store, State.set1_store, State.startStage_store, State.wr_store, foldl_store, store_ite, ite_self, implies_true]

@[simp] theorem State.bringUp_store (s : State) (p : Nat) : (State.bringUp s p).store = s.store := by
  unfold State.bringUp
  (repeat' split) <;> first | rfl | simp only [State.endStage_store, State.putPort_store, State.set0_store, State.wr_store, foldl_store, implies_true]

@[simp] theorem State.linkBegin_store (s : State) (p : Nat) : (State.linkBegin s p).store = s.store := by
  unfold State.linkBegin
  (repeat' split) <;> first | rfl | simp only [State.bringUp_store, State.putPort_store]

@[simp] theorem execLinkFrameLaunch_store (p : Fin 32) (bad : List (Fin 512)) (s : State) :
    (s.after (execLinkFrameLaunch p bad)).store = s.store := by
  simp only [State.after, execLinkFrameLaunch, done, State.msiSend_store, State.launch_store]

@[simp] theorem execLinkRxAlign_store (p : Fin 32) (invert : Bool) (s : State) : (s.after (execLinkRxAlign p invert)).store = s.store := by
  simp only [State.after, execLinkRxAlign, done, State.msiSend_store, State.rxAlign_store]

@[simp] theorem execLinkRxLos_store (p : Fin 32) (s : State) : (s.after (execLinkRxLos p)).store = s.store := by
  simp only [State.after, execLinkRxLos, done, State.msiSend_store, State.rxLos_store]

@[simp] theorem execLinkRangeStart_store (p : Fin 32) (s : State) : (s.after (execLinkRangeStart p)).store = s.store := by
  simp only [State.after, execLinkRangeStart, done, State.msiSend_store, State.putPort_store, State.wr_store, store_ite, ite_self
    ]

@[simp] theorem execLinkIdcheckStart_store (p : Fin 32) (s : State) : (s.after (execLinkIdcheckStart p)).store = s.store := by
  simp only [State.after, execLinkIdcheckStart, done, State.msiSend_store, State.rangeEnd_store]

@[simp] theorem execRestart_store (m : Master) (p : Fin 32) (s : State) : (s.after (execRestart m p)).store = s.store := by
  rw [State.afterDone_store s _ _ (execRestart.eq_1 m p s)]
  exact State.gate_store _ _ _ _ _ fun s => State.bringUp_store ..

@[simp] theorem execLinkBreak_store (p : Fin 32) (s : State) : (s.after (execLinkBreak p)).store = s.store := by
  simp only [State.after, execLinkBreak, done, State.msiSend_store, State.putPort_store, State.set1_store, State.wr_store, store_ite,
    ite_self]

@[simp] theorem execLinkSwapDetected_store (p : Fin 32) (s : State) : (s.after (execLinkSwapDetected p)).store = s.store := by
  simp only [State.after, execLinkSwapDetected, done, State.msiSend_store, State.swapError_store, store_ite, ite_self]

@[simp] theorem execPointMirrorWrite_store (m : Master) (a : BitVec 18) (v : Word) (s : State) :
    (s.after (execPointMirrorWrite m a v)).store = s.store := by
  simp only [State.after, execPointMirrorWrite, done, State.msiSend_store, State.countPend_store, State.gate_store, State.perr_store,
    State.pointErr_store, State.putPt_store, State.set1_store, store_ite, ite_self, implies_true]

@[simp] theorem execPointReplyTimeout_store (j : Fin 8192) (s : State) : (s.after (execPointReplyTimeout j)).store = s.store := by
  rw [State.afterDone_store s _ _ (execPointReplyTimeout.eq_1 j s)]
  dsimp only
  (repeat' split) <;>
    simp only [State.putPt_store, State.set1_store, State.pointErr_store, State.addSat_store, State.stageReply_store,
      State.lnkSettle_store]

@[simp] theorem State.setOn_store (s : State) (r : Region) (on : Bool) : (State.setOn s r on).store = s.store := by
  simp only [State.setOn, State.wrBit_store]

@[simp] theorem State.lnkReset_store (s : State) (a : Bool) : (State.lnkReset s a).store = s.store := by
  simp only [State.lnkReset, State.setLnk_store]

@[simp] theorem State.innerReset_store (s : State) (r : Region) : (State.innerReset s r).store = s.store := by
  cases r <;> simp only [State.innerReset, State.lnkReset_store, State.setAcq_store, State.setAng_store, State.setArm_store,
    State.setBrg_store, State.setBst_store, State.setClk_store, State.setCst_store, State.setFrm_store, State.setMir_store,
    State.setMod_store, State.setMqt_store, State.setNet_store, State.setPrf_store, State.setSaf_store, State.setSup_store,
    State.svUnbound_store, State.wr_store]

@[simp] theorem State.linksLost_store (s : State) : (State.linksLost s).store = s.store := by
  simp only [State.linksLost, State.masterReset_store, State.semMasterReset_store, store_ite, ite_self]

@[simp] theorem State.resetRegion_store (s : State) (r : Region) : (State.resetRegion s r).store = s.store := by
  unfold State.resetRegion
  (repeat' split) <;> first | rfl | simp only [State.innerReset_store, State.linksLost_store, State.regsOfRegion_store, State.setLatch_store,
    State.setSup_store]

@[simp] theorem State.isolate_store (s : State) (r : Region) : (State.isolate s r).store = s.store := by
  simp only [State.isolate, State.resetRegion_store, State.setOn_store, State.wr_store, store_ite, ite_self]

@[simp] theorem State.powerUp_store (s : State) (r : Region) : (State.powerUp s r).store = s.store := by
  simp only [State.powerUp, State.resetRegion_store, State.setOn_store, State.wrBit_store]

@[simp] theorem State.loseRegion_store (s : State) (r : Region) (kind detail addr : Nat) :
    (State.loseRegion s r kind detail addr).store = s.store := by
  simp only [State.loseRegion, State.classDError_store, State.errorRec_store, State.isolate_store, State.wrBit_store, store_ite,
    ite_self]

@[simp] theorem State.dmaShow_store (s : State) : (State.dmaShow s).store = s.store := by
  unfold State.dmaShow
  (repeat' split) <;> first | rfl | simp only [State.wr_store, foldl_store, store_ite, ite_self, implies_true]

@[simp] theorem State.dmaHalt_store (s : State) (c : Nat) : (State.dmaHalt s c).store = s.store := by
  simp only [State.dmaHalt, State.setSup_store, State.wr_store, store_ite, ite_self]

@[simp] theorem State.dmaStopped_store (s : State) : (State.dmaStopped s).store = s.store := by
  simp only [State.dmaStopped, State.dmaHalt_store, State.dmaShow_store, State.wr_store, foldl_store, implies_true]

@[simp] theorem State.netStopped_store (s : State) : (State.netStopped s).store = s.store := by
  simp only [State.netStopped, State.wr_store, store_ite, ite_self]

@[simp] theorem State.netReport_store (s : State) : (State.netReport s).store = s.store := by
  unfold State.netReport
  (repeat' split) <;> first | rfl | simp only [State.netStopped_store, State.wr_store]

@[simp] theorem State.blockOff_store (s : State) (b : Block) : (State.blockOff s b).store = s.store := by
  cases b <;> simp only [State.blockOff, State.allOutsOff_store, State.angStop_store, State.pairsOff_store, State.prfHold_store,
    State.set0_store, State.setFrm_store, State.wr_store]

@[simp] theorem State.sramSeen_store (s : State) (a n : Nat) : (State.sramSeen s a n).store = s.store := by
  simp only [State.sramSeen, State.wordSeen_store, foldl_store, implies_true]

@[simp] theorem State.mqtFail_store (s : State) (phase : Nat) (f : ImgFail) : (State.mqtFail s phase f).store = s.store := by
  simp only [State.mqtFail, State.wr_store]

@[simp] theorem State.loadPins_store (s : State) (b : List Nat) : (State.loadPins s b).store = s.store := by
  simp only [State.loadPins, State.setPins_store]

@[simp] theorem State.loadClocks_store (s : State) (b : List Nat) : (State.loadClocks s b).store = s.store := by
  simp only [State.loadClocks, State.commitInc_store, State.set1_store, State.wr_store]

@[simp] theorem State.loadPort_store (t : Nat) (b : List Nat) (s : State) (p : Nat) : (State.loadPort t b s p).store = s.store := by
  rw [State.loadPort]
  dsimp only
  refine (foldl_store _ _ _ fun s j => ?_).trans ?_
  · split <;> simp only [State.wr_store]
  · simp only [State.wr_store, State.loadWord_store]

@[simp] theorem State.pairEnds_store (s : State) : (State.pairEnds s).store = s.store := by
  simp only [State.pairEnds, State.wr_store, foldl_store, store_ite, ite_self, implies_true]

@[simp] theorem State.loadPorts_store (t : Nat) (b : List Nat) (a : Bool) (s : State) : (State.loadPorts t b a s).store = s.store := by
  simp only [State.loadPorts, State.loadPort_store, State.pairEnds_store, foldl_store, implies_true]

@[simp] theorem State.loadArms_store (b : List Nat) (s : State) : (State.loadArms b s).store = s.store := by
  rw [State.loadArms]
  refine (foldl_store _ _ _ fun s a => State.cpsStored_store s a).trans ((foldl_store _ _ _ fun s x => ?_).trans
    (foldl_store _ _ _ fun s a => foldl_store _ _ _ fun s e => foldl_store _ _ _ fun s f => ?_))
  · simp only [State.wr_store, State.set1_store]
  · simp only [State.wr_store]

@[simp] theorem State.loadGraph_store (b : List Nat) (s : State) : (State.loadGraph b s).store = s.store := by
  simp only [State.loadGraph, State.setArm_store, State.setUpset_store, State.wr_store, State.wrBit_store, foldl_store, implies_true]

@[simp] theorem State.loadImage_store (b : List Nat) (s : State) : (State.loadImage b s).store = s.store := by
  simp only [State.loadImage, State.loadWord_store, foldl_store, implies_true]

@[simp] theorem State.loadIbase_store (s : State) : (State.loadIbase s).store = s.store := by
  simp only [State.loadIbase, State.wr_store, store_ite, ite_self]

@[simp] theorem State.loadForm_store (b : List Nat) (s : State) : (State.loadForm b s).store = s.store := by
  simp only [State.loadForm, State.loadIbase_store, State.loadImage_store]

@[simp] theorem State.loadSafe_store (b : List Nat) (s : State) : (State.loadSafe b s).store = s.store := by
  simp only [State.loadSafe, State.blockStart_store, State.loadWord_store, State.safStart_store, State.setSaf_store, State.wr_store,
    foldl_store, implies_true]

@[simp] theorem State.loadNet_store (b topo graph : List Nat) (s : State) : (State.loadNet b topo graph s).store = s.store := by
  simp only [State.loadNet, State.loadImage_store, State.pairEnds_store, State.setMir_store, State.setMqt_store, State.svUnbound_store,
    State.wr_store]

@[simp] theorem State.loadMbx_store (b : List Nat) (s : State) : (State.loadMbx b s).store = s.store := by
  simp only [State.loadMbx, State.loadWord_store, foldl_store, implies_true]

@[simp] theorem State.loadPolicy_store (b : List Nat) (s : State) : (State.loadPolicy b s).store = s.store := by
  simp only [State.loadPolicy, State.setPolicy_store]

@[simp] theorem State.loadRegions_store (pwr : Nat) (s : State) : (State.loadRegions pwr s).store = s.store := by
  simp only [State.loadRegions, State.isolate_store, State.powerUp_store, State.wrBit_store, foldl_store, store_ite, ite_self,
    implies_true]

@[simp] theorem State.loadRecord_store (s : State) (l : List Nat) (place : Nat) : (State.loadRecord s l place).store = s.store := by
  simp only [State.loadRecord, State.set1_store, State.setMqt_store, State.wr_store, foldl_store, store_ite, ite_self, implies_true]

@[simp] theorem State.tamperSee_store (s : State) (n : Nat) : (State.tamperSee s n).store = s.store := by
  unfold State.tamperSee
  (repeat' split) <;> first | rfl | simp only [State.lockDue_store, State.set1_store, State.setCtl_store, State.setMqt_store, State.wr_store,
    store_ite, ite_self]

@[simp] theorem State.loadAll_store (s : State) (l : List Nat) (place : Nat) : (State.loadAll s l place).store = s.store := by
  unfold State.loadAll
  (repeat' split) <;> first | rfl | simp only [State.loadArms_store, State.loadClocks_store, State.loadForm_store, State.loadGraph_store,
    State.loadImage_store, State.loadMbx_store, State.loadNet_store, State.loadPins_store, State.loadPolicy_store, State.loadPorts_store,
    State.loadRecord_store, State.loadRegions_store, State.loadSafe_store, State.setFuses_store, State.setMode_store, State.setSup_store,
    State.tamperSee_store, State.wr_store, store_ite, ite_self]

@[simp] theorem State.tryLoad_store (s : State) (place n : Nat) (readable : Bool) : (State.tryLoad s place n readable).1.store = s.store := by
  rw [State.tryLoad]
  dsimp only
  (repeat' split) <;> first | rfl | simp only [State.loadAll_store]

@[simp] theorem State.setSrc_store (s : State) (host uart : Bool) : (State.setSrc s host uart).store = s.store := by
  simp only [State.setSrc, State.wr_store]

@[simp] theorem State.loadStays_store (s : State) : (State.loadStays s).store = s.store := by
  simp only [State.loadStays, State.powerUp_store, State.setMqt_store, store_ite, ite_self]

@[simp] theorem State.loadStagedImage_store (s : State) (n : Nat) : (State.loadStagedImage s n).store = s.store := by
  simp only [State.loadStagedImage, State.sramSeen_store, State.loadStays_store, State.set1_store, State.setSrc_store, State.tryLoad_store, store_ite,
    ite_self]

@[simp] theorem State.loadFlash_store (s : State) (ok okFallback : Bool) : (State.loadFlash s ok okFallback).store = s.store := by
  simp only [State.loadFlash, State.loadStays_store, State.set1_store, State.setSrc_store, State.tryLoad_store, store_ite, ite_self
    ]

@[simp] theorem State.bootLoad_store (s : State) (ok okFallback : Bool) : (State.bootLoad s ok okFallback).store = s.store := by
  rw [State.bootLoad]
  (repeat' split) <;> first | rfl | simp only [State.loadFlash_store, State.loadStagedImage_store]

@[simp] theorem execMaquetteLoad_store (ok okFallback : Bool) (s : State) : (s.after (execMaquetteLoad ok okFallback)).store = s.store := by
  simp only [State.after, execMaquetteLoad, done, State.msiSend_store, State.bootLoad_store]

@[simp] theorem State.srcFail_store (s : State) : (State.srcFail s).store = s.store := by
  simp only [State.srcFail, State.loadStays_store, State.mqtFail_store]

@[simp] theorem State.imageArrived_store (s : State) (n : Nat) (uart : Bool) : (State.imageArrived s n uart).store = s.store := by
  simp only [State.imageArrived, State.setMqt_store, State.srcFail_store, store_ite, ite_self]

@[simp] theorem execMqtHostgo_store (m : Master) (len : Word) (s : State) : (s.after (execMqtHostgo m len)).store = s.store := by
  simp only [State.after, execMqtHostgo, done, State.msiSend_store, State.gate_store, State.imageArrived_store, State.perr_store,
    store_ite, ite_self, implies_true]

@[simp] theorem execUartImageGapTimeout_store (s : State) : (s.after (execUartImageGapTimeout)).store = s.store := by
  simp only [State.after, execUartImageGapTimeout, done, State.msiSend_store, State.srcFail_store, store_ite, ite_self]

@[simp] theorem State.rewrite_store (s : State) (r : Region) : (State.rewrite s r).store = s.store := by
  unfold State.rewrite
  split <;> simp only [State.loadArms_store, State.loadClocks_store, State.loadForm_store, State.loadGraph_store,
    State.loadImage_store, State.loadMbx_store, State.loadNet_store, State.loadPins_store, State.loadPorts_store,
    State.loadSafe_store]

@[simp] theorem State.reloadRegion_store (s : State) (r : Region) : (State.reloadRegion s r).store = s.store := by
  unfold State.reloadRegion
  (repeat' split) <;> first | rfl | simp only [State.claimStart_store, State.loseRegion_store, State.mqtFail_store, State.rewrite_store,
    State.set1_store, State.setOn_store, State.wr_store, store_ite, ite_self]

@[simp] theorem State.putLstage_store (s : State) (n : Nat) : (State.putLstage s n).store = s.store := by
  simp only [State.putLstage, State.wr_store]

@[simp] theorem State.liveAbort_store (s : State) : (State.liveAbort s).store = s.store := by
  simp only [State.liveAbort, State.mqtFail_store, State.putLstage_store, State.set1_store, State.setMqt_store, store_ite, ite_self
    ]

@[simp] theorem State.liveAbortFor_store (s : State) (r : Region) : (State.liveAbortFor s r).store = s.store := by
  rw [State.liveAbortFor]
  split <;> simp only [State.liveAbort_store, store_ite, ite_self]

@[simp] theorem execStage_store (m : Master) (s : State) : (s.after (execStage m)).store = s.store := by
  simp only [State.after, execStage, done, State.msiSend_store, State.gate_store, State.perr_store, State.putLstage_store,
    State.setMqt_store, store_ite, ite_self, implies_true]

@[simp] theorem State.liveChecked_store (s : State) : (State.liveChecked s).store = s.store := by
  rw [State.liveChecked]
  dsimp only
  (repeat' split) <;> first | rfl | simp only [State.sramSeen_store, State.mqtFail_store, State.putLstage_store, State.set1_store, State.setMqt_store]

@[simp] theorem execStageCheckComplete_store (s : State) : (s.after (execStageCheckComplete)).store = s.store := by
  simp only [State.after, execStageCheckComplete, done, State.msiSend_store, State.liveChecked_store]

@[simp] theorem State.commitAsked_store (s : State) : (State.commitAsked s).store = s.store := by
  unfold State.commitAsked
  (repeat' split) <;> first | rfl | simp only [State.putLstage_store, State.setMqt_store, foldl_store, store_ite, ite_self, implies_true]

@[simp] theorem execCommit_store (m : Master) (s : State) : (s.after (execCommit m)).store = s.store := by
  simp only [State.after, execCommit, done, State.msiSend_store, State.commitAsked_store, State.gate_store, State.perr_store, store_ite, ite_self,
    implies_true]

@[simp] theorem execCancel_store (m : Master) (s : State) : (s.after (execCancel m)).store = s.store := by
  simp only [State.after, execCancel, done, State.msiSend_store, State.gate_store, State.perr_store, State.putLstage_store,
    State.setMqt_store, store_ite, ite_self, implies_true]

@[simp] theorem State.liveWrite_store (s : State) (b : List Nat) : (State.liveWrite s b).store = s.store := by
  unfold State.liveWrite
  (repeat' split) <;> first | rfl | simp only [State.loadWord_store, State.seqctrlWrite_store, State.wr_store, foldl_store, store_ite, ite_self,
    implies_true]

@[simp] theorem State.liveCommit_store (s : State) : (State.liveCommit s).store = s.store := by
  rw [State.liveCommit]
  split
  · rfl
  · rename_i x _
    rcases hf : x.form with _ | b <;> rcases hp : x.prot with _ | c <;> dsimp only <;>
      simp only [State.liveWrite_store, State.protNew_store, State.putLstage_store, State.set1_store, State.setMqt_store, State.wr_store,
        store_ite, ite_self]

@[simp] theorem State.fuseCmd_store (s : State) (m : Master) (cmd arg : Nat) (ok : State → Bool) :
    (State.fuseCmd s m cmd arg ok).store = s.store := by
  simp only [State.fuseCmd, State.gate_store, State.perr_store, State.set1_store, State.setMqt_store, store_ite, ite_self,
    implies_true]

@[simp] theorem execArbCommit_store (m : Master) (s : State) : (s.after (execArbCommit m)).store = s.store := by
  simp only [State.after, execArbCommit, done, State.msiSend_store, State.fuseCmd_store]

@[simp] theorem execKeyRevoke_store (m : Master) (slot : Fin 4) (s : State) : (s.after (execKeyRevoke m slot)).store = s.store := by
  simp only [State.after, execKeyRevoke, done, State.msiSend_store, State.fuseCmd_store]

@[simp] theorem execKeyProgram_store (m : Master) (slot : Fin 4) (s : State) : (s.after (execKeyProgram m slot)).store = s.store := by
  simp only [State.after, execKeyProgram, done, State.msiSend_store, State.fuseCmd_store]

@[simp] theorem execClose_store (m : Master) (s : State) : (s.after (execClose m)).store = s.store := by
  simp only [State.after, execClose, done, State.msiSend_store, State.fuseCmd_store]

@[simp] theorem execFuseCommandComplete_store (bad : BitVec 257) (s : State) :
    (s.after (execFuseCommandComplete bad)).store = s.store := by
  rw [State.afterDone_store s _ _ (execFuseCommandComplete.eq_1 bad s)]
  dsimp only
  (repeat' split) <;> simp only [State.set1_store, State.set0_store, State.setMqt_store, State.setFuses_store]

@[simp] theorem State.coreDebug_store (s : State) (op : DebugOp) : (State.coreDebug s op).store = s.store := by
  unfold State.coreDebug
  (repeat' split) <;> first | rfl | simp only [State.setSup_store, State.wr_store, store_ite, ite_self]

@[simp] theorem execJtagInstruction_store (i : Jtag) (s : State) : (s.after (execJtagInstruction i)).store = s.store := by
  simp only [State.after, execJtagInstruction, done, State.msiSend_store]
  split <;> simp only [State.coreDebug_store, State.setPins_store, store_ite, ite_self]

@[simp] theorem State.refuse_store (s : State) (m target cause : Nat) : (State.refuse s m target cause).store = s.store := by
  simp only [State.refuse, State.perr_store, State.set1_store, State.wr_store]

@[simp] theorem State.modeRequest_store (s : State) (m target : Nat) : (State.modeRequest s m target).store = s.store := by
  simp only [State.modeRequest, State.lockDue_store, State.refuse_store, State.set1_store, State.setCtl_store, State.wr_store,
    store_ite, ite_self]

@[simp] theorem execModeRequest_store (m : Master) (target : Fin 16) (s : State) : (s.after (execModeRequest m target)).store = s.store := by
  simp only [State.after, execModeRequest, done, State.msiSend_store, State.gate_store, State.modeRequest_store, implies_true]

@[simp] theorem State.claimFrame_store (s : State) : (State.claimFrame s).store = s.store := by
  unfold State.claimFrame
  (repeat' split) <;> first | rfl | simp only [State.blackStart_store, State.claimStart_store, State.setSub_store, State.startTimer_store,
    State.stopTimer_store, State.timeWhile_store, store_ite, ite_self]

@[simp] theorem State.requestDone_store (s : State) : (State.requestDone s).store = s.store := by
  simp only [State.requestDone, State.set0_store, State.setCtl_store]

@[simp] theorem State.tripEntry_store (s : State) : (State.tripEntry s).store = s.store := by
  simp only [State.tripEntry, State.set0_store, State.setCtl_store, State.setMode_store, store_ite, ite_self]

@[simp] theorem State.readyTrip_store (s : State) : (State.readyTrip s).store = s.store := by
  unfold State.readyTrip
  (repeat' split) <;> first | rfl | simp only [State.requestDone_store, State.trip_store]

@[simp] theorem State.requestGrant_store (s : State) (t : Nat) : (State.requestGrant s t).store = s.store := by
  unfold State.requestGrant
  (repeat' split) <;> first | rfl | simp only [State.requestDone_store, State.setMode_store, State.singleClaim_store, State.toShadow_store,
    State.wr_store]

@[simp] theorem State.judgeRequest_store (s old : State) : (State.judgeRequest s old).store = s.store := by
  unfold State.judgeRequest
  (repeat' split) <;> first | rfl | simp only [State.refuse_store, State.requestDone_store, State.requestGrant_store, State.trip_store, store_ite,
    ite_self]

@[simp] theorem State.testCut_store (s : State) : (State.testCut s).store = s.store := by
  simp only [State.testCut, State.set1_store, State.setBst_store, State.setCtl_store, State.wr_store, store_ite, ite_self
    ]

@[simp] theorem execRefclkLost_store (s : State) : (s.after (execRefclkLost)).store = s.store := by
  simp only [State.after, execRefclkLost, done, State.msiSend_store, State.errorRec_store, State.lockDue_store, State.setCtl_store,
    store_ite, ite_self]

@[simp] theorem execPllLock_store (p : Pll) (s : State) : (s.after (execPllLock p)).store = s.store := by
  simp only [State.after, execPllLock, done, State.msiSend_store, State.coreStartAt_store, State.setCtl_store, store_ite, ite_self
    ]

@[simp] theorem execPllLossOfLock_store (p : Pll) (s : State) : (s.after (execPllLossOfLock p)).store = s.store := by
  simp only [State.after, execPllLossOfLock, done, State.msiSend_store, State.classDError_store, State.errorRec_store,
    State.loseRegion_store, State.setCtl_store, store_ite, ite_self]

@[simp] theorem State.bootCause_store (s : State) (c : Nat) : (State.bootCause s c).store = s.store := by
  simp only [State.bootCause, State.wr_store]

@[simp] theorem State.lnkStop_store (s : State) (p : Nat) : (State.lnkStop s p).store = s.store := by
  simp only [State.lnkStop, State.wr_store, store_ite, ite_self]

@[simp] theorem execHib_store (m : Master) (key : BitVec 16) (s : State) : (s.after (execHib m key)).store = s.store := by
  simp only [State.after, execHib, done, State.msiSend_store, State.gate_store, State.lnkStop_store, State.perr_store,
    State.setCtl_store, State.startTimer_store, foldl_store, store_ite, ite_self, implies_true]

@[simp] theorem execWake_store (level : Bool) (s : State) : (s.after (execWake level)).store = s.store := by
  simp only [State.after, execWake, done, State.msiSend_store, State.bootCause_store, State.expire_store, State.setCtl_store,
    State.stopTimer_store, State.wr_store, store_ite, ite_self]

@[simp] theorem State.enClear_store (s : State) (b : Block) : (State.enClear s b).store = s.store := by
  rw [State.enClear]
  (repeat' split) <;> first | rfl | simp only [State.blockOff_store, State.castStop_store, State.dmaStopped_store, State.netStopped_store,
    State.pairsOff_store, State.wr_store, store_ite, ite_self]

@[simp] theorem State.unitComplete_store (s : State) (b : Block) : (State.unitComplete s b).store = s.store := by
  unfold State.unitComplete
  (repeat' split) <;> first | rfl | simp only [State.blockOff_store, State.cstStopped_store, State.dmaStopped_store, State.netReport_store,
    State.netStopped_store, store_ite, ite_self]

@[simp] theorem State.dmaGoOn_store (s : State) (c : Nat) : (State.dmaGoOn s c).store = s.store := by
  unfold State.dmaGoOn
  (repeat' split) <;> first | rfl | simp only [State.wr_store, foldl_store, store_ite, ite_self, implies_true]

@[simp] theorem State.blockBegin_store (s : State) (b : Block) (resume : Bool) : (State.blockBegin s b resume).store = s.store := by
  unfold State.blockBegin
  (repeat' split) <;> simp []

@[simp] theorem State.enSet_store (s : State) (m : Master) (b : Block) : (State.enSet s m b).store = s.store := by
  unfold State.enSet
  (repeat' split) <;> first | rfl | simp only [State.blockBegin_store, State.perr_store, State.set1_store, State.wr_store, store_ite, ite_self]

@[simp] theorem State.enUnset_store (s : State) (m : Master) (b : Block) : (State.enUnset s m b).store = s.store := by
  simp only [State.enUnset, State.enClear_store, State.perr_store, store_ite, ite_self]

@[simp] theorem State.ctrlWrite_store (s : State) (m : Master) (b : Block) (en : Bool) (k : State → State)
    (hk : ∀ s, (k s).store = s.store) : (State.ctrlWrite s m b en k).store = s.store := by
  rw [State.ctrlWrite]
  split
  · rw [State.perr_store]
  · rw [hk]

@[simp] theorem execBlockEnClear_store (m : Master) (b : Block) (s : State) : (s.after (execBlockEnClear m b)).store = s.store := by
  simp only [State.after, execBlockEnClear, done, State.msiSend_store, State.ctrlWrite_store, State.enUnset_store, State.gate_store, implies_true]

@[simp] theorem execBlockEnSet_store (m : Master) (b : Block) (s : State) : (s.after (execBlockEnSet m b)).store = s.store := by
  simp only [State.after, execBlockEnSet, done, State.msiSend_store, State.ctrlWrite_store, State.enSet_store, State.gate_store, implies_true]

@[simp] theorem execBlockUnitComplete_store (b : Block) (s : State) : (s.after (execBlockUnitComplete b)).store = s.store := by
  simp only [State.after, execBlockUnitComplete, done, State.msiSend_store, State.unitComplete_store]

@[simp] theorem State.drainStart_store (s : State) (r : Region) (next : Nat) : (State.drainStart s r next).store = s.store := by
  simp only [State.drainStart, State.enClear_store, State.setCtl_store, State.startTimer_store, foldl_store, implies_true]

@[simp] theorem State.drainEnd_store (s : State) (r : Region) : (State.drainEnd s r).store = s.store := by
  rw [State.drainEnd]
  split <;> simp only [State.expire_store, State.isolate_store, State.liveAbortFor_store, State.powerUp_store,
    State.resetRegion_store, State.setBst_store, State.setCtl_store, State.startTimer_store, State.stopTimer_store,
    State.wrBit_store, store_ite, ite_self]

@[simp] theorem State.regionDown_store (s : State) (m : Master) (r : Region) : (State.regionDown s m r).store = s.store := by
  simp only [State.regionDown, State.drainStart_store, State.perr_store, State.wrBit_store, store_ite, ite_self]

@[simp] theorem State.regionUp_store (s : State) (m : Master) (r : Region) : (State.regionUp s m r).store = s.store := by
  simp only [State.regionUp, State.perr_store, State.powerUp_store, State.wrBit_store, store_ite, ite_self]

@[simp] theorem State.regionReset_store (s : State) (m : Master) (r : Region) : (State.regionReset s m r).store = s.store := by
  simp only [State.regionReset, State.drainStart_store, State.perr_store, store_ite, ite_self]

@[simp] theorem State.regionReload_store (s : State) (r : Region) : (State.regionReload s r).store = s.store := by
  simp only [State.regionReload, State.reloadRegion_store, State.setCtl_store, store_ite, ite_self]

@[simp] theorem execRegionPowerDown_store (m : Master) (r : Region) (s : State) : (s.after (execRegionPowerDown m r)).store = s.store := by
  simp only [State.after, execRegionPowerDown, done, State.msiSend_store, State.gate_store, State.regionDown_store, implies_true]

@[simp] theorem execRegionDrainEnd_store (r : Region) (s : State) : (s.after (execRegionDrainEnd r)).store = s.store := by
  simp only [State.after, execRegionDrainEnd, done, State.msiSend_store, State.drainEnd_store]

@[simp] theorem execRegionPowerUp_store (m : Master) (r : Region) (s : State) : (s.after (execRegionPowerUp m r)).store = s.store := by
  simp only [State.after, execRegionPowerUp, done, State.msiSend_store, State.gate_store, State.regionUp_store, implies_true]

@[simp] theorem execRegionReset_store (m : Master) (r : Region) (s : State) : (s.after (execRegionReset m r)).store = s.store := by
  simp only [State.after, execRegionReset, done, State.msiSend_store, State.gate_store, State.regionReset_store, implies_true]

@[simp] theorem execRegionReload_store (r : Region) (s : State) : (s.after (execRegionReload r)).store = s.store := by
  simp only [State.after, execRegionReload, done, State.msiSend_store, State.regionReload_store]

@[simp] theorem execRegionLost_store (r : Region) (k : LossKind) (s : State) : (s.after (execRegionLost r k)).store = s.store := by
  simp only [State.after, execRegionLost, done, State.msiSend_store, State.loseRegion_store, store_ite, ite_self]

@[simp] theorem State.recur_store (s : State) (k d : Nat) : (State.recur s k d).store = s.store := by
  simp only [State.recur, State.expire_store, State.startTimer_store]

@[simp] theorem State.ownerActs_store (s : State) (a w kind : Nat) : (State.ownerActs s a w kind).store = s.store := by
  unfold State.ownerActs
  (repeat' split) <;> simp []

@[simp] theorem State.countCorrIn_store (s : State) (a : Nat) : (State.countCorrIn s a).store = s.store := by
  unfold State.countCorrIn
  (repeat' split) <;> first | rfl | simp only [State.addSat_store, State.countCorr_store, foldl_store, store_ite, ite_self, implies_true]

@[simp] theorem State.scrubHard_store (s : State) (a key pos : Nat) (old : Sparse Nat) : (State.scrubHard s a key pos old).store = s.store := by
  rw [State.scrubHard]
  split <;> simp only [State.addSat_store, State.set1_store, State.setBst_store, store_ite, ite_self]

@[simp] theorem State.scrubAdjust_store (s : State) (a rise : Nat) : (State.scrubAdjust s a rise).store = s.store := by
  simp only [State.scrubAdjust, State.setBst_store, State.wr_store, store_ite, ite_self]

@[simp] theorem State.strike_store (a : Nat) (s : State) (x : Strike) : (State.strike a s x).store = s.store := by
  unfold State.strike
  (repeat' split) <;> first | rfl | simp only [State.fenceD_store]

@[simp] theorem State.testGate_store (s : State) (m : Master) (k : State → State) (hk : ∀ s, (k s).store = s.store) :
    (State.testGate s m k).store = s.store := by
  rw [State.testGate]
  (repeat' split) <;> simp only [State.perr_store, hk]

@[simp] theorem State.testOver_store (s : State) : (State.testOver s).store = s.store := by
  simp only [State.testOver, State.set1_store, State.setBst_store, State.wr_store]

@[simp] theorem State.lbNext_store (s : State) : (State.lbNext s).store = s.store := by
  rw [State.lbNext]
  (repeat' split) <;> first | rfl | simp only [State.drainStart_store, State.setBst_store]

@[simp] theorem execLbist_store (m : Master) (rmask : BitVec 8) (s : State) : (s.after (execLbist m rmask)).store = s.store := by
  simp only [State.after, execLbist, done, State.msiSend_store, State.gate_store, State.lbNext_store, State.setBst_store,
    State.testGate_store, State.wr_store, implies_true]

@[simp] theorem State.resetReload_store (s : State) (r : Region) : (State.resetReload s r).store = s.store := by
  simp only [State.resetReload, State.liveAbortFor_store, State.reloadRegion_store, State.resetRegion_store]

@[simp] theorem State.lbDone_store (s : State) (sig : Nat) (good : Bool) : (State.lbDone s sig good).store = s.store := by
  rw [State.lbDone]
  split <;> simp only [State.errorRec_store, State.expire_store, State.lbNext_store, State.resetReload_store, State.set1_store,
    State.testOver_store, State.wr_store, State.wrBit_store, store_ite, ite_self]

@[simp] theorem execLbistRegionDone_store (sig : Word) (good : Bool) (s : State) : (s.after (execLbistRegionDone sig good)).store = s.store := by
  simp only [State.after, execLbistRegionDone, done, State.msiSend_store, State.lbDone_store]

@[simp] theorem execAbort_store (m : Master) (s : State) : (s.after (execAbort m)).store = s.store := by
  simp only [State.after, execAbort, done, State.msiSend_store, State.gate_store, State.setBst_store, store_ite, ite_self,
    implies_true]

@[simp] theorem execTjMeasure_store (tj : BitVec 16) (s : State) : (s.after (execTjMeasure tj)).store = s.store := by
  simp only [State.after, execTjMeasure, done, State.msiSend_store, State.recur_store, State.set1_store, State.wr_store, store_ite,
    ite_self]

@[simp] theorem State.condenseSee_store (s : State) : (State.condenseSee s).store = s.store := by
  unfold State.condenseSee
  (repeat' split) <;> first | rfl | simp only [State.set1_store, State.wr_store, store_ite, ite_self]

@[simp] theorem execCondenseChange_store (level : Bool) (s : State) : (s.after (execCondenseChange level)).store = s.store := by
  simp only [State.after, execCondenseChange, done, State.msiSend_store, State.condenseSee_store, State.setPins_store]

@[simp] theorem State.voutMv_store (s : State) (w : Nat) : (State.voutMv s w).1.store = s.store := by
  rw [State.voutMv]
  split <;> simp only [State.drawn_store]

@[simp] theorem State.voutCommand_store (s : State) : (State.voutCommand s).store = s.store := by
  simp only [State.voutCommand, State.drawn_store, State.emit_store, State.set1_store, State.startTimer_store, store_ite, ite_self
    ]

@[simp] theorem State.putVset_store (s : State) (v : Nat) : (State.putVset s v).store = s.store := by
  simp only [State.putVset, State.setBst_store, State.voutCommand_store, State.wr_store, store_ite, ite_self]

@[simp] theorem State.pmbusAlert_store (s : State) (status : Nat) : (State.pmbusAlert s status).store = s.store := by
  unfold State.pmbusAlert
  (repeat' split) <;> first | rfl | simp only [State.set1_store, State.wr_store, foldl_store, store_ite, ite_self, implies_true]

@[simp] theorem State.pmbusStart_store (s : State) (mode vout : Nat) : (State.pmbusStart s mode vout).store = s.store := by
  unfold State.pmbusStart
  (repeat' split) <;> first | rfl | simp only [State.drawn_store, State.pmbusAlert_store, State.set0_store, State.setBst_store,
    State.stopTimer_store, State.voutMv_store, State.wr_store, store_ite, ite_self]

@[simp] theorem execPmbusEnable_store (m : Master) (pagen : Bool) (page : Byte) (addr : BitVec 7) (mode : BitVec 5) (vout : BitVec 16) (s :
    State) : (s.after (execPmbusEnable m pagen page addr mode vout)).store = s.store := by
  simp only [State.after, execPmbusEnable, done, State.msiSend_store, State.gate_store, State.perr_store, State.pmbusStart_store,
    State.set1_store, State.wr_store, store_ite, ite_self, implies_true]

@[simp] theorem execPmbusConfirm_store (vout : BitVec 16) (s : State) : (s.after (execPmbusConfirm vout)).store = s.store := by
  simp only [State.after, execPmbusConfirm, done, State.msiSend_store, State.expire_store, State.set0_store, State.set1_store,
    State.setBst_store, State.voutCommand_store, State.voutMv_store, State.wr_store, store_ite, ite_self]

@[simp] theorem execPmbusAlert_store (low : Bool) (status : BitVec 16) (s : State) : (s.after (execPmbusAlert low status)).store = s.store := by
  simp only [State.after, execPmbusAlert, done, State.msiSend_store, State.pmbusAlert_store, State.setPins_store]

@[simp] theorem State.judgeVolt_store (s : State) (sl : Int) : (State.judgeVolt s sl).store = s.store := by
  simp only [State.judgeVolt, State.putVset_store, State.set1_store, State.setBst_store, State.wr_store, store_ite, ite_self
    ]

@[simp] theorem State.judge_store (s : State) (core sup : Nat) : (State.judge s core sup).store = s.store := by
  simp only [State.judge, State.judgeVolt_store, State.startTimer_store, State.stopTimer_store, State.wr_store, store_ite, ite_self
    ]

@[simp] theorem execPatinaJudgement_store (core sup : BitVec 16) (s : State) : (s.after (execPatinaJudgement core sup)).store = s.store := by
  simp only [State.after, execPatinaJudgement, done, State.msiSend_store, State.judge_store, State.recur_store, store_ite, ite_self
    ]

@[simp] theorem execLateTransition_store (core sup : BitVec 16) (s : State) : (s.after (execLateTransition core sup)).store = s.store := by
  simp only [State.after, execLateTransition, done, State.msiSend_store, State.errorA_store, State.judge_store, State.set1_store,
    store_ite, ite_self]

@[simp] theorem execPatinaSupDerate_store (s : State) : (s.after (execPatinaSupDerate)).store = s.store := by
  simp only [State.after, execPatinaSupDerate, done, State.msiSend_store, State.addWrap_store, State.expire_store, State.set1_store,
    State.startTimer_store, store_ite, ite_self]

@[simp] theorem execRestore_store (m : Master) (s : State) : (s.after (execRestore m)).store = s.store := by
  simp only [State.after, execRestore, done, State.msiSend_store, State.gate_store, State.perr_store, State.wr_store, store_ite,
    ite_self, implies_true]

@[simp] theorem State.putLive_store (s : State) (k : Nat) (b : Bool) : (State.putLive s k b).store = s.store := by
  simp only [State.putLive, State.setBst_store]

@[simp] theorem State.eyeMeasured_store (s : State) (h v : Nat) : (State.eyeMeasured s h v).store = s.store := by
  rw [State.eyeMeasured]
  split <;> simp only [State.putLive_store, State.set1_store, State.setBst_store, State.wr_store, State.wrBit_store, store_ite,
    ite_self]

@[simp] theorem State.patMeasure_store (s : State) (x : PatMeas) : (State.patMeasure s x).store = s.store := by
  unfold State.patMeasure
  split <;> simp only [State.eyeMeasured_store, State.putLive_store, State.recur_store, State.set1_store, State.setBst_store,
    State.wr_store, store_ite, ite_self]

@[simp] theorem execPatinaMeasurement_store (x : PatMeas) (s : State) : (s.after (execPatinaMeasurement x)).store = s.store := by
  simp only [State.after, execPatinaMeasurement, done, State.msiSend_store, State.patMeasure_store, store_ite, ite_self]

@[simp] theorem execBasecap_store (m : Master) (s : State) : (s.after (execBasecap m)).store = s.store := by
  simp only [State.after, execBasecap, done, State.msiSend_store, State.gate_store, State.wr_store, foldl_store, store_ite, ite_self,
    implies_true]

@[simp] theorem State.margin_store (s : State) : (State.margin s).store = s.store := by
  simp only [State.margin, State.drawn_store, State.wr_store, store_ite, ite_self]

@[simp] theorem State.timeToEnd_store (s : State) : (State.timeToEnd s).store = s.store := by
  simp only [State.timeToEnd, State.drawn_store, State.wr_store, store_ite, ite_self]

@[simp] theorem execPatinaLogWrite_store (s : State) : (s.after (execPatinaLogWrite)).store = s.store := by
  simp only [State.after, execPatinaLogWrite, done, State.msiSend_store, State.margin_store, State.set1_store, State.setBst_store,
    State.timeToEnd_store, State.wr_store, store_ite, ite_self]

@[simp] theorem execPoweredHour_store (s : State) : (s.after (execPoweredHour)).store = s.store := by
  simp only [State.after, execPoweredHour, done, State.msiSend_store, State.addWrap_store, State.setBst_store, store_ite, ite_self
    ]

@[simp] theorem State.readPlain_store (s : State) (m : Master) (a : Nat) : (State.readPlain s m a).store = s.store := by
  unfold State.readPlain
  (repeat' split) <;> simp [store_ite]

@[simp] theorem State.readReg_store (s : State) (m : Master) (a size : Nat) : (State.readReg s m a size).store = s.store := by
  unfold State.readReg
  (repeat' split) <;> first | rfl | simp only [State.answerError_store, State.answer_store, State.perr_store, State.queueRead_store,
    State.readPlain_store, State.semRead_store, State.setBus_store, State.txqRead_store]

@[simp] theorem State.readTile_store (s : State) (m : Master) (a size : Nat) : (State.readTile s m a size).store = s.store := by
  have hd := State.armData_store s ((a - 0x50000000) / 0x2000) (((a - 0x50000000) % 0x2000 - 0x1000) / 4)
  have hf := State.armFetch_store s ((a - 0x50000000) / 0x2000) ((a - 0x50000000) % 0x2000 / 8)
  rw [State.readTile]
  repeat' split
  all_goals simp_all only [State.perr_store, State.answer_store, State.answerError_store, State.armFault_store]

@[simp] theorem State.readRom_store (s : State) (m : Master) (a size : Nat) : (State.readRom s m a size).store = s.store := by
  rw [State.readRom]
  split <;> simp only [State.answer_store, State.answerError_store, State.countCorr_store, State.countUncorr_store]

@[simp] theorem State.dmaError_store (s : State) (c code : Nat) : (State.dmaError s c code).store = s.store := by
  unfold State.dmaError
  (repeat' split) <;> first | rfl | simp only [State.dmaShow_store, State.wrBit_store, State.wr_store, foldl_store, store_ite, ite_self, implies_true]

@[simp] theorem State.dmaFresh_store (s : State) (m c : Nat) : (State.dmaFresh s m c).store = s.store := by
  unfold State.dmaFresh
  (repeat' split) <;> first | rfl | simp only [State.dmaError_store, State.dmaShow_store, State.perr_store, State.setSup_store, State.wr_store,
    store_ite, ite_self]

@[simp] theorem State.dmaStart_store (s : State) (m c : Nat) : (State.dmaStart s m c).store = s.store := by
  unfold State.dmaStart
  (repeat' split) <;> first | rfl | simp only [State.dmaFresh_store]

@[simp] theorem execDmaStart_store (m : Master) (c : Fin 32) (s : State) : (s.after (execDmaStart m c)).store = s.store := by
  simp only [State.after, execDmaStart, done, State.msiSend_store, State.dmaStart_store, State.gate_store, implies_true]

@[simp] theorem State.dmaStop_store (s : State) (c : Nat) : (State.dmaStop s c).store = s.store := by
  unfold State.dmaStop
  (repeat' split) <;> first | rfl | simp only [State.dmaHalt_store, State.dmaShow_store]

@[simp] theorem execDmaStop_store (m : Master) (c : Fin 32) (s : State) : (s.after (execDmaStop m c)).store = s.store := by
  simp only [State.after, execDmaStop, done, State.msiSend_store, State.dmaStop_store, State.gate_store, implies_true]

@[simp] theorem execDmaKick_store (m : Master) (c : Fin 32) (s : State) : (s.after (execDmaKick m c)).store = s.store := by
  simp only [State.after, execDmaKick, done, State.msiSend_store, State.dmaPost_store, State.gate_store, store_ite, ite_self,
    implies_true]

@[simp] theorem execDmaResume_store (m : Master) (c : Fin 32) (s : State) : (s.after (execDmaResume m c)).store = s.store := by
  simp only [State.after, execDmaResume, done, State.msiSend_store, State.dmaShow_store, State.gate_store, State.perr_store, State.wr_store,
    store_ite, ite_self, implies_true]

@[simp] theorem State.dmaGrant_store (s : State) : (State.dmaGrant s).store = s.store := by
  rw [State.dmaGrant]
  dsimp only
  (repeat' split) <;> first | rfl | simp only [State.elapse_store, State.setSup_store, State.wr_store
    ]

@[simp] theorem execDmaBurstStart_store (s : State) : (s.after (execDmaBurstStart)).store = s.store := by
  simp only [State.after, execDmaBurstStart, done, State.msiSend_store, State.dmaGrant_store]

@[simp] theorem State.deviceHalt_store (s : State) (m : Nat) : (State.deviceHalt s m).store = s.store := by
  simp only [State.deviceHalt, State.answerError_store, State.haltPairs_store, State.perr_store, State.set1_store, State.wr_store,
    foldl_store, store_ite, ite_self, implies_true]

@[simp] theorem execDeviceHalt_store (m : Master) (s : State) : (s.after (execDeviceHalt m)).store = s.store := by
  simp only [State.after, execDeviceHalt, done, State.msiSend_store, State.deviceHalt_store, State.gate_store, implies_true]

@[simp] theorem execDeviceHaltEnd_store (m : Master) (s : State) : (s.after (execDeviceHaltEnd m)).store = s.store := by
  simp only [State.after, execDeviceHaltEnd, done, State.msiSend_store, State.answerError_store, State.endHalt_store,
    State.gate_store, State.perr_store, store_ite, ite_self, implies_true]

theorem State.after_store (s : State) (f : State → Result) (h : ∀ t, f s = .next t → t.store = s.store) : (s.after f).store = s.store := by
  unfold State.after
  split
  · exact h _ ‹_›
  · rfl

@[simp] theorem State.writeField_store (m a v : Nat) (s : State) (f : CardFld) : (State.writeField m a v s f).store = s.store := by
  rw [State.writeField]
  split <;> simp only [State.set1_store, State.wr_store, store_ite, ite_self]

@[simp] theorem State.writeFields_store (s : State) (m a v : Nat) (skip : List Nat) : (State.writeFields s m a v skip).store = s.store := by
  simp only [State.writeFields, State.perr_store, State.writeField_store, foldl_store, store_ite, ite_self, implies_true]

@[simp] theorem State.writeRegions_store (s : State) (m : Master) (v : Nat) : (State.writeRegions s m v).store = s.store := by
  simp only [State.writeRegions, execRegionPowerDown_store, execRegionPowerUp_store, execRegionReset_store,
    foldl_store, store_ite, ite_self, after_ite, implies_true]

@[simp] theorem State.writeCores_store (s : State) (m : Master) (v : Nat) : (State.writeCores s m v).store = s.store := by
  simp only [State.writeCores, State.wrBit_store, execCoreReset_store, execCoreRun_store, foldl_store, store_ite,
    ite_self, implies_true]

@[simp] theorem State.ctrlCommands_store (s : State) (m : Master) (b : Block) (v : Nat) : (State.ctrlCommands s m b v).store = s.store := by
  unfold State.ctrlCommands
  split <;> simp only [execArmRun1_store, execBasecap_store, execCalStart_store, execCastArm_store,
    execFiclr_store, execHandover_store, execIdxarm_store, execPcommit_store, execPolarityTestStart_store, execRestart_store,
    execRestore_store, execSafetyPtest_store, execSwtrig_store, store_ite, ite_self]

@[simp] theorem State.writeCtrl_store (s : State) (m : Master) (b : Block) (v : Nat) : (State.writeCtrl s m b v).store = s.store := by
  unfold State.writeCtrl
  (repeat' split) <;> first | rfl | simp only [State.ctrlCommands_store, State.ctrlWrite_store, State.writeFields_store, execAngEnableChange_store,
    execBlockEnClear_store, execBlockEnSet_store, implies_true]

@[simp] theorem State.writeSecCmd_store (s : State) (m : Master) (v : Nat) : (State.writeSecCmd s m v).store = s.store := by
  unfold State.writeSecCmd
  (repeat' split) <;> first | rfl | simp only [State.fuseCmd_store, execArbCommit_store, execClose_store, execKeyProgram_store, execKeyRevoke_store]

@[simp] theorem State.writePwrCfg_store (s : State) (m : Master) (v : Nat) : (State.writePwrCfg s m v).store = s.store := by
  simp only [State.writePwrCfg, State.drawnBy_store, State.perr_store, State.pmbusStart_store, State.set0_store,
    State.stopTimer_store, State.writeFields_store, store_ite, ite_self]

@[simp] theorem State.writeMtime_store (s : State) (hi : Bool) (v : Nat) : (State.writeMtime s hi v).store = s.store := by
  simp only [State.writeMtime, State.setSup_store]

@[simp] theorem State.writeModeReq_store (s : State) (m : Master) (v : Nat) : (State.writeModeReq s m v).store = s.store := by
  simp only [State.writeModeReq, State.writeFields_store, execModeRequest_store, execTripRequest_store, store_ite,
    ite_self]

@[simp] theorem State.writeLcmd_store (s : State) (m : Master) (v : Nat) : (State.writeLcmd s m v).store = s.store := by
  simp only [State.writeLcmd, execCancel_store, execCommit_store, execStage_store, store_ite, ite_self
    ]

@[simp] theorem State.writeMbx_store (s : State) (m : Master) (a v : Nat) : (State.writeMbx s m a v).store = s.store := by
  simp only [State.writeMbx, State.writeFields_store, execMbxAck_store, execMbxDataWrite_store, execMbxGo_store,
    execMbxNoteClr_store, store_ite, ite_self]

@[simp] theorem State.writeMove_store (s : State) (m : Master) (a v : Nat) : (State.writeMove s m a v).store = s.store := by
  rw [State.writeMove]
  (repeat' split) <;> first | rfl | simp only [State.perr_store, State.writeFields_store, execDmaKick_store,
    execDmaResume_store, execDmaStart_store, execDmaStop_store, execRingRdWrite_store, execRingWrWrite_store, store_ite, ite_self
    ]

@[simp] theorem State.writeNet_store (s : State) (m : Master) (a v : Nat) : (State.writeNet s m a v).store = s.store := by
  unfold State.writeNet
  (repeat' split) <;> first | rfl | simp only [State.netReport_store, State.svUnbound_store, State.wr_store, State.writeFields_store,
    execMirEpochWrite_store, execPtpIncfWrite_store, execPtpTimeWrite_store, store_ite, ite_self]

@[simp] theorem State.writeAcq_store (s : State) (m : Master) (a v : Nat) : (State.writeAcq s m a v).store = s.store := by
  rw [State.writeAcq]
  (repeat' split) <;> first | rfl | simp only [State.acpWritten_store, State.perr_store, State.writeFields_store,
    execAcpArm_store, execCstHold_store, execCstRel_store, execSeqGo_store]

@[simp] theorem State.writePath_store (s : State) (m : Master) (a v : Nat) : (State.writePath s m a v).store = s.store := by
  unfold State.writePath
  (repeat' split) <;> first | rfl | simp only [State.cpsStored_store, State.writeFields_store, execBsarmWrite_store, execPrfLoad_store]

@[simp] theorem State.writeGrd_store (s : State) (m : Master) (a v : Nat) : (State.writeGrd s m a v).store = s.store := by
  unfold State.writeGrd
  (repeat' split) <;> first | rfl | simp only [State.cutCount_store, State.faultJudge_store, State.ovDisabled_store, State.writeFields_store,
    execPairDisable_store, execPairEnable_store]

@[simp] theorem State.writeTile_store (s : State) (m : Master) (a size v : Nat) : (State.writeTile s m a size v).store = s.store := by
  simp only [State.writeTile, State.answerError_store, State.perr_store, execProgramFirstWordWrite_store,
    execProgramSecondWordWrite_store, execTileDataWrite_store, store_ite, ite_self, after_ite]

@[simp] theorem State.aerSet_store (s : State) (k : Nat) : (State.aerSet s k).store = s.store := by
  unfold State.aerSet
  (repeat' split) <;> first | rfl | simp only [State.setNet_store, foldl_store, store_ite, ite_self, implies_true]

@[simp] theorem State.dmaFail_store (s : State) (c a dir : Nat) : (State.dmaFail s c a dir).store = s.store := by
  simp only [State.dmaFail, State.dmaError_store, State.wr_store]

@[simp] theorem State.dmaAfter_store (s : State) (c bytes : Nat) : (State.dmaAfter s c bytes).store = s.store := by
  unfold State.dmaAfter
  (repeat' split) <;> first | rfl | simp only [State.dmaHalt_store, State.dmaShow_store, State.wrBit_store, State.wr_store, store_ite, ite_self]

@[simp] theorem State.dmaLater_store (s : State) (c k : Nat) : (State.dmaLater s c k).store = s.store := by
  unfold State.dmaLater
  (repeat' split) <;> first | rfl | simp only [State.dmaFresh_store, State.dmaHalt_store, State.dmaShow_store]

@[simp] theorem State.channelRead_store (s : State) : (State.channelRead s).store = s.store := by
  unfold State.channelRead
  split
  · rfl
  · dsimp only
    split
    · exact State.readWords_store ..
    · rw [foldl_store]
      · simp only [State.acqEcc_store, State.readWords_store]
      · intro s w; exact State.set0_store ..

@[simp] theorem State.channelSnapshot_store (s : State) : (State.channelSnapshot s).store = s.store := by
  unfold State.channelSnapshot
  (repeat' split) <;> first | rfl | simp only [State.channelRead_store, State.setAcq_store]

@[simp] theorem State.ranked_store (old s : State) (f : State → State) (hf : ∀ s, (f s).store = s.store) :
    (State.ranked old s f).store = s.store := by
  unfold State.ranked
  split
  · exact hf s
  · rfl

@[simp] theorem State.frameStops_store (s : State) : (State.frameStops s).store = s.store := by
  simp only [State.frameStops, State.angFrameEnd_store, State.unitComplete_store, foldl_store, implies_true]

@[simp] theorem State.frameLatch_store (s : State) : (State.frameLatch s).store = s.store := by
  unfold State.frameLatch
  (repeat' split) <;> first | rfl | simp only [State.clampNote_store, State.setLatch_store]

@[simp] theorem State.putNode_store (s : State) (j : Nat) (n : Node) : (State.putNode s j n).store = s.store := by
  simp only [State.putNode, State.setNodes_store]

@[simp] theorem State.nodeProcess_store (s : State) (j : Nat) (fromD : Bool) (f : List Nat) (arr : Nat) (x : NodeSense) :
    (State.nodeProcess s j fromD f arr x).store = s.store := by
  simp only [State.nodeProcess, State.emit_store, State.putNode_store, store_ite, ite_self]

@[simp] theorem State.nodeRepeat_store (s : State) (j : Nat) (fromD : Bool) (f : List Nat) (arr : Nat) :
    (State.nodeRepeat s j fromD f arr).store = s.store := by
  simp only [State.nodeRepeat, State.emit_store, State.putNode_store]

@[simp] theorem State.nodeApply_store (s : State) (j phase : Nat) : (State.nodeApply s j phase).store = s.store := by
  rw [State.nodeApply]
  (repeat' split) <;> first | rfl | simp only [State.elapseToDevice_store, State.putNode_store]

@[simp] theorem State.nodeHold_store (s : State) (j : Nat) : (State.nodeHold s j).store = s.store := by
  rw [State.nodeHold]
  split <;> simp only [State.elapseToDevice_store, State.putNode_store, store_ite, ite_self]

@[simp] theorem State.nodeBlock_store (s : State) (j : Nat) : (State.nodeBlock s j).store = s.store := by
  rw [State.nodeBlock]
  split <;> simp only [State.elapseToDevice_store, State.putNode_store, store_ite, ite_self]

@[simp] theorem execNodeSelfTestPass_store (j : Fin 8192) (s : State) : (s.after (execNodeSelfTestPass j)).store = s.store := by
  simp only [State.after, execNodeSelfTestPass, done, State.msiSend_store, State.putNode_store, store_ite, ite_self]

@[simp] theorem execNodeFrameProcess_store (j : Fin 8192) (fromD : Bool) (f : List Byte) (arr : Nat) (x : NodeSense) (s : State) :
    (s.after (execNodeFrameProcess j fromD f arr x)).store = s.store := by
  simp only [State.after, execNodeFrameProcess, done, State.msiSend_store, State.nodeProcess_store]

@[simp] theorem execNodeFrameRepeat_store (j : Fin 8192) (fromD : Bool) (f : List Byte) (arr : Nat) (s : State) :
    (s.after (execNodeFrameRepeat j fromD f arr)).store = s.store := by
  simp only [State.after, execNodeFrameRepeat, done, State.msiSend_store, State.nodeRepeat_store]

@[simp] theorem execNodeFold_store (j : Fin 8192) (sideD : Bool) (s : State) : (s.after (execNodeFold j sideD)).store = s.store := by
  simp only [State.after, execNodeFold, done, State.msiSend_store, State.putNode_store, store_ite, ite_self]

@[simp] theorem execNodeUnfold_store (j : Fin 8192) (sideD : Bool) (s : State) : (s.after (execNodeUnfold j sideD)).store = s.store := by
  simp only [State.after, execNodeUnfold, done, State.msiSend_store, State.putNode_store, store_ite, ite_self
    ]

@[simp] theorem execNodeApply_store (j : Fin 8192) (phase : Fin 3) (s : State) : (s.after (execNodeApply j phase)).store = s.store := by
  simp only [State.after, execNodeApply, done, State.msiSend_store, State.nodeApply_store]

@[simp] theorem execNodeHoldEntry_store (j : Fin 8192) (s : State) : (s.after (execNodeHoldEntry j)).store = s.store := by
  simp only [State.after, execNodeHoldEntry, done, State.msiSend_store, State.nodeHold_store]

@[simp] theorem execNodeBlockEntry_store (j : Fin 8192) (s : State) : (s.after (execNodeBlockEntry j)).store = s.store := by
  simp only [State.after, execNodeBlockEntry, done, State.msiSend_store, State.nodeBlock_store]

@[simp] theorem execNodeAcquireTimeout_store (j : Fin 8192) (s : State) : (s.after (execNodeAcquireTimeout j)).store = s.store := by
  simp only [State.after, execNodeAcquireTimeout, done, State.msiSend_store, State.elapseTo_store, State.putNode_store, store_ite,
    ite_self]

@[simp] theorem execNodeProtectionTrip_store (j : Fin 8192) (cause : Fin 16) (sw : Fin 5) (s : State) :
    (s.after (execNodeProtectionTrip j cause sw)).store = s.store := by
  simp only [State.after, execNodeProtectionTrip, done, State.msiSend_store, State.putNode_store, store_ite, ite_self]

@[simp] theorem execNodeRxAlign_store (j : Fin 8192) (sideD aligned invert : Bool) (s : State) :
    (s.after (execNodeRxAlign j sideD aligned invert)).store = s.store := by
  simp only [State.after, execNodeRxAlign, done, State.msiSend_store, State.putNode_store]

end Sys2Proof.Machine
end

