-- ==== Sys2Proof/Laws/Memory.lean ====
section
/-! SUPPORT. What reading and writing the byte memories do, and that every operation that writes one keeps its canonical form. -/

namespace Sys2Proof.Machine

/-! ## Bytes and words -/

@[simp] theorem State.memByte_memPut_same (s : State) (a : Nat) (b : Byte) : (s.memPut a b).memByte a = b := by
  simp [State.memByte, State.memPut]

theorem State.memByte_memPut_ne (s : State) {a c : Nat} (b : Byte) (h : c ≠ a) : (s.memPut a b).memByte c = s.memByte c := by
  simp [State.memByte, State.memPut, spGet_spSet_ne _ _ _ _ h]

/-- A write of `n` bytes from `a` leaves every byte outside them. -/
theorem State.memByte_memWrite_outside (s : State) (a n v c : Nat) (h : c < a ∨ a + n ≤ c) : (s.memWrite a n v).memByte c = s.memByte c := by
  induction n generalizing s a v with
  | zero => rfl
  | succ n ih =>
    rw [State.memWrite, ih _ (a + 1) _ (by omega), State.memByte_memPut_ne]
    omega

/-- Byte `i` of a write of `n` bytes is byte `i` of the value (R1: little-endian). -/
theorem State.memByte_memWrite_inside (s : State) (a n v i : Nat) (h : i < n) :
    (s.memWrite a n v).memByte (a + i) = BitVec.ofNat 8 (v / 256 ^ i) := by
  induction n generalizing s a v i with
  | zero => omega
  | succ n ih =>
    rw [State.memWrite]
    cases i with
    | zero => rw [State.memByte_memWrite_outside _ _ _ _ _ (by omega)]; simp
    | succ i =>
      have := ih (s.memPut a (BitVec.ofNat 8 v)) (a + 1) (v / 256) i (by omega)
      rw [show a + (i + 1) = a + 1 + i by omega, this, Nat.div_div_eq_div_mul, show (256 : Nat) * 256 ^ i = 256 ^ (i + 1) by rw [Nat.pow_succ]; omega]

/-- What was written is read back, as much of it as was written. -/
theorem State.memRead_memWrite_same (s : State) (a n v : Nat) : (s.memWrite a n v).memRead a n = v % 256 ^ n := by
  suffices ∀ (k : Nat) (t : State), (∀ i, i < k → t.memByte (a + i) = BitVec.ofNat 8 (v / 256 ^ i)) → t.memRead a k = v % 256 ^ k from
    this n _ fun i hi => s.memByte_memWrite_inside a n v i hi
  intro k
  induction k generalizing a v with
  | zero => intro t _; simp [State.memRead, Nat.mod_one]
  | succ k ih =>
    intro t h
    have h0 := h 0 (by omega)
    have hr := ih (a + 1) (v / 256) t (fun i hi => by
      have := h (i + 1) (by omega)
      rwa [Nat.add_assoc, Nat.add_comm 1 i, Nat.div_div_eq_div_mul, show (256 : Nat) * 256 ^ i = 256 ^ (i + 1) by rw [Nat.pow_succ]; omega])
    rw [State.memRead, hr]
    have h1 : (t.memByte a).toNat = v % 256 := by
      rw [show a = a + 0 from rfl, h0]; simp
    rw [h1, Nat.pow_succ, Nat.mul_comm (256 ^ k) 256, Nat.mod_mul]

/-- A write of bytes leaves every register. -/
@[simp] theorem State.rd_memWrite (s : State) (a n v : Nat) (f : Fld) : (s.memWrite a n v).rd f = s.rd f := by
  induction n generalizing s a v with
  | zero => rfl
  | succ n ih => rw [State.memWrite, ih]; rfl

/-! ## The canonical form -/

/-- A store with its byte memory in canonical form, and the flash and the queue as given. -/
def Sound (f : List Host.Cell) (q : List Instr) (s : State) : Prop := Memory.wf s.mem = true ∧ s.flash = f ∧ s.pending = q

/-- An operation that leaves the memories, the flash and the queue leaves them sound. -/
theorem Sound.of_store {f : List Host.Cell} {q : List Instr} {s t : State} (h : Sound f q s) (e : t.store = s.store) : Sound f q t := by
  simp only [State.store, Prod.mk.injEq] at e
  exact ⟨e.1 ▸ h.1, e.2.1 ▸ h.2.1, e.2.2 ▸ h.2.2⟩

theorem Sound.memPut {f : List Host.Cell} {q : List Instr} {s : State} (h : Sound f q s) (a : Nat) (b : Byte) : Sound f q (s.memPut a b) :=
  ⟨memory_wf_spSet s.mem a b h.1, h.2⟩

theorem Sound.memWrite {f : List Host.Cell} {q : List Instr} {s : State} (h : Sound f q s) (a n v : Nat) : Sound f q (s.memWrite a n v) := by
  induction n generalizing s a v with
  | zero => exact h
  | succ n ih => rw [State.memWrite]; exact ih (h.memPut a _) _ _

theorem Sound.memBytes {f : List Host.Cell} {q : List Instr} {s : State} (h : Sound f q s) (a : Nat) (l : List Nat) : Sound f q (s.memBytes a l) := by
  induction l generalizing s a with
  | nil => exact h
  | cons b r ih => rw [State.memBytes]; exact ih (h.memPut a _) _

theorem Sound.foldl {f : List Host.Cell} {q : List Instr} {α : Type} (l : List α) (g : State → α → State) {s : State} (h : Sound f q s)
    (hg : ∀ t x, Sound f q t → Sound f q (g t x)) : Sound f q (l.foldl g s) := by
  induction l generalizing s with
  | nil => exact h
  | cons x r ih => exact ih (hg s x h)

theorem Sound.readWord {f : List Host.Cell} {q : List Instr} {s : State} (h : Sound f q s) (array a : Nat) :
    Sound f q (s.readWord array a).1 := by
  rw [State.readWord]
  split
  · exact h
  · split
    · exact h
    · rename_i v _
      exact (h.memWrite a 4 v).of_store (by simp only [State.countCorr_store, State.putUpset_store])
    · exact h.of_store (State.countUncorr_store ..)

theorem Sound.writeMem {f : List Host.Cell} {q : List Instr} {s t : State} (h : Sound f q s) (array a size v : Nat)
    (e : s.writeMem array a size v = some t) : Sound f q t := by
  rw [State.writeMem] at e
  split at e
  · cases e
    exact (h.memWrite a 4 v).of_store (State.putUpset_store ..)
  · split at e
    · rename_i s' _ hs
      cases e
      have := h.readWord array (a / 4 * 4)
      rw [hs] at this
      exact (this.memWrite a size v).of_store (State.putUpset_store ..)
    · cases e

theorem Sound.wipeArray {f : List Host.Cell} {q : List Instr} {s : State} (h : Sound f q s) (a : Nat) : Sound f q (s.wipeArray a) := by
  unfold State.wipeArray
  dsimp only
  generalize hu : (if a = 1 then s else s.cleanWords a (fun w => (wordRegions a w).all s.regionOn)) = u
  have h' : Sound f q u := by
    rw [← hu]
    split
    · exact h
    · exact h.of_store (State.cleanWords_store ..)
  split
  · exact ⟨memory_wf_filter _ _ h'.1, h'.2⟩
  · exact ⟨memory_wf_filter _ _ h'.1, h'.2⟩
  · exact h'.of_store (State.setArm_store ..)
  · exact h'.of_store (State.setArm_store ..)
  · exact h'

theorem Sound.erase {f : List Host.Cell} {q : List Instr} {s : State} (h : Sound f q s) : Sound f q s.erase := ⟨rfl, h.2⟩

theorem Sound.outside {f : List Host.Cell} {q : List Instr} {s : State} (h : Sound f q s) : Sound f q s.outside := ⟨rfl, h.2⟩

theorem Sound.chipReset {f : List Host.Cell} {q : List Instr} {s : State} (h : Sound f q s) : Sound f q s.chipReset := ⟨h.1, h.2⟩

/-- Where no word that is read is upset, a block's read of its array finds nothing and changes nothing. -/
theorem State.readWords_none (s : State) (a : Nat) (p : Nat → Bool) (h : ∀ w ∈ s.upsetWords a, p w = false) : s.readWords a p = (s, []) := by
  have hf : (s.upsetWords a).filter p = [] := by
    rw [List.filter_eq_nil_iff]
    intro w hw
    simp [h w hw]
  simp [State.readWords, hf]

end Sys2Proof.Machine
end

