-- ==== Sys2Proof/Machine/Pins.lean ====
section
/-! DEFINITION. What the device does with each group of its pins (R467 to R469): a view of the state, read from outside the device. -/

namespace Sys2Proof.Machine

/-- The pin groups of R463 and R468: transmitters and receivers by port, the gate pins LBG(2p), LBG(2p+1), LBS(2p), LBS(2p+1) of a pair
(`k` 0 to 3), the Pointing pins, the safety output channels (SOA0, SOB0, SOA1 up), general pins, and the inputs: FLT_IN, SIA and SIB,
ZC, PPS_IN, TAMP, CONDENSE, PMB_ALERT, RST_N, BOOT0 to 2, REFCLK with PCIE_REFCLK, PCIE_PERST_N and WAKE. -/
inductive PinGroup where
  | linkTx (p : Fin 32)
  | linkRx (p : Fin 32)
  | ethTx (p : Fin 8)
  | ethRx (p : Fin 8)
  | mirTx
  | mirRx
  | pcie
  | ain
  | rog
  | gate (p : Fin 12) (k : Fin 4)
  | acp (n : Fin 4)
  | safety (c : Fin 8)
  | ppsOut
  | gpio (g : Fin 16)
  | qspi
  | uart (u : Fin 2)
  | jtag
  | irq
  | pmbus
  | spi0
  | spi1
  | fltIn
  | safetyIn
  | zc
  | ppsIn
  | tamp
  | condense
  | pmbAlert
  | rstN
  | bootPins
  | refclk
  | perstN
  | wake
  | pwrEn
  deriving DecidableEq, Repr

/-- What the device does with a pin group: high-impedance, an input (for a receiver terminated), a common mode without swing, a
released open drain, a level, or driven with data. -/
inductive PinDrive where
  | highZ
  | input
  | quiet
  | released
  | low
  | high
  | driven
  deriving DecidableEq, Repr

/-- A driven level. -/
def levelDrive (b : Bool) : PinDrive := if b then .high else .low

/-- The region a group belongs to (R464; SPI0 to ACQ also where the pins section assigns it to SUP); `none` for the chip-level inputs and
the wake domain. -/
def PinGroup.region : PinGroup → Option Region
  | .linkTx p | .linkRx p => some (if p.val < 16 then .lka else .lkb)
  | .ethTx _ | .ethRx _ | .mirTx | .mirRx | .pcie | .ppsOut | .ppsIn => some .net
  | .ain | .zc | .acp _ | .spi0 => some .acq
  | .rog | .gate _ _ | .safety _ | .fltIn | .safetyIn => some .grd
  | .gpio _ | .qspi | .spi1 | .uart _ | .jtag | .irq | .pmbus | .pmbAlert | .tamp | .condense => some .sup
  | .rstN | .bootPins | .refclk | .perstN | .wake | .pwrEn => none

/-- The first column of R468: the group's region is unpowered, in reset or isolated, or the device is held in HIBERNATE or without
power; the open drains of SUP are then released. -/
def PinGroup.undriven : PinGroup → PinDrive
  | .irq | .pmbus => .released
  | _ => .highZ

/-- What EXTEST and INTEST, allowed in BOOT only, drive from the scan chain (R417): the gate, safety and Pointing pins. -/
def State.scanDrive (s : State) (g : PinGroup) : Option PinDrive :=
  match s.tapNow, g with
  | .extest x, .gate p k | .intest x, .gate p k => some (levelDrive (x.gate.getLsbD (4 * p.val + k.val)))
  | .extest x, .safety c | .intest x, .safety c => some (levelDrive (x.safety.getLsbD c.val))
  | .extest x, .acp n | .intest x, .acp n => some (levelDrive (x.acp.getLsbD n.val))
  | _, _ => none

/-- The second column of R468: the CHIP reset and BOOT. -/
def State.bootDrive (s : State) (g : PinGroup) : PinDrive :=
  match g with
  | .irq | .pmbus => .released
  | .pcie => if s.regionOn .net then .driven else .highZ
  | .qspi => if s.bootSrc = 2 ∨ s.bootSrc = 3 then .highZ else .driven
  | .uart u => if u.val = 0 ∧ (s.bootSrc = 3 ∨ s.mqt.failed) then .input else .highZ
  | .jtag => .driven
  | _ => .highZ

/-- The third column of R468, from the end of BOOT. -/
def State.runDrive (s : State) (g : PinGroup) : PinDrive :=
  match g with
  | .linkTx p => if (s.port p.val).idling then .driven else .quiet
  | .ethTx p => if s.portDrives p.val then .driven else .quiet
  | .mirTx => if s.running .mir then .driven else .quiet
  | .linkRx _ | .ethRx _ | .mirRx | .ain | .rog | .zc | .fltIn | .safetyIn | .ppsIn | .tamp | .condense | .pmbAlert
  | .rstN | .bootPins | .refclk | .perstN | .wake => .input
  | .pcie | .qspi | .jtag | .spi0 | .spi1 => .driven
  | .gate p k =>
    match s.pairPins p.val with
    | some o => levelDrive ([o.1, o.2.1, o.2.2.1, o.2.2.2].getD k.val false)
    | none => .highZ
  | .acp n => match s.acpPin n with | some b => levelDrive b | none => .highZ
  | .safety c => match s.soPin c with | some b => levelDrive b | none => .highZ
  | .ppsOut => levelDrive s.net.ppsOut
  | .gpio g =>
    let c := spGet s.pins.gpioCfg g 0
    match c % 4 with
    | 0 => .highZ
    | 1 => .input
    | 2 => levelDrive (bitAt c 2)
    | _ => if bitAt c 2 then .released else .low
  | .uart u => if bitAt s.pins.uarts u then .driven else .highZ
  | .irq => if s.irqN then .released else .low
  | .pmbus => if s.flag Reg.PWR_CFG_EN then .driven else .released
  | .pwrEn => .high

/-- Whether the device is without its switched rails, or in HIBERNATE (R433 to R435, R467). -/
def State.railsOff (s : State) : Bool := s.mode = mHibernate || !s.ctl.pwrEn || !s.ctl.railsOk

/-- What the device does with a pin group (R467, R468); PWR_EN by R433 to R435. EXTEST and INTEST go before the power of the region (R417). -/
def State.pinDrive (s : State) (g : PinGroup) : PinDrive :=
  match g with
  | .pwrEn => if s.ctl.pwrEn then .high else if s.mode = mHibernate then .low else .highZ
  | .wake => if s.ctl.pwrEn ∨ s.mode = mHibernate then .input else .highZ
  | g =>
    if s.railsOff then g.undriven
    else
      match s.scanDrive g with
      | some d => d
      | none =>
        if (match g.region with | some r => !s.regionOn r | none => false) then g.undriven
        else if s.mode = mBoot then s.bootDrive g
        else s.runDrive g

end Sys2Proof.Machine
end

