-- ==== Sys2Proof/WellFormed.lean ====
section
/-! DEFINITION. Which operands a command can carry: what the converters, the links and the buses can deliver. A meaning is given to every
command all the same. -/

namespace Sys2Proof

/-- A code of the 14-bit converters (R51, R52). -/
def adcCode (v : Int) : Bool := decide (-8192 ≤ v) && decide (v < 8192)

/-- A frame of the Frieze link is no longer than 512 slots make it (R207, R211). -/
def friezeLength (f : List Byte) : Bool := decide (f.length ≤ 36 + 12 * 512)

/-- No entry of a list stands in it twice. -/
def noRepeat {α : Type} [DecidableEq α] (l : List α) : Bool :=
  match l with
  | [] => true
  | a :: r => !r.contains a && noRepeat r

/-- A strike of a word upsets at least one of its bits, of which no word has more than 55. -/
def strikeOk : Strike → Bool
  | .bits _ x => decide (0 < x) && decide (x < 2 ^ 55)
  | .bus _ => true
  | .fence _ => true

/-- A snapshot carries eight targets and 32 words (R267). -/
def Heartbeat.wf (h : Heartbeat) : Bool :=
  match h.snap with
  | none => true
  | some (_, targets, _, words) => targets.length == 8 && words.length == 32

/-- A request of the host is one byte long or more, and to a register of the endpoint four; a write carries its bytes (R361, R362). -/
def pcieWf (dst : PcieTo) (write : Bool) (len : Nat) (data : List Byte) : Bool :=
  decide (0 < len) && data.length == (if write then len else 0) && (match dst with
    | .bar0 | .bar2 => true
    | .power | .aer => len == 4)

/-- Whether the operands of a command are ones that can occur. -/
def Instr.wf (i : Instr) : Bool :=
  match i with
  | .registerWrite .. => true
  | .unmappedAccess .. => true
  | .regionOffAccess .. => true
  | .blockEnClear .. => true
  | .blockEnSet .. => true
  | .blockUnitComplete .. => true
  | .regionPowerDown .. => true
  | .regionDrainEnd .. => true
  | .regionPowerUp .. => true
  | .regionReset .. => true
  | .regionReload .. => true
  | .regionLost .. => true
  | .frameStart x => decide (-2147483648 ≤ x.tofs) && decide (x.tofs < 2147483648)
  | .angFrameUpdate => true
  | .pllPersistenceExpiry => true
  | .zcEdge .. => true
  | .sectorDeadTimeout => true
  | .idxarm .. => true
  | .angEnableChange .. => true
  | .sawWordReceived .. => true
  | .sawTimeout => true
  | .acpFire .. => true
  | .acpPulseEnd .. => true
  | .acpArm .. => true
  | .seqGo .. => true
  | .seqDelayExpiry .. => true
  | .adcEntryResult _ _ raw incoming _ => !raw.isEmpty && (raw ++ incoming).all adcCode && (incoming.isEmpty || incoming.length == raw.length)
  | .queueRead .. => true
  | .calStart .. => true
  | .calComplete factors => factors.length == 13
  | .rotSlotStart => true
  | .rotCalComplete .. => true
  | .rotHandoverDecision => true
  | .burnoutTestStart => true
  | .burnoutTestResult raw => adcCode raw
  | .svStreamStale .. => true
  | .formingFrame .. => true
  | .stage2End => true
  | .iholdTrip => true
  | .rideThroughExit => true
  | .islandDetect .. => true
  | .breakerClosedDetect => true
  | .bsarmWrite .. => true
  | .waitDeadExpiry => true
  | .claimSlotExpiry => true
  | .joinSettle => true
  | .resyncCloseTimeout => true
  | .resyncGridTimeout => true
  | .prfLoad .. => true
  | .fabricStart => true
  | .armatureDeadline => true
  | .portWordArrival .. => true
  | .nop .. => true
  | .endOp .. => true
  | .clr .. => true
  | .lda .. => true
  | .mul .. => true
  | .mac .. => true
  | .msu .. => true
  | .add .. => true
  | .sub .. => true
  | .adda .. => true
  | .suba .. => true
  | .sha .. => true
  | .neg .. => true
  | .abs .. => true
  | .max .. => true
  | .min .. => true
  | .lim .. => true
  | .str .. => true
  | .mov .. => true
  | .sel .. => true
  | .ldx .. => true
  | .stx .. => true
  | .sin .. => true
  | .cos .. => true
  | .atn .. => true
  | .sqr .. => true
  | .div .. => true
  | .mag .. => true
  | .illegalInstruction .. => true
  | .armRun1 .. => true
  | .pcommit .. => true
  | .tileDataWrite .. => true
  | .programFirstWordWrite .. => true
  | .programSecondWordWrite .. => true
  | .modulatorFrame .. => true
  | .telemetryStale .. => true
  | .linkFrameLaunch .. => true
  | .linkFrameReceived _ _ f _ => friezeLength f
  | .linkRxAlign .. => true
  | .linkRxLos .. => true
  | .linkRangeStart .. => true
  | .linkIdcheckStart .. => true
  | .restart .. => true
  | .linkBreak .. => true
  | .linkSwapDetected .. => true
  | .pointMirrorWrite .. => true
  | .pointReplyTimeout .. => true
  | .nodeSelfTestPass .. => true
  | .nodeFrameProcess _ _ f _ _ => friezeLength f
  | .nodeFrameRepeat _ _ f _ => friezeLength f
  | .nodeFold .. => true
  | .nodeUnfold .. => true
  | .nodeApply .. => true
  | .nodeHoldEntry .. => true
  | .nodeBlockEntry .. => true
  | .nodeAcquireTimeout .. => true
  | .nodeProtectionTrip .. => true
  | .renewSend => true
  | .leaseRenewReceived .. => true
  | .leaseAckReceived .. => true
  | .leaseReleaseReceived .. => true
  | .leaseHandoverReceived .. => true
  | .malletClaim => true
  | .pairIdleWaitEnd => true
  | .handover .. => true
  | .mirEpochWrite .. => true
  | .heartbeatSend => true
  | .hblost => true
  | .mirrorRecordSend => true
  | .mirrorRecordReceived r => decide (r.words.length < 2 ^ 16)
  | .mirrorLaneLoss .. => true
  | .snapshotSend => true
  | .snaplate => true
  | .pairPeriodStart .. => true
  | .pairEnable .. => true
  | .pairDisable .. => true
  | .faultInputActive .. => true
  | .faultInputInactive .. => true
  | .rogDetection .. => true
  | .rogBlankEnd .. => true
  | .rogSoftStageStart .. => true
  | .rogSoftStageEnd .. => true
  | .rogThresholdUpdate .. => true
  | .coilCheck .. => true
  | .polarityTestStart .. => true
  | .polarityTestDone .. => true
  | .ovControllerResult .. => true
  | .ovInvalidTimeout .. => true
  | .ficlr .. => true
  | .deviceHalt .. => true
  | .deviceHaltEnd .. => true
  | .safetyInputFiltered .. => true
  | .safetyScan .. => true
  | .discrepancyTimeout .. => true
  | .testPulseStart .. => true
  | .testPulseEnd .. => true
  | .readbackTimeout .. => true
  | .safetyPtest .. => true
  | .safetyCopyMismatch => true
  | .safetyCfgCrcCheck => true
  | .safetyCompareTimeout => true
  | .safetyNetPermit => true
  | .safetyNetDemand => true
  | .safetyNetReset => true
  | .safetyNetPtest => true
  | .nettmo => true
  | .cstRow .. => true
  | .castRearm => true
  | .measurementComplete => true
  | .castArm .. => true
  | .swtrig .. => true
  | .cstHold .. => true
  | .cstRel .. => true
  | .ethFrameReceived _ _ _ hb _ => hb.wf
  | .ethTxRecord .. => true
  | .ethFrameSent .. => true
  | .launchTimeReached .. => true
  | .ethLinkChange .. => true
  | .txqheadRead .. => true
  | .ptpIncfWrite .. => true
  | .ptpTimeWrite .. => true
  | .deviceTimeWrap => true
  | .secondBoundary => true
  | .ppsPulseEnd => true
  | .ppsInEdge .. => true
  | .timeTriggerFire .. => true
  | .pcieRequest dst write _ len data => pcieWf dst write len data
  | .pcieLinkLoss => true
  | .coreRun .. => true
  | .coreReset .. => true
  | .wdtKick .. => true
  | .wdtTimeout .. => true
  | .mtimeCompareMatch .. => true
  | .ringWrWrite .. => true
  | .ringRdWrite .. => true
  | .dmaStart .. => true
  | .dmaStop .. => true
  | .dmaKick .. => true
  | .dmaResume .. => true
  | .dmaBurstStart => true
  | .dmaBurstEnd => true
  | .mbxDataWrite .. => true
  | .mbxGo .. => true
  | .mbxAck .. => true
  | .mbxExpiry .. => true
  | .mbxNoteClr .. => true
  | .semLockRead ms _ => !ms.isEmpty && noRepeat ms
  | .semLockWrite .. => true
  | .semForce .. => true
  | .intHack .. => true
  | .maquetteLoad .. => true
  | .mqtHostgo .. => true
  | .uartImageReceived bytes => decide (bytes.length < 2 ^ 32)
  | .uartImageGapTimeout => true
  | .stage .. => true
  | .stageCheckComplete => true
  | .commit .. => true
  | .cancel .. => true
  | .arbCommit .. => true
  | .keyRevoke .. => true
  | .keyProgram .. => true
  | .close .. => true
  | .fuseCommandComplete .. => true
  | .tamperActive .. => true
  | .modeRequest .. => true
  | .tripRequest .. => true
  | .lockoutEntry => true
  | .refclkLost => true
  | .pllLock .. => true
  | .pllLossOfLock .. => true
  | .chipReset .. => true
  | .rstNLow .. => true
  | .powerOn => true
  | .hib .. => true
  | .hibernateEntry => true
  | .wake .. => true
  | .scrubPass _ struck _ => struck.all strikeOk && noRepeat struck
  | .lbist .. => true
  | .lbistRegionDone .. => true
  | .mbist .. => true
  | .mbistDone failed => noRepeat (failed.map Prod.fst)
  | .abort .. => true
  | .transparentTestWord .. => true
  | .patinaJudgement .. => true
  | .patinaSupDerate => true
  | .restore .. => true
  | .basecap .. => true
  | .patinaMeasurement .. => true
  | .patinaLogWrite => true
  | .pmbusEnable .. => true
  | .pmbusConfirm .. => true
  | .pmbusAlert .. => true
  | .tjMeasure .. => true
  | .condenseChange .. => true
  | .nodeRxAlign .. => true
  | .mirrorLaneAlign .. => true
  | .pcieLinkUp .. => true
  | .hostMsiEnable .. => true
  | .pairOutputEdge .. => true
  | .vwakeLoss => true
  | .railMonitorRelease .. => true
  | .supSramAccess .. => true
  | .lateTransition .. => true
  | .poweredHour => true
  | .jtagInstruction .. => true

end Sys2Proof
end

