-- ==== Sys2Proof/Tests/Slice0.lean ====
section
/-! SUPPORT. Tests: ill-formed operands, single steps with values from the spec, and for every statement with hypotheses a state and operands
that meet them. -/

namespace Sys2Proof.Tests

set_option linter.unusedVariables false
set_option Elab.async false

open Sys2Proof Sys2Proof.Machine

/-! ## Small states -/

/-- Every region is on and the mode is IDLE; master 1 may access every target. -/
def up : State := ((State.reset.wr Reg.SUP_RGN_STAT_ON 255).wr Reg.SUP_MODE_MODE 2).setPolicy { Policy.reset with access := [(1, 0xFFFFFFFF)], secMask := 2 }

/-- Block `b` runs, and did at the last frame start. -/
def on (b : Block) (s : State) : State :=
  let s := (s.wr (blockEn b) 1).wr (blockState b) 1
  s.setLatch (spPut (spPut s.latch (blockEn b).key 1) (blockState b).key 1)
/-- An accumulator's word with its residue. -/
def accOf (x : Int) : Nat := pattern 40 x + residue (pattern 40 x) * 2 ^ 40
/-- Tile 15 runs one instruction word. -/
def tile (opc acc a b d mod : Nat) : State :=
  ((on .arm up).set1 Reg.ARM_STAT_RUN).setArm { Arm.reset with
    prog := [(15 * 256, opc * 2 ^ 42 + acc * 2 ^ 40 + a * 2 ^ 29 + b * 2 ^ 18 + d * 2 ^ 7 + mod)], tiles := [(15, ⟨0, 0, false⟩)],
    dat := [(15 * 1024 + 1, 0x1234), (15 * 1024 + 2, 0xF000)], acc := [(15 * 4 + 1, accOf 1000), (15 * 4 + 2, accOf (-70000))] }

/-- A frame with header `h`, its HCRC generated, and these slot bytes. -/
def mkFrame (h : Nat) (slots : List Nat) : List Byte := (sealFrame (leBytes 32 (withHcrc h false) ++ slots)).map (BitVec.ofNat 8)
/-- Link port 3 with two slots, running, its receiver aligned. -/
def port3 (x : LnkPort) : State := ((on (lnkBlock 3) up).wr (Reg.LNK_CFG_NSLOT 3) 2).putPort 3 { x with aligned := true }
/-- Submodule node 5 stands as `n`. -/
def node5 (n : Node) : State := up.putNode 5 n
/-- A command kept by a node for device time `a`. -/
def nodeCmd (a : Nat) : NodeCmd := ⟨a, 1, 0x51, 100000, 2⟩
/-- Field `f` was `v` at the last frame start. -/
def lat (f : Fld) (v : Nat) (s : State) : State := s.setLatch (spPut s.latch f.key v)
/-- Field `f` is `v` and was at the last frame start. -/
def both (f : Fld) (v : Nat) (s : State) : State := lat f v (s.wr f v)
/-- The forming core in FORM_GRID, with measurements and set-points. -/
def formed : State :=
  let s := (((on .frm up).wr Reg.SUP_MODE_MODE 5).wr Reg.FRM_FBASE_FBASE (50 * 65536)).wr (Reg.PTP_TRGCFG_PERIOD 0) 25000
  let s := [(Reg.FRM_VSEL_CHA, 0), (Reg.FRM_VSEL_CHB, 1), (Reg.FRM_VSEL_CHC, 2), (Reg.FRM_ISEL_CHA, 3), (Reg.FRM_ISEL_CHB, 4), (Reg.FRM_ISEL_CHC, 5),
    (Reg.FRM_SCL_VSCL, 4096), (Reg.FRM_SCL_ISCL, 5000), (Reg.FRM_FILT_TPF, 100), (Reg.FRM_FILT_TQF, 50), (Reg.FRM_DROOP_MP, 300),
    (Reg.FRM_DROOP_MQ, 500), (Reg.FRM_H_H, 500), (Reg.FRM_DAMP_D, 200), (Reg.FRM_CTRL_LCOMP, 1), (Reg.FRM_CTRL_VMODE, 1), (Reg.FRM_CTRL_DREF, 1), (Reg.FRM_VCTL_KIV, 100),
    (Reg.FRM_VCTL_KPV, 700), (Reg.FRM_ZV_RV, 900), (Reg.FRM_ZV_XV, 6000), (Reg.FRM_RTH_HENTER, 1300), (Reg.FRM_RTH_HEXIT, 1200), (Reg.FRM_XLIM_XLIM, 300)].foldl (fun s e => lat e.1 e.2 s) s
  let ch (k v : Nat) : Nat × Nat := (k, 2 ^ 31 + v)
  ((s.setAcq { s.acq with snap := [ch 0 0x1000, ch 1 0x6000, ch 2 0x9100, ch 3 0x0800, ch 4 0x1234, ch 5 0xE700] }).setPrf
    [(0, ⟨fxOne / 2, 0, 0⟩), (1, ⟨fxOne / 5, 0, 0⟩), (2, ⟨fxOne + fxOne / 300, 0, 0⟩), (3, ⟨fxOne - fxOne / 30, 0, 0⟩)]).setFrm
    { s.frm with omega := fxOne, theta := fxOne / 7, pf := fxOne / 3, qf := fxOne / 9, vm := fxOne, x := fxOne / 50, e := fxOne, vref := (fxOne / 2, fxOne / 3), t0 := 77 }
/-- A modulated frame of arm 0, six submodules with a ranking, in modulation `mode` and with reference word `r`. -/
def arm0 (mode r : Nat) (blocked : Bool) : State :=
  let s := ((((on .mod (on .rsp up)).wr Reg.SUP_MODE_MODE 5).wr Reg.FRM_STAT_FVALID 1).wr Reg.ARM_STAT_AVALID 1).wr Reg.FRM_VBASE_VBASE 5200
  let s := lat (Reg.MOD_ARMCFG_MODE 0) mode (lat (Reg.MOD_ARMCFG_NORM 0) 1 (lat (Reg.MOD_ARMVSM_VSMN 0) 1 s))
  let s := [(768, 1), (769, 0), (770, 1), (771, 0), (772, 1), (773, 0)].foldl (fun s e =>
    (((s.wr (Reg.MOD_SM_PRESENT e.1) 1).wr (Reg.MOD_SM_AVAIL e.1) 1).wr (Reg.MOD_SM_LAST e.1) e.2).wr (Reg.RSP_KEY_KEY e.1) ((e.1 - 768) * 700)) s
  (s.setMod { s.mod with arms := [(0, { ArmMod.reset with order := [768, 769, 770, 771, 772, 773], mode := mode, carry := 300, cnt := 3 })]
                         given := [(0, r)], blocked := blocked }).setFrm { s.frm with t0 := 77 }

/-! ## Operands that cannot occur -/

/-- What a node senses in the tests. -/
def sense : NodeSense := ⟨7, 8, 0, 0, false, false, 0⟩

theorem test_wf_frame_start : (Instr.frameStart ⟨2147483648, none⟩).wf = false ∧ (Instr.frameStart ⟨-2147483648, none⟩).wf = true := by decide
theorem test_wf_adc_empty : (Instr.adcEntryResult 0 0 [] [] true).wf = false := by decide
theorem test_wf_adc_code : (Instr.adcEntryResult 0 0 [8192] [] true).wf = false ∧ (Instr.adcEntryResult 0 0 [8191] [] true).wf = true := by decide
theorem test_wf_adc_incoming : (Instr.adcEntryResult 0 0 [1, 2] [1] true).wf = false := by decide
theorem test_wf_cal_complete : (Instr.calComplete [1, 2]).wf = false := by decide
theorem test_wf_burnout : (Instr.burnoutTestResult (-8193)).wf = false := by decide
theorem test_wf_link_frame : (Instr.linkFrameReceived 0 true (List.replicate 6181 0) 0).wf = false := by decide +kernel
theorem test_wf_node_process : (Instr.nodeFrameProcess 0 true (List.replicate 6181 0) 0 sense).wf = false := by decide +kernel
theorem test_wf_node_repeat : (Instr.nodeFrameRepeat 0 true (List.replicate 6181 0) 0).wf = false := by decide +kernel
theorem test_wf_mirror_record : (Instr.mirrorRecordReceived ⟨0, 0, 0, 0, List.replicate 65536 0, true⟩).wf = false := by decide +kernel
theorem test_wf_eth_heartbeat : (Instr.ethFrameReceived 0 [] true ⟨0, none, some (0, [], 0, [])⟩ none).wf = false := by decide
theorem test_wf_pcie_length : (Instr.pcieRequest .bar0 true 0 4 [1, 2]).wf = false ∧ (Instr.pcieRequest .bar0 true 0 0 []).wf = false := by decide
theorem test_wf_sem_readers : (Instr.semLockRead [] 5).wf = false ∧ (Instr.semLockRead [2, 2] 5).wf = false ∧ (Instr.semLockRead [2, 0] 5).wf = true := by decide
theorem test_wf_scrub_word : (Instr.scrubPass 2 [.bits 9 0] false).wf = false ∧ (Instr.scrubPass 2 [.bits 9 1, .bits 9 1] false).wf = false := by decide
theorem test_wf_mbist_arrays : (Instr.mbistDone [(3, 0), (3, 4)]).wf = false := by decide

/-! ## Single steps, with values from the spec -/

/-- Whether a command answers a next state in which `P` holds. -/
def after (c : Instr) (s : State) (P : State → Bool) : Bool :=
  match exec c s with
  | .next t => P t
  | _ => false

/-- The example at R387: core 1 (master 2) and the host read a free SEM_LOCK5 while the pointer stands at 1. -/
theorem test_sem_two_readers :
    after (.semLockRead [0, 2] 5) (State.setSup (up.setPolicy { up.policy with access := [(0, 0xFFFFFFFF), (2, 0xFFFFFFFF)] }) { up.sup with rr := [(1, 1)] })
      (fun t => decide (t.bus = [⟨2, 0x80000002, false⟩, ⟨0, 2, false⟩]) && t.semOwner 5 == 2) = true := by decide

/-- A command at the front of the queue is taken from it. -/
theorem test_step_takes_front :
    (match step (up.setPending [.swtrig 1, .idxarm 1]) with | .next t => t.pending | _ => []) = [.idxarm 1] := by decide

/-- R27: nothing is assigned at 0x70000000. -/
theorem test_unmapped_read : after (.unmappedAccess 1 false 0x70000000) up (fun t => decide (t.bus = [⟨1, 0, true⟩]) && t.rd Reg.INT_PERR_KIND == peUnmapped) = true := by decide

theorem test_pins_boot : State.reset.pinDrive (.linkTx 3) = .highZ ∧ State.reset.pinDrive .irq = .released := by decide
theorem test_pins_idle : up.pinDrive (.linkTx 3) = .quiet ∧ up.pinDrive .ppsOut = .low ∧ up.pinDrive (.gate 2 0) = .highZ := by decide

/-- R151: (-1) x (-1) in Q30 does not saturate. -/
theorem test_mul_minus_one :
    after (.mul 15 0 .clear) ((tile 4 1 1 2 0 0).setArm { (tile 4 1 1 2 0 0).arm with dat := [(15 * 1024 + 1, 0x8000), (15 * 1024 + 2, 0x8000)] })
      (fun t => decide (t.armAcc 15 1 = 2 ^ 30)) = true := by decide

/-- R155: division of a negative word by 0. -/
theorem test_div_by_zero :
    after (.div 15 0 .clear) ((tile 36 1 1 2 7 0).setArm { (tile 36 1 1 2 7 0).arm with dat := [(15 * 1024 + 1, 0xF000)] })
      (fun t => spGet t.arm.dat (15 * 1024 + 7) 0 == 0x8000 && t.flag Reg.ARM_ALRM_DOMAIN) = true := by decide

/-- The example of 07: 256 slots and FIBMAX 55 admit a round trip of 316,800 units, so 294,320 units is not too long. -/
theorem test_round_trip_limit : ((port3 LnkPort.reset).wr (Reg.LNK_CFG_NSLOT 3) 256 |>.wr (Reg.LNK_CFG_FIBMAX 3) 55).rtLimit 3 = 316800 := by decide

/-- R434: HIB with another key is discarded. -/
theorem test_hib_key : after (.hib 1 0x1234) up (fun t => t.mode == mIdle && t.rd Reg.INT_PERR_KIND == peBusyMode) = true := by decide

/-- R419: the bits of a key slot that are set stay set when it is programmed again. -/
theorem test_fuse_stays :
    after (.fuseCommandComplete 0#257) ((up.setMqt { up.mqt with fuse := some (3, 1) }).setFuses { up.fuses with keyHash := [(8, 5)] } |>.wr (Reg.SEC_KEYSTAGE_HASH 0) 6)
      (fun t => spGet t.fuses.keyHash 8 0 == 7 && bitAt t.fuses.keyProg 1) = true := by decide +kernel

/-- R233: the fifth point operation of a submodule is refused. -/
theorem test_point_queue_full :
    after (.pointMirrorWrite 1 0x6004 7) ((up.wr (Reg.MOD_SM_PRESENT 768) 1).putPt 768 { PtNode.reset with queue := [(1, 1), (1, 1), (1, 1), (1, 1)] })
      (fun t => t.flag (Reg.LNK_ALRM_PQFULL 3) && t.rd Reg.INT_PERR_KIND == peState) = true := by decide

/-! ## States and operands that meet the hypotheses of each statement -/

/-! A boot image that passes every check of R402 to R415, in flash. -/

def zeros (n : Nat) : List Nat := List.replicate n 0
def entry8 (a v : Nat) : List Nat := leBytes 4 a ++ leBytes 4 v
def imgPins := leBytes 4 1 ++ zeros 20
def imgClocks := leBytes 4 1 ++ leBytes 2 200 ++ zeros 10
def imgRegions := leBytes 4 1 ++ [155] ++ zeros 3
def imgTopo := leBytes 4 1 ++ zeros 900
def imgGraph := leBytes 4 1 ++ zeros 8 ++ [1, 0, 0, 0]
def imgForm := entry8 0x43000010 400000 ++ entry8 0x43000014 1000 ++ entry8 0x4300001C 0x320000 ++ entry8 0x430000A0 1
def imgSafe0 := leBytes 4 1 ++ leBytes 4 (10 * 65536 + 50) ++ zeros 4 ++ leBytes 4 (256 + 1) ++ zeros 4 ++ (List.range 9).flatMap (fun _ => leBytes 4 (2 ^ 25 + 2 ^ 16)) ++ zeros 20
def imgSafe (c : Nat) := imgSafe0 ++ leBytes 4 c
def imgNet := leBytes 4 1 ++ zeros 4 ++ leBytes 2 100 ++ leBytes 2 1 ++ leBytes 2 1 ++ zeros 10
def imgMbx := zeros 128
def imgPolicy := leBytes 4 1 ++ zeros 38 ++ leBytes 2 1 ++ zeros 4
def imgHead : List Nat := leBytes 128 0x3090b75300000000000000000000000000000000000000005c1519bb60be5eacec1bead924d446f85a2bd3389ec842ed378027d1da240d0500000000000000000000000000000000000000000000000000000000000000000000000000000000000000000000000081921296000000070000000c00000640008000014d515445
def imgTable : List Nat := leBytes 192 0xdb954ca400000030000006100000000c082764db00000080000005900000000b0000000000000000000005900000000ae912f07f000000180000057800000009010ae6cc000000500000052800000008000000000000000000000528000000070b7dbf6a0000002000000508000000066d393dac00000010000004f8000000057ce2e5b9000003880000017000000004eab65d7000000008000001680000000393f7e0b10000001000000158000000023eb42e60000000180000014000000001
def bootImage : List Nat := imgHead ++ imgTable ++ imgPins ++ imgClocks ++ imgRegions ++ imgTopo ++ imgGraph ++ imgForm ++ imgSafe 1295556006 ++ imgNet ++ imgMbx ++ imgPolicy

/-- The cells of a flash that holds the bytes `l` from offset `o` on. -/
def cellsFrom (o : Nat) : List Nat → List Host.Cell
  | [] => []
  | b :: r => if b = 0 then cellsFrom (o + 1) r else (o, BitVec.ofNat 8 b) :: cellsFrom (o + 1) r

theorem cellsFrom_lt (l : List Nat) : ∀ o k, k < o → spGet (cellsFrom o l) k memDefault = memDefault := by
  induction l with
  | nil => intros; rfl
  | cons b r ih =>
    intro o k h
    by_cases hb : b = 0
    · simp only [cellsFrom, hb, if_true]; exact ih _ _ (by omega)
    · have h2 : o ≠ k := by omega
      have := ih (o + 1) k (by omega)
      simpa [cellsFrom, hb, spGet, spFind, h2] using this

theorem cellsFrom_get (l : List Nat) : ∀ o k, o ≤ k → spGet (cellsFrom o l) k memDefault = BitVec.ofNat 8 (l.getD (k - o) 0) := by
  induction l with
  | nil => intros; rfl
  | cons b r ih =>
    intro o k h
    rcases Nat.lt_or_eq_of_le h with hk | rfl
    · have e : k - o = (k - (o + 1)) + 1 := by omega
      rw [e, List.getD_cons_succ, ← ih (o + 1) k (by omega)]
      by_cases hb : b = 0
      · simp [cellsFrom, hb]
      · have h2 : o ≠ k := by omega
        simp [cellsFrom, hb, spGet, spFind, h2]
    · by_cases hb : b = 0
      · simp [cellsFrom, hb, cellsFrom_lt _ _ _ (Nat.lt_succ_self o)]; rfl
      · simp [cellsFrom, hb, spGet, spFind]

theorem bytesAt_cells (s : State) (l : List Nat) (h : l.all (fun b => decide (b < 256)) = true) (hf : s.flash = cellsFrom 0 l) (a n : Nat) (ha : a + n ≤ l.length) :
    s.bytesAt (0x60000000 + a) n = (l.drop a).take n := by
  apply List.ext_getElem
  · simp [State.bytesAt]; omega
  · intro i h1 h2
    simp [State.bytesAt] at h1
    simp only [State.bytesAt, List.getElem_map, List.getElem_range, List.getElem_take, List.getElem_drop]
    rw [if_pos (by omega)]
    simp only [State.flashByte, hf]
    rw [cellsFrom_get _ _ _ (Nat.zero_le _)]
    have e : 1610612736 + a + i - 1610612736 - 0 = a + i := by omega
    have e2 : l[a + i]?.getD 0 = l[a + i]'(by omega) := by simp [List.getElem?_eq_getElem (show a + i < l.length by omega)]
    simp only [e, List.getD_eq_getElem?_getD, e2, BitVec.toNat_ofNat]
    have : ∀ b ∈ l, b < 256 := by simpa using h
    exact Nat.mod_eq_of_lt (this _ (List.getElem_mem _))

def flashed : State := State.reset.setFlash (cellsFrom 0 bootImage)
theorem image_bytes : bootImage.all (fun b => decide (b < 256)) = true := by decide +kernel
theorem image_len : bootImage.length = 1600 := by decide +kernel
theorem image_at : flashed.imageAt (placeAddr 0) (imgLimit 0) = bootImage := by
  have h8 : leNat ((bootImage.drop 8).take 4) = 1600 := by decide +kernel
  have e : flashed.bytesAt (placeAddr 0 + 8) 4 = (bootImage.drop 8).take 4 := bytesAt_cells _ _ image_bytes rfl 8 4 (by have := image_len; omega)
  have f : flashed.bytesAt (0x60000000 + 0) 1600 = (bootImage.drop 0).take 1600 := bytesAt_cells _ _ image_bytes rfl 0 1600 (by have := image_len; omega)
  simp only [State.imageAt, e, h8]
  have := List.take_of_length_le (show bootImage.length ≤ 1600 by have := image_len; omega)
  simpa [placeAddr, imgLimit, this] using f






/-- A part of the CRC-32C. -/
def crcRun (c : Nat) (l : List Nat) : Nat := l.foldl (fun c b => crc32Bits 0x82F63B78 8 (c ^^^ (b % 256))) c
theorem crcRun_append (c : Nat) (a b : List Nat) : crcRun c (a ++ b) = crcRun (crcRun c a) b := List.foldl_append
theorem image_crc_topo : crc32c imgTopo = 2095244729 := by
  have e : imgTopo = leBytes 4 1 ++ zeros 100 ++ zeros 100 ++ zeros 100 ++ zeros 100 ++ zeros 100 ++ zeros 100 ++ zeros 100 ++ zeros 100 ++ zeros 100 := by decide +kernel
  have h0 : crcRun 0xFFFFFFFF (leBytes 4 1) = 1792876160 := by decide +kernel
  have h1 : crcRun 1792876160 (zeros 100) = 1032353121 := by decide +kernel
  have h2 : crcRun 1032353121 (zeros 100) = 2061127359 := by decide +kernel
  have h3 : crcRun 2061127359 (zeros 100) = 1603893639 := by decide +kernel
  have h4 : crcRun 1603893639 (zeros 100) = 2852304159 := by decide +kernel
  have h5 : crcRun 2852304159 (zeros 100) = 3135863189 := by decide +kernel
  have h6 : crcRun 3135863189 (zeros 100) = 120657167 := by decide +kernel
  have h7 : crcRun 120657167 (zeros 100) = 2794934512 := by decide +kernel
  have h8 : crcRun 2794934512 (zeros 100) = 1196905570 := by decide +kernel
  have h9 : crcRun 1196905570 (zeros 100) = 2199722566 := by decide +kernel
  have u : ∀ l, crc32c l = crcRun 0xFFFFFFFF l ^^^ 0xFFFFFFFF := fun _ => rfl
  rw [u, e]
  simp only [crcRun_append, h0, h1, h2, h3, h4, h5, h6, h7, h8, h9]
  decide
theorem image_header : headerFail bootImage (imgLimit 0) false = none := by decide +kernel
theorem image_table : tableFail bootImage false = none := by decide +kernel
theorem image_signature : signatureFail Fuses.blank bootImage = none := by decide +kernel
theorem image_digest : structDigest bootImage = headStruct bootImage := by decide +kernel
theorem image_sections : sectionsFail bootImage = none := by decide +kernel
theorem image_sects : imSects bootImage = [⟨1, 320, 24, 1051995744⟩, ⟨2, 344, 16, 2482495665⟩, ⟨3, 360, 8, 3937820016⟩, ⟨4, 368, 904, 2095244729⟩,
    ⟨5, 1272, 16, 1832467884⟩, ⟨6, 1288, 32, 192790378⟩, ⟨7, 1320, 0, 0⟩, ⟨8, 1320, 80, 17491660⟩, ⟨9, 1400, 24, 3910332543⟩,
    ⟨10, 1424, 0, 0⟩, ⟨11, 1424, 128, 136799451⟩, ⟨12, 1552, 48, 3683994788⟩] := by decide +kernel
theorem image_bodies : bodyFail bootImage = none := by
  have b4 : imSlice bootImage 368 904 = imgTopo := by decide +kernel
  have c1 : crc32c (imSlice bootImage 320 24) = 1051995744 := by decide +kernel
  have c2 : crc32c (imSlice bootImage 344 16) = 2482495665 := by decide +kernel
  have c3 : crc32c (imSlice bootImage 360 8) = 3937820016 := by decide +kernel
  have c5 : crc32c (imSlice bootImage 1272 16) = 1832467884 := by decide +kernel
  have c6 : crc32c (imSlice bootImage 1288 32) = 192790378 := by decide +kernel
  have c7 : crc32c (imSlice bootImage 1320 0) = 0 := by decide +kernel
  have c8 : crc32c (imSlice bootImage 1320 80) = 17491660 := by decide +kernel
  have c9 : crc32c (imSlice bootImage 1400 24) = 3910332543 := by decide +kernel
  have c10 : crc32c (imSlice bootImage 1424 0) = 0 := by decide +kernel
  have c11 : crc32c (imSlice bootImage 1424 128) = 136799451 := by decide +kernel
  have c12 : crc32c (imSlice bootImage 1552 48) = 3683994788 := by decide +kernel
  simp [bodyFail, image_sects, b4, image_crc_topo, c1, c2, c3, c5, c6, c7, c8, c9, c10, c11, c12, firstFail]
theorem test_image_full : flashed.fullFail (flashed.imageAt (placeAddr 0) (imgLimit 0)) 0 = none := by
  have f : imU bootImage 0x20 4 = 0 := by decide +kernel
  have v : imU bootImage 0x10 4 = 7 := by decide +kernel
  rw [image_at]
  have d : flashed.fuses = Fuses.blank := rfl
  have c : decide (Fuses.blank.secMode = 1) = false := by decide
  have a : Fuses.blank.arb = 0 := rfl
  simp [State.fullFail, State.firmwareFail, d, c, a, f, v, image_bodies, image_header, image_table, image_digest, image_sections, image_signature, orFail]

theorem test_wit_EmptyQueueTicks_1 : ∃ s : State, s.pending = [] := ⟨State.reset, by decide⟩

theorem test_wit_GateRefuses_1 : ∃ (c : Instr) (m : Master) (w : Bool) (a : Nat) (s : State), accessOf c = some (m, w, a) ∧ s.reaches m
    w a = false := ⟨.coreRun 3 1, 3, true, 0x40000200, up, by decide⟩

theorem test_wit_GateRefuses_2 : ∃ (c : Instr) (m : Master) (w : Bool) (a : Nat) (s : State), accessOf c = some (m, w, a) ∧ s.reaches m
    w a = false ∧ s.leaves m w a = true ∧ spFind s.sup.busBad m.val ≠ none := ⟨.coreRun 1 1, 1, true, 0x40000200, up.setSup
    { up.sup with busBad := [(1, 1)] }, by decide⟩

theorem test_wit_StepKeepsMemory_1 : ∃ s t : State, s.memOk = true ∧ step s = .next t := ⟨State.reset, State.reset.elapse 1, by decide,
    rfl⟩

theorem test_wit_StepKeepsFuses_1 : ∃ s t : State, s.fuses.secMode ≤ 1 ∧ step s = .next t := ⟨State.reset, State.reset.elapse 1, by
    decide, rfl⟩

theorem test_wit_MemoryFrame_1 : ∃ c : Instr, writesMemory c = false := ⟨.pcommit 1, by decide⟩

theorem test_wit_NodeBypass_1 : ∃ (j : Fin 8192) (c : NodeCmd) (r : List NodeCmd) (s : State), ((s.node j).st = nRun ∨ (s.node j).st =
    nHold ∨ (s.node j).st = nBlocked) ∧ (s.node j).cmds = c :: r ∧ bitAt c.bits 6 = true := ⟨5, ⟨77, 1, 0x51, 100000, 2⟩, [], node5
    { Node.reset with st := 5, cmds := [⟨77, 1, 0x51, 100000, 2⟩] }, by decide⟩

theorem test_wit_NodeBypass_2 : ∃ (j : Fin 8192) (s : State), (s.node j).byp = true := ⟨5, node5 { Node.reset with byp := true }, by
    decide⟩

theorem test_wit_ScrubInterval_1 : ∃ (a : Fin 11) (struck : List Strike) (late : Bool) (s : State), (s.flag Reg.PAT_CTRL_PLANSCR =
    true) ∧ (s.works .pat = true) ∧ (s.flag Reg.BST_CTRL_EN = true) ∧ ((arrayRegions a).any s.regionOn = true) ∧ (bitAt s.bst.arrays a
    = false) ∧ (s.widths [Reg.BST_SCR_SI a, Reg.BST_SCR_SILOAD a] = true) ∧ (10 ≤ s.rd (Reg.BST_SCR_SI a)) := ⟨2, [.bits 9 1], false,
    ((((on .pat up).wr Reg.PAT_CTRL_PLANSCR 1).wr Reg.BST_CTRL_EN 1).wr (Reg.BST_CTHR_CTHR 2) 1).wr (Reg.BST_SCR_SILOAD 2) 500, by
    decide +kernel⟩

theorem test_wit_ScrubInterval_2 : ∃ (a : Fin 11) (struck : List Strike) (late : Bool) (s : State), (spGet s.bst.quiet a 0 < 15) ∧
    (s.flag Reg.PAT_CTRL_PLANSCR = true) ∧ (s.works .pat = true) ∧ (s.flag Reg.BST_CTRL_EN = true) ∧ ((arrayRegions a).any s.regionOn =
    true) ∧ (bitAt s.bst.arrays a = false) ∧ (s.widths [Reg.BST_SCR_SI a, Reg.BST_SCR_SILOAD a] = true) ∧ (10 ≤ s.rd (Reg.BST_SCR_SI
    a)) := ⟨2, [], false, (((((on .pat up).wr Reg.PAT_CTRL_PLANSCR 1).wr Reg.BST_CTRL_EN 1).wr (Reg.BST_CTHR_CTHR 2) 1).wr
    (Reg.BST_SCR_SILOAD 2) 500).setBst { up.bst with quiet := [(2, 14)] }, by decide +kernel⟩

theorem test_wit_ScrubInterval_3 : ∃ (a : Fin 11) (struck : List Strike) (late : Bool) (s : State), (s.flag Reg.PAT_CTRL_PLANSCR =
    false ∨ s.works .pat = false) := ⟨2, [.bits 9 1], false, (((((on .pat up).wr Reg.PAT_CTRL_PLANSCR 1).wr Reg.BST_CTRL_EN 1).wr
    (Reg.BST_CTHR_CTHR 2) 1).wr (Reg.BST_SCR_SILOAD 2) 500).wr Reg.PAT_CTRL_PLANSCR 0, by decide +kernel⟩

theorem test_wit_ModeRequestsAndTrips_1 : ∃ (m : Master) (s : State), (s.reaches m true 0x40000304 = true) := ⟨1, up, by
    decide +kernel⟩

theorem test_wit_ModeRequestsAndTrips_2 : ∃ (m : Master) (target : Fin 16) (s : State), (s.reaches m true modeReqAddr = true) ∧
    (afterBoot s.mode = true) ∧ (s.mode ≠ mLockout) ∧ (target.val ≠ mLockout) ∧ (s.flag Reg.SUP_MODESTAT_PEND = false) := ⟨1, 3, up, by
    decide +kernel⟩

theorem test_wit_ModeRequestsAndTrips_3 : ∃ (m : Master) (s : State), (s.reaches m true modeReqAddr = true) ∧ (s.mode ≠ mBoot) ∧
    (s.mode ≠ mHibernate) ∧ (s.mode ≠ mLockout) := ⟨1, up, by decide +kernel⟩

theorem test_wit_ModeRequestsAndTrips_4 : ∃ (m : Master) (target : Fin 16) (s : State), (s.reaches m true modeReqAddr = true) ∧ (s.mode
    = mBoot ∨ s.mode = mHibernate ∨ (target.val ≠ mLockout ∧ (s.mode = mLockout ∨ s.flag Reg.SUP_MODESTAT_PEND = true))) := ⟨1, 3,
    State.reset, by decide +kernel⟩

theorem test_wit_LockoutAndClockLoss_1 : ∃ (k r : Nat) (s : State), (s.ctl.lock = some (k, r)) ∧ (afterBoot s.mode = true) ∧ (s.mode ≠
    mLockout) := ⟨2, 3, up.setCtl { up.ctl with lock := some (2, 3) }, by decide +kernel⟩

theorem test_wit_LockoutAndClockLoss_2 : ∃ (s : State), (s.ctl.pwrEn = true) ∧ (s.ctl.refLost = false) ∧ (afterBoot s.mode = true) :=
    ⟨up, by decide +kernel⟩

theorem test_wit_LockoutAndClockLoss_3 : ∃ (p : Pll) (s : State), (s.outOfReset = true) ∧ (s.mode = mBoot) ∧ (s.rd (coreState 0) = 0) ∧
    (putBit s.ctl.pllLock (pllBit p) true = 15) := ⟨.sup, State.reset.setCtl { State.reset.ctl with pllLock := 7 }, by decide +kernel⟩

theorem test_wit_LockoutAndClockLoss_4 : ∃ (p : Pll) (s : State), (s.outOfReset = true) ∧ (s.mode ≠ mBoot) := ⟨.sup, up, by
    decide +kernel⟩

theorem test_wit_LockoutAndClockLoss_5 : ∃ (p : Pll) (s : State), (p ≠ .sup) ∧ (bitAt s.ctl.pllLock (pllBit p) = true) ∧ (afterBoot
    s.mode = true) := ⟨.core, up.setCtl { up.ctl with pllLock := 15 }, by decide +kernel⟩

theorem test_wit_LockoutAndClockLoss_6 : ∃ (s : State), (bitAt s.ctl.pllLock 3 = true) ∧ (afterBoot s.mode = true) ∧ (s.regionOn .sup =
    true) := ⟨up.setCtl { up.ctl with pllLock := 15 }, by decide +kernel⟩

theorem test_wit_ResetsAndPower_1 : ∃ (m : Master) (boot : Fin 8) (s : State), (s.reaches m true 0x40000320 = true) := ⟨1, 0, up, by
    decide +kernel⟩

theorem test_wit_ResetsAndPower_2 : ∃ (boot : Fin 8) (s : State), (s.ctl.rstLow = false) ∧ (s.outOfReset = true) := ⟨0, up, by
    decide +kernel⟩

theorem test_wit_ResetsAndPower_3 : ∃ (boot : Fin 8) (s : State), (s.ctl.rstLow = true) ∧ (s.ctl.pwrEn = true) ∧ (s.ctl.railsOk = true)
    := ⟨0, up.setCtl { up.ctl with rstLow := true }, by decide +kernel⟩

theorem test_wit_ResetsAndPower_4 : ∃ (boot : Fin 8) (s : State), (s.ctl.pwrEn = true) ∧ (s.ctl.railsOk = false) ∧ (s.ctl.rstLow =
    false) := ⟨0, up.setCtl { up.ctl with railsOk := false }, by decide +kernel⟩

theorem test_wit_ResetsAndPower_7 : ∃ (m : Master) (s : State), (s.reaches m true 0x4F000000 = true) ∧ (s.mode = mIdle) := ⟨1, up, by
    decide +kernel⟩

theorem test_wit_ResetsAndPower_8 : ∃ (s : State), (s.ctl.hibPend = true) ∧ (s.mode = mIdle) := ⟨up.setCtl
    { up.ctl with hibPend := true }, by decide +kernel⟩

theorem test_wit_ResetsAndPower_9 : ∃ (s : State), (s.mode ≠ mIdle) := ⟨(up.setCtl { up.ctl with hibPend := true }).wr
    Reg.SUP_MODE_MODE 3, by decide +kernel⟩

theorem test_wit_ResetsAndPower_10 : ∃ (level : Bool) (s : State), (level ≠ s.flag Reg.WAK_CTRL_WPOL) ∧ (s.mode = mHibernate) ∧
    (s.ctl.pwrEn = false) := ⟨true, (up.wr Reg.SUP_MODE_MODE 0).setCtl { up.ctl with pwrEn := false }, by decide +kernel⟩

theorem test_wit_BlocksStartAndStop_1 : ∃ (m : Master) (b : Block) (s : State), (s.reaches m true (blockBase b) = true) ∧ (enFixed b =
    false) ∧ (s.rd (blockEn b) = 0) ∧ (¬(s.rd (blockState b) = stRunning ∨ s.rd (blockState b) = stStopping)) ∧ (b ≠ .mir ∨
    s.idleOrMaint = true) ∧ (b ≠ .saf ∨ s.fenced .saf = false) ∧ (b ≠ .cst ∨ s.cstRefused = false) := ⟨1, .acq, up, by decide +kernel⟩

theorem test_wit_BlocksStartAndStop_2 : ∃ (m : Master) (b : Block) (s : State), (s.reaches m true (blockBase b) = true) ∧ (enFixed b =
    false) ∧ (s.rd (blockEn b) = 0) ∧ (s.rd (blockState b) = stRunning ∨ s.rd (blockState b) = stStopping) ∧ (s.flag Reg.INT_PERR_VALID
    = false) := ⟨1, .acq, up.wr (blockState .acq) 1, by decide +kernel⟩

theorem test_wit_BlocksStartAndStop_3 : ∃ (m : Master) (b : Block) (s : State), (s.reaches m true (blockBase b) = true) ∧ (enFixed b =
    false) ∧ (s.rd (blockEn b) = 1) ∧ (enHeld b s.mode = false) := ⟨1, .acq, on .acq up, by decide +kernel⟩

theorem test_wit_BlocksStartAndStop_4 : ∃ (m : Master) (b : Block) (s : State), (s.reaches m true (blockBase b) = true) ∧ (enFixed b =
    false) ∧ (b ≠ .mir ∨ s.rd (blockEn b) = 1) ∧ (enHeld b s.mode = true) ∧ (s.flag Reg.INT_PERR_VALID = false) := ⟨1, .frm, (on .frm
    up).wr Reg.SUP_MODE_MODE 5, by decide +kernel⟩

theorem test_wit_BlocksStartAndStop_5 : ∃ (b : Block) (s : State), (b ∉ [.net, .dma, .cst]) ∧ (b ≠ .lbr ∨ s.twoStepRuns = false) ∧ (b ≠
    .acq ∨ s.seqRuns = false) ∧ (b ≠ .arm ∨ s.flag Reg.ARM_STAT_RUN = false) ∧ (s.rd (blockEn b) = 0) ∧ (s.rd (blockState b) =
    stRunning ∨ s.rd (blockState b) = stStopping) ∧ (s.regionOn (blockRegion b) = true) := ⟨.frm, up.wr (blockState .frm) 1, by
    decide +kernel⟩

theorem test_wit_BlocksStartAndStop_6 : ∃ (b : Block) (s : State), (b ∈ [.net, .dma, .cst]) ∧ (b ≠ .net ∨ s.netQuiet = true) ∧ (b ≠
    .dma ∨ s.sup.dmaCur = none) ∧ (b ≠ .cst ∨ (s.cst.cast = none ∧ s.cst.meas = [])) ∧ (s.rd (blockEn b) = 0) ∧ (s.rd (blockState b) =
    stRunning ∨ s.rd (blockState b) = stStopping) ∧ (s.regionOn (blockRegion b) = true) := ⟨.dma, up.wr (blockState .dma) 2, by
    decide +kernel⟩

theorem test_wit_RegionsPowerAndReset_1 : ∃ (m : Master) (r : Region) (s : State), (s.reaches m true rgnCtrlAddr = true) ∧ (r ≠ .sup) ∧
    (s.rdBit Reg.SUP_RGN_CTRL_PWR (regionBit r) = true) ∧ (s.idleOrMaint = true) ∧ (s.rd Reg.BST_STAT_RUN = 0) := ⟨1, .acq, on .acq
    (up.wr Reg.SUP_RGN_CTRL_PWR 255), by decide +kernel⟩

theorem test_wit_RegionsPowerAndReset_2 : ∃ (r : Region) (s : State), (spFind s.ctl.drain (regionCode r) = some drPower) ∧ (s.rdBit
    Reg.SUP_RGN_CTRL_PWR (regionBit r) = false) := ⟨.acq, (up.wr Reg.SUP_RGN_CTRL_PWR 1).setCtl { up.ctl with drain := [(3, 1)] }, by
    decide +kernel⟩

theorem test_wit_RegionsPowerAndReset_3 : ∃ (r : Region) (s : State), (spFind s.ctl.drain (regionCode r) = some drReset) := ⟨.acq,
    (up.wr Reg.SUP_RGN_CTRL_PWR 255).setCtl { up.ctl with drain := [(3, 2)] }, by decide +kernel⟩

theorem test_wit_RegionsPowerAndReset_4 : ∃ (m : Master) (r : Region) (s : State), (s.reaches m true rgnCtrlAddr = true) ∧ (s.rdBit
    Reg.SUP_RGN_CTRL_PWR (regionBit r) = false) ∧ (s.idleOrMaint = true) ∧ (s.rd Reg.BST_STAT_RUN = 0) ∧ (spFind s.ctl.drain
    (regionCode r) = none) := ⟨1, .acq, up.wr Reg.SUP_RGN_STAT_ON 1, by decide +kernel⟩

theorem test_wit_RegionsPowerAndReset_5 : ∃ (m : Master) (r : Region) (s : State), (s.reaches m true rgnCtrlAddr = true) ∧
    (s.idleOrMaint = true) ∧ (s.underTest r = false) ∧ (s.rdBit Reg.SUP_RGN_CTRL_PWR (regionBit r) = true) := ⟨1, .acq, up.wr
    Reg.SUP_RGN_CTRL_PWR 255, by decide +kernel⟩

theorem test_wit_RegionsPowerAndReset_6 : ∃ (r : Region) (s : State), (spFind s.ctl.reload (regionCode r) = some 1) ∧ (s.reloadFail r =
    none) := ⟨.acq, (up.wr Reg.SUP_RGN_STAT_ON 3).setCtl { up.ctl with reload := [(3, 1)] }, by decide +kernel⟩

theorem test_wit_RegionsPowerAndReset_7 : ∃ (r : Region) (k : LossKind) (s : State), (s.regionOn r = true) := ⟨.frm, .clock, up, by
    decide +kernel⟩

theorem test_wit_LoaderSources_1 : ∃ (m : Master) (len : Word) (s : State), (s.reaches m true 0x40060034 = true) ∧ (s.mode = mBoot) ∧
    (len.toNat ≤ 0x300000) := ⟨1, 128, State.reset, by decide +kernel⟩

theorem test_wit_LoaderSources_2 : ∃ (bytes : List Byte) (s : State), (s.loaderUp = true) ∧ (s.bootSrc = 3) ∧ (bytes.length ≤ 0x300000)
    := ⟨[1, 2], State.reset.setCtl { State.reset.ctl with bootPins := 3 }, by decide +kernel⟩

theorem test_wit_LoaderSources_3 : ∃ (s : State), (s.loaderUp = true) ∧ (s.bootSrc = 3) ∧ (s.regionOn .net = true) := ⟨(State.reset.wr
    Reg.SUP_RGN_STAT_ON 255).setCtl { State.reset.ctl with bootPins := 3 }, by decide +kernel⟩

theorem test_wit_LiveUpdate_1 : ∃ (m : Master) (s : State), (s.reaches m true 0x40060024 = true) ∧ (s.liveMode = true) ∧ (s.rd
    Reg.MQT_STAT_LSTAGE ≠ lsCommitting) := ⟨1, up, by decide +kernel⟩

theorem test_wit_LiveUpdate_2 : ∃ (s : State), (s.rd Reg.MQT_STAT_LSTAGE = lsChecking) := ⟨up.wr Reg.MQT_STAT_LSTAGE 1, by
    decide +kernel⟩

theorem test_wit_LiveUpdate_3 : ∃ (m : Master) (s : State), (s.reaches m true 0x40060024 = true) ∧ (s.liveMode = true) ∧ (s.rd
    Reg.MQT_STAT_LSTAGE = lsStaged) := ⟨1, ((up.wr Reg.MQT_STAT_LSTAGE 2).wr Reg.MQT_LFRAMEAT_AT 1).setMqt
    { up.mqt with staged := some ⟨none, some [], 3, none, false⟩ }, by decide +kernel⟩

theorem test_wit_LiveUpdate_4 : ∃ (m : Master) (s : State), (s.reaches m true 0x40060024 = true) ∧ (s.rd Reg.MQT_STAT_LSTAGE ≠
    lsCommitting) := ⟨1, up, by decide +kernel⟩

theorem test_wit_FuseCommands_1 : ∃ (m : Master) (s : State), (s.reaches m true 0x40070010 = true) ∧ (s.idleOrMaint = true) ∧ (s.flag
    Reg.SEC_STAT_FUSEBUSY = false) := ⟨1, up, by decide +kernel⟩

theorem test_wit_FuseCommands_2 : ∃ (m : Master) (slot : Fin 4) (s : State), (s.reaches m true 0x40070010 = true) ∧ (s.idleOrMaint =
    true) ∧ (s.flag Reg.SEC_STAT_FUSEBUSY = false) ∧ (s.mqt.key ≠ some slot.val) ∧ (∃ k : Fin 4, k ≠ slot ∧ s.fuses.usable k = true) :=
    ⟨1, 1, up.setFuses { up.fuses with keyProg := 3 }, by decide +kernel⟩

theorem test_wit_FuseCommands_3 : ∃ (m : Master) (slot : Fin 4) (s : State), (s.reaches m true 0x40070010 = true) ∧ (s.idleOrMaint =
    true) ∧ (s.flag Reg.SEC_STAT_FUSEBUSY = false) ∧ (bitAt s.fuses.keyProg slot = false) := ⟨1, 1, up, by decide +kernel⟩

theorem test_wit_FuseCommands_4 : ∃ (m : Master) (s : State), (s.reaches m true 0x40070010 = true) ∧ (s.idleOrMaint = true) ∧ (s.flag
    Reg.SEC_STAT_FUSEBUSY = false) ∧ (∃ k : Fin 4, s.fuses.usable k = true) := ⟨1, up.setFuses { up.fuses with keyProg := 3 }, by
    decide +kernel⟩

theorem test_wit_FuseCommands_5 : ∃ (s : State), (s.mqt.fuse = some (1, 0)) := ⟨up.setMqt
    { up.mqt with fuse := some (1, 0), version := 7 }, by decide +kernel⟩

theorem test_wit_FuseCommands_6 : ∃ (slot : Fin 4) (s : State), (s.mqt.fuse = some (2, slot.val)) := ⟨1, up.setMqt
    { up.mqt with fuse := some (2, 1) }, by decide +kernel⟩

theorem test_wit_FuseCommands_7 : ∃ (slot : Fin 4) (s : State), (s.mqt.fuse = some (3, slot.val)) := ⟨1, (up.setMqt
    { up.mqt with fuse := some (3, 1) }).wr (Reg.SEC_KEYSTAGE_HASH 2) 9, by decide +kernel⟩

theorem test_wit_FuseCommands_8 : ∃ (s : State), (s.mqt.fuse = some (4, 0)) := ⟨up.setMqt { up.mqt with fuse := some (4, 0) }, by
    decide +kernel⟩

theorem test_wit_TamperAndJtag_1 : ∃ (n : Fin 2) (level : Bool) (s : State), (s.regionOn .sup = true) ∧ (bitAt (s.tamperCfg n) 0 =
    true) ∧ (level ≠ bitAt (s.tamperCfg n) 1) ∧ (bitAt s.mqt.tamper n = false) := ⟨0, false, State.reset, by decide +kernel⟩

theorem test_wit_TamperAndJtag_2 : ∃ (i : Jtag) (s : State), ((match i with | .debug _ => false | _ => true) = true) := ⟨.sample, up,
    by decide +kernel⟩

theorem test_wit_TamperAndJtag_3 : ∃ (op : DebugOp) (s : State), (s.debugLevel ≠ 0) := ⟨.halt 1, up.setCtl
    { up.ctl with dbgClosed := true }, by decide +kernel⟩

theorem test_wit_TamperAndJtag_4 : ∃ (c : Fin 4) (s : State), (s.debugLevel = 0) ∧ (s.rd (coreState c) ≠ 0) := ⟨1, up.wr (coreState 1)
    1, by decide +kernel⟩

theorem test_wit_TamperAndJtag_5 : ∃ (c : Fin 4) (s : State), (s.debugLevel = 0) ∧ (s.rd (coreState c) = 2) := ⟨1, up.wr (coreState 1)
    2, by decide +kernel⟩

theorem test_wit_TamperAndJtag_6 : ∃ (c : Fin 4) (user : Bool) (s : State), (s.debugLevel = 0) ∧ (s.rd (coreState c) = 2) := ⟨1, true,
    up.wr (coreState 1) 2, by decide +kernel⟩

theorem test_wit_TamperAndJtag_7 : ∃ (c : Fin 4) (i : Fin 16) (cfg : Byte) (a : Word) (s : State), (s.debugLevel = 0) ∧ (s.rd
    (coreState c) = 2) ∧ ((spGet s.sup.prot c CoreProt.reset).locked i = false) ∧ ((spGet s.sup.prot c CoreProt.reset).cfg.length = 16)
    ∧ ((spGet s.sup.prot c CoreProt.reset).addr.length = 16) := ⟨1, 2, 0x1F, 0x1000, up.wr (coreState 1) 2, by decide +kernel⟩

theorem test_wit_TamperAndJtag_8 : ∃ (c : Fin 4) (i : Fin 16) (s : State), (s.debugLevel = 0) := ⟨1, 2, up, by decide +kernel⟩

theorem test_wit_MasterAccesses_1 : ∃ (m : Master) (a v : Word) (s : State), (s.reaches m true a.toNat = true) ∧ (plainReg a.toNat =
    true) ∧ (s.lockedDiffers m a.toNat v.toNat = false) := ⟨1, 0x40000210, 77, up, by decide +kernel⟩

theorem test_wit_MasterAccesses_2 : ∃ (m : Master) (a v : Word) (s : State), (s.reaches m true a.toNat = true) ∧ (plainReg a.toNat =
    true) ∧ (s.lockedDiffers m a.toNat v.toNat = true) ∧ (s.flag Reg.INT_PERR_VALID = false) := ⟨1, 0x47020304, 5, up, by
    decide +kernel⟩

theorem test_wit_MasterAccesses_3 : ∃ (m : Master) (c : Fin 4) (v : Word) (s : State), (s.reaches m true (0x40000210 + 4 * c.val) =
    true) := ⟨1, 2, 77, up, by decide +kernel⟩

theorem test_wit_MasterAccesses_4 : ∃ (m : Master) (s : State), (s.reaches m true 0x40000300 = true) := ⟨1, up, by decide +kernel⟩

theorem test_wit_MasterAccesses_5 : ∃ (m : Master) (a v : Word) (size : Nat) (s : State), (s.reaches m true a.toNat = true) ∧
    (addrTarget a.toNat = some 1) ∧ (sizeOk size a.toNat = true) ∧ (size = 4 ∨ s.upsetOf 0 ((a.toNat / 4 * 4 - 0x10000000) / 4) = 0) :=
    ⟨1, 0x10000010, 7, 2, up, by decide +kernel⟩

theorem test_wit_MasterAccesses_6 : ∃ (m : Master) (a v : Word) (size : Nat) (s : State), (s.reaches m true a.toNat = true) ∧ ((cardAt
    (a.toNat / 4 * 4)).isSome = true) ∧ (size ≠ 4 ∨ a.toNat % 4 ≠ 0) := ⟨1, 0x40000210, 7, 2, up, by decide +kernel⟩

theorem test_wit_MasterAccesses_7 : ∃ (m : Master) (write : Bool) (a : Word) (s : State), (s.reaches m write a.toNat = true ∨
    (addrTarget a.toNat = none ∧ s.leaves m write a.toNat = true)) ∧ (noPlace write a.toNat = true) ∧ (spFind s.sup.busBad m.val =
    none) := ⟨1, true, 0x70000000, up, by decide +kernel⟩

theorem test_wit_MasterAccesses_8 : ∃ (m : Master) (write : Bool) (a : Word) (k : Nat) (s : State), (addrTarget a.toNat = some k) ∧
    (s.leaves m write a.toNat = true) ∧ (s.permits m write k = false) ∧ (spFind s.sup.busBad m.val = none) := ⟨2, true, 0x10000000, 1,
    up, by decide +kernel⟩

theorem test_wit_MasterAccesses_9 : ∃ (m : Master) (write : Bool) (a : Word) (r : Region) (s : State), (s.leaves m write a.toNat =
    true) ∧ (addrRegion a.toNat = some r) ∧ (s.regionOn r = false) ∧ (∀ k : Fin 16, addrTarget a.toNat = some k.val → s.permits m write
    k = true) ∧ (spFind s.sup.busBad m.val = none) := ⟨1, true, 0x43000000, .frm, up.wr Reg.SUP_RGN_STAT_ON 3, by decide +kernel⟩

theorem test_wit_SramAtomics_1 : ∃ (m : Master) (a : Word) (size : Nat) (v : Word) (s : State), (s.reaches m false a.toNat = true) ∧
    (addrTarget a.toNat = some 1) ∧ (sizeOk size a.toNat = true) ∧ (s.upsetOf 0 ((a.toNat / 4 * 4 - 0x10000000) / 4) = 0) := ⟨1,
    0x10000012, 2, 0, up.memWrite 0x10000010 4 0x12345678, by decide +kernel⟩

theorem test_wit_SramAtomics_2 : ∃ (m : Master) (a : Word) (size : Nat) (v : Word) (s : State), (s.reaches m true a.toNat = true) ∧
    (addrTarget a.toNat = some 1) ∧ (sizeOk size a.toNat = true) ∧ (s.upsetOf 0 ((a.toNat / 4 * 4 - 0x10000000) / 4) = 0) := ⟨1,
    0x10000012, 2, 0xABCD, up, by decide +kernel⟩

theorem test_wit_SramAtomics_3 : ∃ (m : Master) (a v : Word) (s : State), (s.reaches m false a.toNat = true) ∧ (1 ≤ m.val ∧ m.val ≤ 4)
    ∧ (addrTarget a.toNat = some 1) ∧ (a.toNat % 4 = 0) ∧ (s.upsetOf 0 ((a.toNat - 0x10000000) / 4) = 0) := ⟨1, 0x10000010, 0, up, by
    decide +kernel⟩

theorem test_wit_SramAtomics_4 : ∃ (m : Master) (a v : Word) (s : State), (s.reaches m true a.toNat = true) ∧ (1 ≤ m.val ∧ m.val ≤ 4) ∧
    (addrTarget a.toNat = some 1) ∧ (a.toNat % 4 = 0) ∧ (spFind s.sup.resv (m.val - 1) = some a.toNat) := ⟨1, 0x10000010, 9, up.setSup
    { up.sup with resv := [(0, 0x10000010)] }, by decide +kernel⟩

theorem test_wit_SramAtomics_5 : ∃ (m : Master) (a v : Word) (s : State), (s.reaches m true a.toNat = true) ∧ (1 ≤ m.val ∧ m.val ≤ 4) ∧
    (addrTarget a.toNat = some 1) ∧ (a.toNat % 4 = 0) ∧ (spFind s.sup.resv (m.val - 1) ≠ some a.toNat) := ⟨1, 0x10000010, 9, up, by
    decide +kernel⟩

theorem test_wit_SramAtomics_6 : ∃ (m : Master) (op : SramOp) (a v : Word) (s : State), (s.reaches m true a.toNat = true) ∧ (op ∉
    [.load, .store, .lr, .sc]) ∧ (addrTarget a.toNat = some 1) ∧ (a.toNat % 4 = 0) ∧ (s.upsetOf 0 ((a.toNat - 0x10000000) / 4) = 0) :=
    ⟨1, .amoMax, 0x10000010, 9, up, by decide +kernel⟩

theorem test_wit_HostLink_1 : ∃ (c : Fin 4) (data : List Byte) (s : State), (s.flag Reg.NET_PCIE_LINKUP = true) ∧ (s.net.d3 = false) ∧
    (s.reaches 0 true (0x40000210 + 4 * c.val) = true) ∧ (data.length = 4) := ⟨1, [1, 2, 3, 4], (up.setPolicy
    { up.policy with access := [(0, 0xFFFFFFFF)] }).wr Reg.NET_PCIE_LINKUP 1, by decide +kernel⟩

theorem test_wit_HostLink_2 : ∃ (w : Fin 0x100000) (data : List Byte) (s : State), (s.flag Reg.NET_PCIE_LINKUP = true) ∧ (s.net.d3 =
    false) ∧ (s.reaches 0 true (0x10000000 + 4 * w.val) = true) ∧ (data.length = 4) := ⟨5, [1, 2, 3, 4], (up.setPolicy
    { up.policy with access := [(0, 0xFFFFFFFF)] }).wr Reg.NET_PCIE_LINKUP 1, by decide +kernel⟩

theorem test_wit_HostLink_3 : ∃ (dst : PcieTo) (write : Bool) (ofs len : Nat) (data : List Byte) (s : State), (s.flag
    Reg.NET_PCIE_LINKUP = true) ∧ (dst = .bar0 ∨ dst = .bar2) ∧ (s.net.d3 = false) ∧ (len = 0 ∨ 256 < len ∨ (dst = .bar0 ∧ 4 < len)) :=
    ⟨.bar2, true, 0, 300, [], up.wr Reg.NET_PCIE_LINKUP 1, by decide +kernel⟩

theorem test_wit_HostLink_4 : ∃ (dst : PcieTo) (write : Bool) (ofs len : Nat) (data : List Byte) (s : State), (s.flag
    Reg.NET_PCIE_LINKUP = true) ∧ (dst = .bar0 ∨ dst = .bar2) ∧ (s.net.d3 = true) := ⟨.bar2, true, 0, 4, [], (up.wr Reg.NET_PCIE_LINKUP
    1).setNet { up.net with d3 := true }, by decide +kernel⟩

theorem test_wit_HostLink_5 : ∃ (ofs : Fin 0x1000000) (s : State), (s.flag Reg.NET_PCIE_LINKUP = true) ∧ (s.net.d3 = false) ∧
    (s.reaches 0 false (0x40000000 + ofs.val) = true) ∧ (plainReg (0x40000000 + ofs.val) = true) := ⟨0x210, (up.setPolicy
    { up.policy with access := [(0, 0xFFFFFFFF)] }).wr Reg.NET_PCIE_LINKUP 1, by decide +kernel⟩

theorem test_wit_HostLink_6 : ∃ (d3 : Bool) (ofs len : Nat) (data : List Byte) (s : State), (s.flag Reg.NET_PCIE_LINKUP = true) ∧
    (leNat (data.map BitVec.toNat) % 4 = (if d3 = true then 3 else 0)) := ⟨true, 0, 4, [3, 0, 0, 0], up.wr Reg.NET_PCIE_LINKUP 1, by
    decide +kernel⟩

theorem test_wit_HostLink_7 : ∃ (ofs len : Nat) (data : List Byte) (s : State), (s.flag Reg.NET_PCIE_LINKUP = true) := ⟨0, 4, [], up.wr
    Reg.NET_PCIE_LINKUP 1, by decide +kernel⟩

theorem test_wit_HostLink_8 : ∃ (ofs len : Nat) (data : List Byte) (s : State), (s.flag Reg.NET_PCIE_LINKUP = true) := ⟨0, 4, [], up.wr
    Reg.NET_PCIE_LINKUP 1, by decide +kernel⟩

theorem test_wit_HostLink_9 : ∃ (ofs len : Nat) (data : List Byte) (s : State), (s.flag Reg.NET_PCIE_LINKUP = true) ∧ (s.net.aer < 2 ^
    32) := ⟨0, 4, [0, 0x80, 0, 0], (up.wr Reg.NET_PCIE_LINKUP 1).setNet { up.net with aer := 0x108000 }, by decide +kernel⟩

theorem test_wit_HostLink_10 : ∃ (speed : Fin 3) (width : Fin 2) (s : State), (s.regionOn .net = true) := ⟨1, 1, up, by decide +kernel⟩

theorem test_wit_HostLink_11 : ∃ (granted : Fin 4) (s : State), (s.flag Reg.NET_PCIE_LINKUP = true) := ⟨2, up.wr Reg.NET_PCIE_LINKUP 1,
    by decide +kernel⟩

theorem test_wit_HostLink_13 : ∃ (m : Master) (v : Byte) (s : State), (s.reaches m true 0x40030304 = true) ∧ (s.sup.msiOn = false ∨
    s.net.d3 = true) := ⟨1, 255, up.setSup { up.sup with msiOff := [(3, 1)] }, by decide +kernel⟩

theorem test_wit_HostLink_14 : ∃ (m : Master) (v : Byte) (s : State), (s.reaches m true 0x40030304 = true) ∧ (s.sup.msiOn = true) ∧
    (s.net.d3 = false) := ⟨1, 255, ((up.wr (Reg.INT_TEN_PERR 4) 1).wr Reg.INT_PERR_VALID 1).setSup
    { up.sup with msiOn := true, msiOff := [(0, 1)] }, by decide +kernel⟩

theorem test_wit_CoresAndTimers_1 : ∃ (m : Master) (c : Fin 4) (s : State), (s.reaches m true 0x40000200 = true) ∧ (s.rd (coreState c)
    = 0) := ⟨1, 2, up, by decide +kernel⟩

theorem test_wit_CoresAndTimers_2 : ∃ (m : Master) (c : Fin 4) (s : State), (s.reaches m true 0x40000200 = true) ∧ (s.rdBit
    Reg.SUP_CORECTRL_RUN c = true) := ⟨1, 0, up, by decide +kernel⟩

theorem test_wit_CoresAndTimers_3 : ∃ (m : Master) (c : Fin 4) (s : State), (s.reaches m true (0x40000230 + 4 * c.val) = true) ∧
    (s.flag (Reg.SUP_WDT_EN c) = true) := ⟨1, 0, up.wr (Reg.SUP_WDT_EN 0) 1, by decide +kernel⟩

theorem test_wit_CoresAndTimers_4 : ∃ (c : Fin 4) (s : State), (s.flag (Reg.SUP_WDT_EN c) = true) ∧ (s.timerOn (tmWdt c) = true) := ⟨0,
    (up.wr (Reg.SUP_WDT_EN 0) 1).startTimer (tmWdt 0), by decide +kernel⟩

theorem test_wit_CoresAndTimers_5 : ∃ (m : Master) (c : Fin 4) (v : Word) (s : State), (s.reaches m true (0x40000220 + 4 * c.val) =
    true) ∧ (s.flag (Reg.SUP_WDT_EN c) = false) ∧ (bitAt v.toNat 31 = true) := ⟨1, 0, 0xFFFFFFFF, up, by decide +kernel⟩

theorem test_wit_CoresAndTimers_6 : ∃ (c : Fin 4) (s : State), (s.rd (coreState c) = 3) ∧ (s.sup.mtime < 10 * 2 ^ 64) := ⟨0, (up.wr
    (coreState 0) 3).wr (Reg.SUP_MTIMECMPH_CMPHI 0) 0, by decide +kernel⟩

theorem test_wit_CoresAndTimers_7 : ∃ (s : State), (s.reaches 7 true dbgAddr = true) ∧ (s.mode = mIdle ∨ s.mode = mPrecharge ∨ s.mode =
    mReady ∨ s.mode = mMaintenance) ∧ (s.flag Reg.SUP_DBG_HALTED = false) := ⟨up.setPolicy
    { up.policy with access := [(7, 0xFFFFFFFF)] }, by decide +kernel⟩

theorem test_wit_CoresAndTimers_8 : ∃ (s : State), (s.reaches 7 true dbgAddr = true) ∧ (s.flag Reg.SUP_DBG_HALTED = true) :=
    ⟨(up.setPolicy { up.policy with access := [(7, 0xFFFFFFFF)] }).wr Reg.SUP_DBG_HALTED 1, by decide +kernel⟩

theorem test_wit_Mailboxes_1 : ∃ (m : Master) (c : Fin 32) (i : Fin 16) (v : Word) (s : State), (s.reaches m true (0x40011040 + 0x100 *
    c.val + 4 * i.val) = true) ∧ (s.flag (Reg.MBX_CCFG_EN c) = true) ∧ (s.rd (Reg.MBX_CCFG_SND c) = m.val) ∧ (s.flag
    (Reg.MBX_CSTAT_FULL c) = false) := ⟨1, 3, 4, 5, (up.wr (Reg.MBX_CCFG_EN 3) 1).wr (Reg.MBX_CCFG_SND 3) 1, by decide +kernel⟩

theorem test_wit_Mailboxes_2 : ∃ (m : Master) (c : Fin 32) (s : State), (s.reaches m true (0x40011004 + 0x100 * c.val) = true) ∧
    (s.flag (Reg.MBX_CCFG_EN c) = true) ∧ (s.rd (Reg.MBX_CCFG_SND c) = m.val) ∧ (s.flag (Reg.MBX_CSTAT_FULL c) = false) ∧
    (s.masterInReset (s.rd (Reg.MBX_CCFG_RCV c)) = false) := ⟨1, 3, ((up.wr (Reg.MBX_CCFG_EN 3) 1).wr (Reg.MBX_CCFG_SND 3) 1).wr
    (Reg.MBX_CCFG_RCV 3) 6, by decide +kernel⟩

theorem test_wit_Mailboxes_3 : ∃ (m : Master) (c : Fin 32) (s : State), (s.reaches m true (0x40011004 + 0x100 * c.val) = true) ∧
    (s.flag (Reg.MBX_CCFG_EN c) = true) ∧ (s.rd (Reg.MBX_CCFG_RCV c) = m.val) ∧ (s.flag (Reg.MBX_CSTAT_FULL c) = true) := ⟨1, 3,
    ((up.wr (Reg.MBX_CCFG_EN 3) 1).wr (Reg.MBX_CCFG_RCV 3) 1).wr (Reg.MBX_CSTAT_FULL 3) 1, by decide +kernel⟩

theorem test_wit_Mailboxes_4 : ∃ (c : Fin 32) (s : State), (s.flag (Reg.MBX_CSTAT_FULL c) = true) := ⟨3, up.wr (Reg.MBX_CSTAT_FULL 3)
    1, by decide +kernel⟩

theorem test_wit_Mailboxes_5 : ∃ (m : Master) (c : Fin 32) (s : State), (s.reaches m true (0x4001100C + 0x100 * c.val) = true) ∧
    (s.flag (Reg.MBX_CCFG_EN c) = true) ∧ (s.rd (Reg.MBX_CCFG_SND c) = m.val) := ⟨1, 3, ((up.wr (Reg.MBX_CCFG_EN 3) 1).wr
    (Reg.MBX_CCFG_SND 3) 1).wr (Reg.MBX_CNOTE_KIND 3) 2, by decide +kernel⟩

theorem test_wit_SemaphoresAndRings_1 : ∃ (m : Master) (n : Fin 64) (s : State), (s.reaches m false (0x40020100 + 4 * n.val) = true) ∧
    (s.semOwner n = 15) := ⟨1, 5, up, by decide +kernel⟩

theorem test_wit_SemaphoresAndRings_2 : ∃ (m : Master) (n : Fin 64) (s : State), (s.reaches m false (0x40020100 + 4 * n.val) = true) ∧
    (s.semOwner n ≠ 15) ∧ (s.semOwner n ≠ m.val) := ⟨1, 5, up.putSem 5 3, by decide +kernel⟩

theorem test_wit_SemaphoresAndRings_3 : ∃ (m : Master) (n : Fin 64) (s : State), (s.reaches m true (0x40020100 + 4 * n.val) = true) ∧
    (s.semOwner n = m.val) := ⟨1, 5, up.putSem 5 1, by decide +kernel⟩

theorem test_wit_SemaphoresAndRings_4 : ∃ (m : Master) (n : Fin 64) (s : State), (s.reaches m true 0x4002000C = true) := ⟨1, 5,
    up.putSem 5 3, by decide +kernel⟩

theorem test_wit_SemaphoresAndRings_5 : ∃ (m : Master) (n : Fin 64) (v : Word) (s : State), (s.reaches m true (0x40050108 + 0x20 *
    n.val) = true) ∧ (s.rd (Reg.RNG_CFG_PRODK n) = 0) ∧ (v.toNat % 4 = 0) ∧ ((s.wr (Reg.RNG_WR_WR n) v.toNat).ringFill n ≤ s.ringSize
    n) := ⟨1, 5, 8, up, by decide +kernel⟩

theorem test_wit_SemaphoresAndRings_6 : ∃ (m : Master) (n : Fin 64) (v : Word) (s : State), (s.reaches m true (0x4005010C + 0x20 *
    n.val) = true) ∧ (s.rd (Reg.RNG_CFG_CONSK n) = 0) ∧ (v.toNat % 4 = 0) ∧ ((s.wr (Reg.RNG_RD_RD n) v.toNat).ringFill n ≤ s.ringSize
    n) := ⟨1, 5, 4, up.wr (Reg.RNG_WR_WR 5) 8, by decide +kernel⟩

theorem test_wit_DmaChannels_1 : ∃ (m : Master) (c : Fin 32) (s : State), (s.reaches m true (dmaCmdAddr c) = true) ∧ (s.dmaState c ≠
    dsBurst) ∧ (s.dmaRefusal c = 0) := ⟨1, 2, ((on .dma up).wr (Reg.DMA_COUNT_COUNT 2) 64).wr (Reg.DMA_DST_DST 2) 0x10001000, by
    decide +kernel⟩

theorem test_wit_DmaChannels_2 : ∃ (m : Master) (c : Fin 32) (s : State), (s.reaches m true (dmaCmdAddr c) = true) ∧ (s.dmaState c ≠
    dsBurst) ∧ (s.dmaRefusal c ≠ 0) := ⟨1, 2, on .dma up, by decide +kernel⟩

theorem test_wit_DmaChannels_3 : ∃ (m : Master) (c : Fin 32) (s : State), (s.reaches m true (dmaCmdAddr c) = true) ∧ (s.dmaState c =
    dsBurst) := ⟨1, 2, up.wr (Reg.DMA_CSTAT_STATE 2) 2, by decide +kernel⟩

theorem test_wit_DmaChannels_4 : ∃ (m : Master) (c : Fin 32) (s : State), (s.reaches m true (dmaCmdAddr c) = true) ∧ (s.dmaState c =
    dsWait) := ⟨1, 2, up.wr (Reg.DMA_CSTAT_STATE 2) 1, by decide +kernel⟩

theorem test_wit_DmaChannels_5 : ∃ (m : Master) (c : Fin 32) (s : State), (s.reaches m true (dmaCmdAddr c) = true) ∧ (s.rd
    (Reg.DMA_CFG_REQ c) = 1) ∧ (s.dmaState c = dsWait) ∧ (spGet s.sup.dmaEvt c 0 ≠ 1) := ⟨1, 2, (up.wr (Reg.DMA_CSTAT_STATE 2) 1).wr
    (Reg.DMA_CFG_REQ 2) 1, by decide +kernel⟩

theorem test_wit_DmaChannels_6 : ∃ (m : Master) (c : Fin 32) (s : State), (s.reaches m true (dmaCmdAddr c) = true) ∧ (s.dmaState c =
    dsStopped) ∧ (s.works .dma = true) := ⟨1, 2, (on .dma up).wr (Reg.DMA_CSTAT_STATE 2) 4, by decide +kernel⟩

theorem test_wit_DmaChannels_7 : ∃ (c : Fin 32) (s : State), (s.works .dma = true) ∧ (s.sup.dmaCur = none) ∧ (s.flag Reg.SUP_DBG_HALTED
    = false) ∧ (s.dmaPick = some c.val) := ⟨2, (on .dma up).wr (Reg.DMA_CSTAT_STATE 2) 1, by decide +kernel⟩

theorem test_wit_DmaBurst_1 : ∃ (c : Fin 32) (s : State), (s.sup.dmaCur = some c.val) ∧ (s.rd (blockEn .dma) = 1) ∧ (s.rd
    (Reg.DMA_CFG_BURST c) = 0) ∧ (4 ≤ s.rd (Reg.DMA_LEFT_LEFT c)) ∧ (s.flag (Reg.DMA_CFG_RINGDST c) = false) ∧ (spFind s.sup.dmaStop c
    = none) ∧ (s.reaches 5 false (spGet s.sup.dmaSrc c 0) = true) ∧ (s.reaches 5 true (spGet s.sup.dmaDst c 0) = true) ∧ (addrTarget
    (spGet s.sup.dmaSrc c 0) = some 1) ∧ (addrTarget (spGet s.sup.dmaDst c 0) = some 1) ∧ (spGet s.sup.dmaSrc c 0 % 4 = 0) ∧ (spGet
    s.sup.dmaDst c 0 % 4 = 0) ∧ (s.upsetOf 0 ((spGet s.sup.dmaSrc c 0 - 0x10000000) / 4) = 0) := ⟨2, (((on .dma up).wr
    (Reg.DMA_LEFT_LEFT 2) 4).setPolicy { up.policy with access := [(5, 0xFFFFFFFF)] }).setSup
    { up.sup with dmaCur := some 2, dmaSrc := [(2, 0x10000000)], dmaDst := [(2, 0x10000100)] }, by decide +kernel⟩

theorem test_wit_DeviceTime_1 : ∃ (m : Master) (v : Word) (s : State), (s.reaches m true 0x41010018 = true) ∧ ((incRange s.mode).1 ≤
    s.rd Reg.PTP_INC_INC * 2 ^ 32 + v.toNat) ∧ (s.rd Reg.PTP_INC_INC * 2 ^ 32 + v.toNat ≤ (incRange s.mode).2) := ⟨1, 1000, up, by
    decide +kernel⟩

theorem test_wit_DeviceTime_2 : ∃ (m : Master) (v : Word) (s : State), (s.reaches m true 0x41010018 = true) ∧ ((incRange s.mode).2 <
    s.rd Reg.PTP_INC_INC * 2 ^ 32 + v.toNat) := ⟨1, 1000, up.wr Reg.PTP_INC_INC 6, by decide +kernel⟩

theorem test_wit_DeviceTime_3 : ∃ (m : Master) (v : Word) (s : State), (s.reaches m true 0x41010010 = true) ∧ (s.mode = mIdle) ∧
    (s.clk.time < 2 ^ 64) := ⟨1, 1000, up.wr (Reg.PTP_TRGCFG_EN 0) 1, by decide +kernel⟩

theorem test_wit_DeviceTime_4 : ∃ (s : State), (s.regionOn .net = true) ∧ (0 < s.clk.inc) ∧ (s.clk.time < 2 ^ 64) ∧ (s.clk.inc < 2 ^
    64) := ⟨up, by decide +kernel⟩

theorem test_wit_DeviceTime_5 : ∃ (s : State), (s.regionOn .net = true) := ⟨up, by decide +kernel⟩

theorem test_wit_DeviceTime_6 : ∃ (s : State), (s.net.ppsOut = true) := ⟨up.setNet { up.net with ppsOut := true }, by decide +kernel⟩

theorem test_wit_DeviceTime_7 : ∃ (rising : Bool) (s : State), (s.regionOn .net = true) ∧ (s.flag Reg.PTP_CTRL_PPSIEN = true) ∧ (rising
    = !s.flag Reg.PTP_CTRL_PPSIPOL) ∧ (s.timerOn tmPpsIn = false) := ⟨true, up.wr Reg.PTP_CTRL_PPSIEN 1, by decide +kernel⟩

theorem test_wit_TriggerFires_1 : ∃ (k : Fin 16) (s : State), (k.val ≠ 0) ∧ (s.regionOn .net = true) ∧ (s.flag (Reg.PTP_TRGCFG_EN k) =
    true) ∧ (s.rd (Reg.PTP_TRGCFG_PERIOD k) = 0) := ⟨3, up.wr (Reg.PTP_TRGCFG_EN 3) 1, by decide +kernel⟩

theorem test_wit_TriggerFires_2 : ∃ (k : Fin 16) (s : State), (k.val ≠ 0) ∧ (s.regionOn .net = true) ∧ (s.flag (Reg.PTP_TRGCFG_EN k) =
    true) ∧ (s.rd (Reg.PTP_TRGCFG_PERIOD k) ≠ 0) ∧ (0 < s.clk.inc) ∧ (s.clk.time < 2 ^ 64) ∧ (s.clk.inc < 2 ^ 36) ∧ (0 ≤ diff32 (s.rd
    (Reg.PTP_TRGNEXT_NEXT k)) s.now) ∧ (diff32 (s.rd (Reg.PTP_TRGNEXT_NEXT k)) s.now < 2 ^ 31 - 2 ^ 29) ∧ (16 < s.rd
    (Reg.PTP_TRGCFG_PERIOD k)) := ⟨3, ((up.wr (Reg.PTP_TRGCFG_EN 3) 1).wr (Reg.PTP_TRGCFG_PERIOD 3) 1000).wr (Reg.PTP_TRGNEXT_NEXT 3)
    100, by decide +kernel⟩

theorem test_wit_EthernetPorts_1 : ∃ (p : Fin 8) (f : List Byte) (hb : Heartbeat) (s : State), (s.portReceives p = true) ∧ (60 ≤
    f.length ∧ f.length ≤ 1518) ∧ (s.acceptsMac p (macAt (f.map BitVec.toNat) 0) = true) ∧ (etherType (f.map BitVec.toNat) ∉ [0x8808,
    0x88B6, 0x88B5, 0x88BA]) ∧ (s.regionOn .sup = true) ∧ (s.rd (Reg.RNG_WR_WR (s.rd (Reg.NET_PCFG_RXRING p))) % 4 = 0) ∧ (s.unstruck 9
    (fun w => decide (w / 512 = p.val)) = true) ∧ (s.ringFill (s.rd (Reg.NET_PCFG_RXRING p)) + 16 + (f.length + 3) / 4 * 4 ≤ s.ringSize
    (s.rd (Reg.NET_PCFG_RXRING p))) := ⟨1, [0xFF, 0xFF, 0xFF, 0xFF, 0xFF, 0xFF, 1, 2, 3, 4, 5, 6, 0x12, 0x34] ++ List.replicate 46 0,
    ⟨0, none, none⟩, (on .net ((up.wr (Reg.NET_PCFG_PEN 1) 1).wr (Reg.NET_PSTAT_LINK 1) 1)).wr (Reg.RNG_CFG_SZ 0) 5, by decide +kernel⟩

theorem test_wit_EthernetPorts_2 : ∃ (p : Fin 8) (f : List Byte) (hb : Heartbeat) (s : State), (s.portReceives p = true) ∧ (60 ≤
    f.length ∧ f.length ≤ 1518) ∧ (s.acceptsMac p (macAt (f.map BitVec.toNat) 0) = true) ∧ (etherType (f.map BitVec.toNat) ≠ 0x8808) ∧
    (s.unreadable 9 (fun w => decide (w / 512 = p.val)) = true) := ⟨1, [0xFF, 0xFF, 0xFF, 0xFF, 0xFF, 0xFF, 1, 2, 3, 4, 5, 6, 0x12,
    0x34] ++ List.replicate 46 0, ⟨0, none, none⟩, ((on .net ((up.wr (Reg.NET_PCFG_PEN 1) 1).wr (Reg.NET_PSTAT_LINK 1) 1)).wr
    (Reg.RNG_CFG_SZ 0) 5).putUpset 9 513 3, by decide +kernel⟩

theorem test_wit_EthernetPorts_3 : ∃ (p : Fin 8) (f : List Byte) (hb : Heartbeat) (s : State), (s.portReceives p = true) ∧ (60 ≤
    f.length ∧ f.length ≤ 1518) := ⟨1, [0xFF, 0xFF, 0xFF, 0xFF, 0xFF, 0xFF, 1, 2, 3, 4, 5, 6, 0x12, 0x34] ++ List.replicate 46 0, ⟨0,
    none, none⟩, on .net ((up.wr (Reg.NET_PCFG_PEN 1) 1).wr (Reg.NET_PSTAT_LINK 1) 1), by decide +kernel⟩

theorem test_wit_EthernetPorts_4 : ∃ (p : Fin 8) (len : Fin 1519) (s : State), (s.portSends p = true) ∧ (spFind s.net.txCur p = none) ∧
    (spFind s.net.launch p = none) ∧ (14 ≤ len.val) ∧ (bytesWord (s.ringBytes (s.rd (Reg.NET_PCFG_TXRING p)) 0 16) 0 % 65536 = len.val)
    ∧ ((s.ringBytes (s.rd (Reg.NET_PCFG_TXRING p)) 0 16).getD 2 0 ∈ [0, 1, 4, 5]) ∧ (bytesWord (s.ringBytes (s.rd (Reg.NET_PCFG_TXRING
    p)) 0 16) 4 / 65536 = 0) ∧ (16 ≤ s.ringFill (s.rd (Reg.NET_PCFG_TXRING p))) ∧ (recordBytes len.val ≤ s.ringFill (s.rd
    (Reg.NET_PCFG_TXRING p))) ∧ (∀ a ∈ s.txWords p, s.upsetOf 0 ((a - arrayBase 0) / 4) = 0) ∧ (s.unstruck 9 (fun w => decide (w / 512
    = 8 + p.val)) = true) := ⟨1, 60, ((on .net ((up.wr (Reg.NET_PCFG_PEN 1) 1).wr (Reg.NET_PSTAT_LINK 1) 1)).wr (Reg.RNG_WR_WR 0) 80
    |>.wr (Reg.RNG_CFG_SZ 0) 2).memWrite 0x10000000 4 60, by decide +kernel⟩

theorem test_wit_EthernetPorts_5 : ∃ (p : Fin 8) (len : Fin 1519) (s : State), (s.portSends p = true) ∧ (spFind s.net.txCur p = none) ∧
    (spFind s.net.launch p = none) ∧ (14 ≤ len.val) ∧ (bytesWord (s.ringBytes (s.rd (Reg.NET_PCFG_TXRING p)) 0 16) 0 % 65536 = len.val)
    ∧ ((s.ringBytes (s.rd (Reg.NET_PCFG_TXRING p)) 0 16).getD 2 0 = 2) ∧ (bytesWord (s.ringBytes (s.rd (Reg.NET_PCFG_TXRING p)) 0 16) 4
    / 65536 = 0) ∧ (16 ≤ s.ringFill (s.rd (Reg.NET_PCFG_TXRING p))) ∧ (recordBytes len.val ≤ s.ringFill (s.rd (Reg.NET_PCFG_TXRING p)))
    ∧ (diff32 s.now (bytesWord (s.ringBytes (s.rd (Reg.NET_PCFG_TXRING p)) 0 16) 8) ≤ 0) := ⟨1, 60, ((on .net ((up.wr (Reg.NET_PCFG_PEN
    1) 1).wr (Reg.NET_PSTAT_LINK 1) 1)).wr (Reg.RNG_WR_WR 0) 80 |>.wr (Reg.RNG_CFG_SZ 0) 2).memWrite 0x10000000 4 0x2003C, by
    decide +kernel⟩

theorem test_wit_EthernetPorts_6 : ∃ (p : Fin 8) (d : Word) (s : State), (s.portSends p = true) ∧ (spFind s.net.txCur p = none) ∧
    (spFind s.net.launch p = some d.toNat) ∧ (∀ a ∈ s.txWords p, s.upsetOf 0 ((a - arrayBase 0) / 4) = 0) ∧ (s.unstruck 9 (fun w =>
    decide (w / 512 = 8 + p.val)) = true) := ⟨1, 5, (on .net ((up.wr (Reg.NET_PCFG_PEN 1) 1).wr (Reg.NET_PSTAT_LINK 1) 1)).setNet
    { up.net with launch := [(1, 5)] }, by decide +kernel⟩

theorem test_wit_EthernetPorts_7 : ∃ (p : Fin 8) (len : Fin 1519) (s : State), (s.portSends p = true) ∧ (spFind s.net.txCur p = none) ∧
    (spFind s.net.launch p = none) ∧ (14 ≤ len.val) ∧ (bytesWord (s.ringBytes (s.rd (Reg.NET_PCFG_TXRING p)) 0 16) 0 % 65536 = len.val)
    ∧ ((s.ringBytes (s.rd (Reg.NET_PCFG_TXRING p)) 0 16).getD 2 0 ∈ [0, 1, 4, 5]) ∧ (bytesWord (s.ringBytes (s.rd (Reg.NET_PCFG_TXRING
    p)) 0 16) 4 / 65536 = 0) ∧ (16 ≤ s.ringFill (s.rd (Reg.NET_PCFG_TXRING p))) ∧ (recordBytes len.val ≤ s.ringFill (s.rd
    (Reg.NET_PCFG_TXRING p))) ∧ ((s.txWords p).all (s.wordReadable 0) = false) := ⟨1, 60, (((on .net ((up.wr (Reg.NET_PCFG_PEN 1) 1).wr
    (Reg.NET_PSTAT_LINK 1) 1)).wr (Reg.RNG_WR_WR 0) 80 |>.wr (Reg.RNG_CFG_SZ 0) 2).memWrite 0x10000000 4 60).putUpset 0 2 3, by
    decide +kernel⟩

theorem test_wit_EthernetPorts_8 : ∃ (p : Fin 8) (f : TxFrame) (s : State), (spFind s.net.txCur p = some f) ∧ (bitAt f.flags 2 = false)
    ∧ (spFind s.net.launch p = none) := ⟨1, ⟨[1, 2], 1, 3, 0, 0, none⟩, up.setNet
    { up.net with txCur := [(1, ⟨[1, 2], 1, 3, 0, 0, none⟩)] }, by decide +kernel⟩

theorem test_wit_EthernetPorts_9 : ∃ (p : Fin 8) (f : TxFrame) (d : Word) (s : State), (spFind s.net.txCur p = some f) ∧ (f.launched =
    none) ∧ (bitAt f.flags 2 = false) ∧ (spFind s.net.launch p = some d.toNat) ∧ (s.portSends p = true) ∧ (0 ≤ diff32 s.now d.toNat) ∧
    (∀ a ∈ s.txWords p, s.upsetOf 0 ((a - arrayBase 0) / 4) = 0) ∧ (s.unstruck 9 (fun w => decide (w / 512 = 8 + p.val)) = true) := ⟨1,
    ⟨[1, 2], 1, 3, 0, 0, none⟩, 0, (on .net ((up.wr (Reg.NET_PCFG_PEN 1) 1).wr (Reg.NET_PSTAT_LINK 1) 1)).setNet
    { up.net with txCur := [(1, ⟨[1, 2], 1, 3, 0, 0, none⟩)], launch := [(1, 0)] }, by decide +kernel⟩

theorem test_wit_EthernetPorts_10 : ∃ (p : Fin 8) (up : Bool) (s : State), (s.regionOn .net = true) ∧ (s.flag (Reg.NET_PSTAT_LINK p) ≠
    up) := ⟨1, true, up, by decide +kernel⟩

theorem test_wit_EthernetPorts_11 : ∃ (m : Master) (x : TxStamp) (l : List TxStamp) (s : State), (s.reaches m false 0x41010030 = true)
    ∧ (s.net.txq = x :: l) := ⟨1, ⟨3, 1, 77⟩, [], up.setNet { up.net with txq := [⟨3, 1, 77⟩] }, by decide +kernel⟩

theorem test_wit_SequencersAndQueues_1 : ∃ (m : Master) (n : Fin 4) (s : State), (s.reaches m true (0x42000100 + 0x10 * n.val) = true)
    ∧ (s.works .acq = true) ∧ (s.seqEnabled n = true) ∧ (s.rd (Reg.ACQ_SEQCFG_SRC n) = 1) ∧ (s.flag Reg.ACQ_STAT_CALBUSY = false) ∧
    (s.flag (Reg.ACQ_SEQSTAT_BUSY n) = false) := ⟨1, 1, ((on .acq up).wr (Reg.ACQ_SEQCFG_NENT 1) 2).wr (Reg.ACQ_SEQCFG_SRC 1) 1, by
    decide +kernel⟩

theorem test_wit_SequencersAndQueues_2 : ∃ (n : Fin 4) (s : State), (spGet s.acq.seqPhase n 0 = 1) ∧ (s.seqEntries n ≠ []) := ⟨1, ((on
    .acq up).wr (Reg.ACQ_SEQCFG_NENT 1) 2).setAcq { up.acq with seqPhase := [(1, 1)] }, by decide +kernel⟩

theorem test_wit_SequencersAndQueues_3 : ∃ (n : Fin 4) (e : Fin 32) (raw : List Int) (s : State), (s.seqTaken (s.rd (Reg.ACQ_SEQENT_ADC
    n e)) = some n.val) ∧ ((spGet s.acq.seqLeft n []).find? (fun x => s.rd (Reg.ACQ_SEQENT_ADC n x) = (s.rd (Reg.ACQ_SEQENT_ADC n e)))
    = some e.val) ∧ ((s.rd (Reg.ACQ_SEQENT_INPUT n e)) < 32) := ⟨1, 1, [100], ((on .acq up).wr (Reg.ACQ_SEQCFG_NENT 1) 2).setAcq
    { up.acq with seqPhase := [(1, 2)], seqLeft := [(1, [1])] }, by decide +kernel⟩

theorem test_wit_SequencersAndQueues_4 : ∃ (m : Master) (q : Fin 4) (x : Nat) (l : List Nat) (s : State), (s.reaches m false
    (0x42000208 + 0x10 * q.val) = true) ∧ (s.queue q = x :: l) ∧ (l.length < 1024) ∧ (s.unstruck 6 (fun w => decide (w = s.queueWord q
    0)) = true) := ⟨1, 2, 7, [], up.putQueue 2 [7], by decide +kernel⟩

theorem test_wit_SequencersAndQueues_5 : ∃ (m : Master) (q : Fin 4) (x : Nat) (l : List Nat) (s : State), (s.reaches m false
    (0x42000208 + 0x10 * q.val) = true) ∧ (s.queue q = x :: l) ∧ (s.unreadable 6 (fun w => decide (w = s.queueWord q 0)) = true) := ⟨1,
    2, 7, [], ((on .acq up).putQueue 2 [7]).putUpset 6 2048 3, by decide +kernel⟩

theorem test_wit_SequencersAndQueues_6 : ∃ (m : Master) (q : Fin 4) (s : State), (s.reaches m false (0x42000208 + 0x10 * q.val) = true)
    ∧ (s.queue q = []) := ⟨1, 2, up, by decide +kernel⟩

theorem test_wit_SequencersAndQueues_7 : ∃ (st : Fin 8) (s : State), (s.flag (Reg.SVS_SCFG_EN st) = true) := ⟨2, up.wr (Reg.SVS_SCFG_EN
    2) 1, by decide +kernel⟩

theorem test_wit_CalibrationAndTests_1 : ∃ (m : Master) (s : State), (s.reaches m true 0x42000000 = true) ∧ (s.idleOrMaint = true) ∧
    (s.flag Reg.ACQ_STAT_CALBUSY = false) ∧ (s.acqQuiet = true) := ⟨1, up, by decide +kernel⟩

theorem test_wit_CalibrationAndTests_2 : ∃ (factors : List Word) (s : State), (factors.length = 13) ∧ (s.flag Reg.ACQ_STAT_CALBUSY =
    true) ∧ (s.timerOn tmCal = true) := ⟨0x40000000 :: List.replicate 12 0, (up.wr Reg.ACQ_STAT_CALBUSY 1).startTimer tmCal, by
    decide +kernel⟩

theorem test_wit_CalibrationAndTests_3 : ∃ (s : State), (s.works .acq = true) ∧ (s.flag Reg.ACQ_ROT_EN = true) ∧ (s.flag
    Reg.ACQ_ROTSTAT_HALT = false) ∧ (s.rd Reg.ACQ_ROTSTAT_RELEASED = 15) ∧ (s.acq.incoming = none) ∧ (s.rdBit Reg.ACQ_ROTSTAT_SUSPECT
    (s.rd Reg.ACQ_ROTSTAT_SPARE) = false) := ⟨(on .acq up).wr Reg.ACQ_ROT_EN 1, by decide +kernel⟩

theorem test_wit_CalibrationAndTests_4 : ∃ (factors : Word) (s : State), (s.rd Reg.ACQ_ROTSTAT_RELEASED < 13) ∧ (calPasses
    factors.toNat = true) := ⟨0x40000000, up.wr Reg.ACQ_ROTSTAT_RELEASED 12, by decide +kernel⟩

theorem test_wit_CalibrationAndTests_5 : ∃ (factors : Word) (p : Fin 13) (s : State), (s.rd Reg.ACQ_ROTSTAT_RELEASED = p.val) ∧
    (calPasses factors.toNat = false) := ⟨0, 12, (up.wr Reg.ACQ_ROTSTAT_RELEASED 12).setAcq { up.acq with calFails := [(12, 1)] }, by
    decide +kernel⟩

theorem test_wit_CalibrationAndTests_6 : ∃ (p : Fin 13) (s : State), (s.acq.incoming = some p.val) ∧ (64 ≤ s.acq.overlap) ∧
    (s.acq.diffSum ≤ 64 * s.rd Reg.ACQ_ROT_TOL) := ⟨12, up.setAcq { up.acq with incoming := some 12, overlap := 64 }, by
    decide +kernel⟩

theorem test_wit_CalibrationAndTests_7 : ∃ (n : Fin 4) (p : Fin 13) (s : State), (spGet s.acq.seqPhase n 0 = 1) ∧ (s.acq.incoming =
    some p.val) ∧ (s.acq.takeOver = true) ∧ ((s.seqEntries n).any (fun e => s.rd (Reg.ACQ_SEQENT_ADC n e) = s.rd Reg.ACQ_ROTSTAT_POS) =
    true) ∧ ((List.range 4).all (fun m => !s.seqWants m (s.rd Reg.ACQ_ROTSTAT_POS)) = true) := ⟨2, 12, (up.wr (Reg.ACQ_SEQCFG_NENT 2)
    1).setAcq { up.acq with seqPhase := [(2, 1)], incoming := some 12, overlap := 64, takeOver := true }, by decide +kernel⟩

theorem test_wit_CalibrationAndTests_8 : ∃ (n : Fin 4) (p : Fin 13) (s : State), (spGet s.acq.seqPhase n 0 = 1) ∧ (s.acq.incoming =
    some p.val) ∧ (s.acq.takeOver = true) ∧ ((List.range 4).any (fun m => s.seqWants m (s.rd Reg.ACQ_ROTSTAT_POS)) = true) := ⟨2, 12,
    (up.wr (Reg.ACQ_SEQCFG_NENT 2) 1).setAcq
    { up.acq with seqPhase := [(1, 2), (2, 1)], seqLeft := [(1, [0])], incoming := some 12, overlap := 64, takeOver := true }, by
    decide +kernel⟩

theorem test_wit_CalibrationAndTests_9 : ∃ (p : Fin 13) (s : State), (s.acq.incoming = some p.val) ∧ (64 ≤ s.acq.overlap) ∧ (64 * s.rd
    Reg.ACQ_ROT_TOL < s.acq.diffSum) ∧ (s.acq.takeOver = false) := ⟨12, up.setAcq
    { up.acq with incoming := some 12, overlap := 64, diffSum := 100000 }, by decide +kernel⟩

theorem test_wit_CalibrationAndTests_10 : ∃ (c : Fin 32) (s : State), (s.itestPick = some c.val) ∧ (s.works .acq = true) ∧
    (s.acq.itDone = false) ∧ (s.acq.itCur = none) ∧ (s.itestGap c = true) := ⟨3, (on .acq up).wr Reg.ACQ_ITEST_EN 8, by decide +kernel⟩

theorem test_wit_CalibrationAndTests_11 : ∃ (c : Fin 32) (raw : Int) (s : State), (s.acq.itCur = some c.val) := ⟨3, 100, up.setAcq
    { up.acq with itCur := some 3, openRun := [(3, 3)] }, by decide +kernel⟩

theorem test_wit_TrackerSectors_1 : ∃ (code : Fin 8) (s : State), (s.worksNow .ang = true) ∧ (codeValid code = true) ∧ (codeValid (s.rd
    Reg.ANG_STAT_SECTOR) = true) ∧ (s.ang.refCode ≠ 0) ∧ ((sectorIndex code + 6 - sectorIndex (s.rd Reg.ANG_STAT_SECTOR)) % 6 = 1) ∧
    (code.val ≠ 5) := ⟨4, (on .ang up).wr Reg.ANG_STAT_SECTOR 5 |>.setAng { up.ang with refCode := 5 }, by decide +kernel⟩

theorem test_wit_TrackerSectors_2 : ∃ (code : Fin 8) (s : State), (s.worksNow .ang = true) ∧ (codeValid code = true) ∧ (codeValid (s.rd
    Reg.ANG_STAT_SECTOR) = true) ∧ (s.ang.refCode ≠ 0) ∧ ((sectorIndex code + 6 - sectorIndex (s.rd Reg.ANG_STAT_SECTOR)) % 6 = 1) ∧
    (code.val = 5) := ⟨5, (on .ang up).wr Reg.ANG_STAT_SECTOR 1 |>.setAng { up.ang with refCode := 1 }, by decide +kernel⟩

theorem test_wit_TrackerSectors_3 : ∃ (code : Fin 8) (s : State), (s.worksNow .ang = true) ∧ (codeValid code = true) ∧ (codeValid (s.rd
    Reg.ANG_STAT_SECTOR) = true) ∧ (s.ang.refCode ≠ 0) ∧ ((sectorIndex code + 6 - sectorIndex (s.rd Reg.ANG_STAT_SECTOR)) % 6 = 5) :=
    ⟨1, (on .ang up).wr Reg.ANG_STAT_SECTOR 5 |>.setAng { up.ang with refCode := 5 }, by decide +kernel⟩

theorem test_wit_TrackerSectors_4 : ∃ (code : Fin 8) (s : State), (s.worksNow .ang = true) ∧ (codeValid code = true) ∧ (codeValid (s.rd
    Reg.ANG_STAT_SECTOR) = true) ∧ (s.ang.refCode ≠ 0) ∧ (2 ≤ (sectorIndex code + 6 - sectorIndex (s.rd Reg.ANG_STAT_SECTOR)) % 6 ∧
    (sectorIndex code + 6 - sectorIndex (s.rd Reg.ANG_STAT_SECTOR)) % 6 ≤ 4) := ⟨2, (on .ang up).wr Reg.ANG_STAT_SECTOR 5 |>.setAng
    { up.ang with refCode := 5 }, by decide +kernel⟩

theorem test_wit_TrackerSectors_5 : ∃ (code : Fin 8) (s : State), (s.worksNow .ang = true) ∧ (codeValid code = true) ∧ (codeValid (s.rd
    Reg.ANG_STAT_SECTOR) = false) ∧ (code.val ≠ s.rd Reg.ANG_STAT_SECTOR) := ⟨2, on .ang up, by decide +kernel⟩

theorem test_wit_TrackerSectors_6 : ∃ (code : Fin 8) (s : State), (s.worksNow .ang = true) ∧ (codeValid code = false) ∧ (code.val ≠
    s.rd Reg.ANG_STAT_SECTOR) := ⟨7, on .ang up, by decide +kernel⟩

theorem test_wit_TrackerSectors_7 : ∃ (s : State), (s.worksNow .ang = true) ∧ (s.timerOn tmDead = true) ∧ (s.ang.pllOn = false) := ⟨(on
    .ang up).startTimer tmDead, by decide +kernel⟩

theorem test_wit_TrackerSectors_8 : ∃ (m : Master) (s : State), (s.reaches m true 0x42010000 = true) := ⟨1, up, by decide +kernel⟩

theorem test_wit_TrackerSectors_9 : ∃ (m : Master) (s : State), (s.reaches m true 0x42010000 = true) ∧ (s.rd (blockEn .ang) = 0) ∧
    (s.running .ang = false) := ⟨1, up, by decide +kernel⟩

theorem test_wit_TrackerSectors_10 : ∃ (m : Master) (s : State), (s.reaches m true 0x42010000 = true) := ⟨1, on .ang up, by
    decide +kernel⟩

theorem test_wit_TrackerFrames_1 : ∃ (s : State), (s.worksNow .ang = true) ∧ (s.ang.resBad = none) := ⟨on .ang up, by decide +kernel⟩

theorem test_wit_TrackerFrames_2 : ∃ (ch : Fin 64) (s : State), (s.worksNow .ang = true) ∧ (s.ang.resBad = some ch) := ⟨5, (on .ang
    up).setAng { up.ang with resBad := some 5 }, by decide +kernel⟩

theorem test_wit_TrackerFrames_3 : ∃ (s : State), (s.worksNow .ang = true) ∧ (s.timerOn tmPll = true) ∧ (s.ang.pllOn = false) ∧
    (s.pllMay = true) := ⟨((on .ang up).startTimer tmPll).setAng { up.ang with secValid := true }, by decide +kernel⟩

theorem test_wit_TrackerFrames_4 : ∃ (w : BitVec 48) (c : Nat) (s : State), (s.worksNow .ang = true) ∧ (s.pins.spi0 = 1) ∧ (s.ang.sawCs
    = some c) ∧ (crc8 40 (w.toNat / 256) = w.toNat % 256) ∧ (bitAt w.toNat 15 = false) := ⟨0, 0, ((on .ang up).setPins
    { up.pins with spi0 := 1 }).setAng { up.ang with sawCs := some 0 }, by decide +kernel⟩

theorem test_wit_TrackerFrames_5 : ∃ (w : BitVec 48) (c : Nat) (s : State), (s.worksNow .ang = true) ∧ (s.pins.spi0 = 1) ∧ (s.ang.sawCs
    = some c) ∧ (crc8 40 (w.toNat / 256) ≠ w.toNat % 256) := ⟨1, 0, ((on .ang up).setPins { up.pins with spi0 := 1 }).setAng
    { up.ang with sawCs := some 0 }, by decide +kernel⟩

theorem test_wit_TrackerFrames_6 : ∃ (s : State), (s.worksNow .ang = true) ∧ (s.lrd Reg.ANG_CTRL_SRC = 1 ∨ s.lrd Reg.ANG_CTRL_SRC = 2 ∨
    s.pins.spi0 = 1) ∧ (s.timerOn tmSaw = true) := ⟨lat Reg.ANG_CTRL_SRC 1 ((on .ang up).startTimer tmSaw), by decide +kernel⟩

theorem test_wit_PointingOutputs_1 : ∃ (m : Master) (n : Fin 4) (s : State), (s.reaches m true (0x42010400 + 0x10 * n.val) = true) ∧
    (s.lrd (Reg.ANG_ACPCFG_MODE n) = 1) ∧ (s.lrd (Reg.ANG_ACPCFG_EN n) = 1) ∧ (s.mode ≠ 10) ∧ (s.flag Reg.ANG_STAT_VALID = true) := ⟨1,
    2, lat (Reg.ANG_ACPCFG_MODE 2) 1 (lat (Reg.ANG_ACPCFG_EN 2) 1 (up.wr Reg.ANG_STAT_VALID 1)), by decide +kernel⟩

theorem test_wit_PointingOutputs_2 : ∃ (m : Master) (n : Fin 4) (s : State), (s.reaches m true (0x42010400 + 0x10 * n.val) = true) ∧
    (s.lrd (Reg.ANG_ACPCFG_MODE n) = 1) ∧ (s.lrd (Reg.ANG_ACPCFG_EN n) = 1) ∧ (s.mode ≠ 10) ∧ (s.flag Reg.ANG_STAT_VALID = false) :=
    ⟨1, 2, lat (Reg.ANG_ACPCFG_MODE 2) 1 (lat (Reg.ANG_ACPCFG_EN 2) 1 up), by decide +kernel⟩

theorem test_wit_PointingOutputs_3 : ∃ (m : Master) (n : Fin 4) (s : State), (s.reaches m true (0x42010400 + 0x10 * n.val) = true) ∧
    (s.lrd (Reg.ANG_ACPCFG_MODE n) ≠ 1) := ⟨1, 2, up, by decide +kernel⟩

theorem test_wit_PointingOutputs_4 : ∃ (n : Fin 4) (s : State), (s.acpReady n = true) := ⟨2, lat (Reg.ANG_ACPCFG_MODE 2) 2 (lat
    (Reg.ANG_ACPCFG_EN 2) 1 (((on .ang up).wr Reg.ANG_STAT_VALID 1).setAng { up.ang with outHz := fxOne })), by decide +kernel⟩

theorem test_wit_PointingOutputs_5 : ∃ (n : Fin 4) (s : State), ((spFind s.ang.acpOn n).isSome = true) := ⟨2, up.setAng
    { up.ang with acpOn := [(2, 1)] }, by decide +kernel⟩

theorem test_wit_FormingFrames_1 : ∃ (s : State), (s.worksNow .frm = true) ∧ (s.frmComputes s.mode = true) := ⟨((on .frm up).wr
    Reg.SUP_MODE_MODE 5), by decide +kernel⟩

theorem test_wit_FormingFrames_2 : ∃ (s : State), (s.worksNow .frm = true) ∧ (s.mode = mFormGrid ∨ s.mode = mFormIsland) ∧ (s.flag
    Reg.FRM_STAT_INIT = false) ∧ (s.frm.wOver = none) ∧ (s.frm.dv = 0) ∧ (s.frm.stage2 = false) ∧ (s.rd Reg.FRM_SEQSTAT_SUB ∉ [4, 5,
    6]) ∧ (s.chValid Reg.FRM_VSEL_CHA Reg.FRM_VSEL_CHB Reg.FRM_VSEL_CHC = true) ∧ (s.chValid Reg.FRM_ISEL_CHA Reg.FRM_ISEL_CHB
    Reg.FRM_ISEL_CHC = true) := ⟨formed, by decide +kernel⟩

theorem test_wit_FormingFrames_3 : ∃ (s : State), (s.worksNow .frm = true) ∧ (s.frmComputes s.mode = false) := ⟨on .frm up, by
    decide +kernel⟩

theorem test_wit_FormingFrames_4 : ∃ (ch : BitVec 8) (s : State), (s.worksNow .frm = true) := ⟨3, ((on .frm up).wr Reg.SUP_MODE_MODE
    5), by decide +kernel⟩

theorem test_wit_FormingFrames_5 : ∃ (ch : BitVec 8) (s : State), (s.worksNow .prf = true) ∧ (s.worksNow .frm = false) := ⟨3, on .prf
    up, by decide +kernel⟩

theorem test_wit_FormingFrames_6 : ∃ (s : State), (s.frm.stage2 = true) ∧ (8 ≤ s.frm.s2ok) := ⟨up.setFrm
    { up.frm with stage2 := true, s2ok := 8 }, by decide +kernel⟩

theorem test_wit_FormingFrames_7 : ∃ (s : State), (s.worksNow .frm = true) ∧ (isForming s.mode = true) ∧ (max 1 (s.lrd
    Reg.FRM_IHOLD_IHOLD) ≤ s.frm.noCur) := ⟨((on .frm up).wr Reg.SUP_MODE_MODE 5).setFrm { up.frm with noCur := 1000 }, by
    decide +kernel⟩

theorem test_wit_FormingFrames_8 : ∃ (m : Master) (n : Fin 8) (s : State), (s.reaches m true (0x43010110 + 0x20 * n.val) = true) := ⟨1,
    3, up, by decide +kernel⟩

theorem test_wit_IslandsAndBlackStart_1 : ∃ (s : State), (s.mode = mRideThrough) ∧ (s.timerOn tmRt = true) ∧ (s.frm.rtFrom = mFormGrid
    ∨ s.frm.rtFrom = mFormIsland) := ⟨((on .frm up).wr Reg.SUP_MODE_MODE 8).startTimer tmRt, by decide +kernel⟩

theorem test_wit_IslandsAndBlackStart_2 : ∃ (s : State), (s.mode = mFormGrid) ∧ (s.lrd Reg.FRM_SEQCTRL_BRKEN = 1) := ⟨lat
    Reg.FRM_SEQCTRL_BRKEN 1 ((on .frm up).wr Reg.SUP_MODE_MODE 5), by decide +kernel⟩

theorem test_wit_IslandsAndBlackStart_3 : ∃ (s : State), (s.mode = mFormGrid) ∧ (s.timerOn tmIsAngle = true) := ⟨((on .frm up).wr
    Reg.SUP_MODE_MODE 5).startTimer tmIsAngle, by decide +kernel⟩

theorem test_wit_IslandsAndBlackStart_4 : ∃ (s : State), (s.mode = mFormGrid) ∧ (s.timerOn tmIsDead = true) := ⟨((on .frm up).wr
    Reg.SUP_MODE_MODE 5).startTimer tmIsDead, by decide +kernel⟩

theorem test_wit_IslandsAndBlackStart_5 : ∃ (s : State), (s.mode = mFormIsland) ∧ (s.lrd Reg.FRM_SEQCTRL_BRKEN = 1) := ⟨lat
    Reg.FRM_SEQCTRL_BRKEN 1 ((on .frm up).wr Reg.SUP_MODE_MODE 6), by decide +kernel⟩

theorem test_wit_IslandsAndBlackStart_6 : ∃ (s : State), (s.mode = mResync) ∧ (s.frm.fired = true) ∧ (s.timerOn tmClose = true) ∧
    (s.lrd Reg.FRM_SEQCTRL_BRKEN = 1) := ⟨(lat Reg.FRM_SEQCTRL_BRKEN 1 ((on .frm up).wr Reg.SUP_MODE_MODE 9)).startTimer tmClose
    |>.setFrm { up.frm with fired := true }, by decide +kernel⟩

theorem test_wit_IslandsAndBlackStart_7 : ∃ (s : State), (s.mode = mResync) ∧ (s.frm.fired = true) ∧ (s.timerOn tmClose = true) ∧
    (s.lrd Reg.FRM_SEQCTRL_BRKEN ≠ 1) := ⟨((on .frm up).wr Reg.SUP_MODE_MODE 9).startTimer tmClose |>.setFrm
    { up.frm with fired := true }, by decide +kernel⟩

theorem test_wit_IslandsAndBlackStart_8 : ∃ (s : State), (s.mode = mResync) ∧ (s.timerOn tmGrid = true) := ⟨((on .frm up).wr
    Reg.SUP_MODE_MODE 9).startTimer tmGrid, by decide +kernel⟩

theorem test_wit_IslandsAndBlackStart_9 : ∃ (m : Master) (v : Word) (s : State), (s.reaches m true 0x430000AC = true) ∧ (s.mode =
    mReady) ∧ (s.flag Reg.FRM_SEQCTRL_BSARM = false) ∧ (v.toNat % 2 = 1) := ⟨1, 1, up.wr Reg.SUP_MODE_MODE 4, by decide +kernel⟩

theorem test_wit_IslandsAndBlackStart_10 : ∃ (s : State), (s.claims = true) ∧ (s.rd Reg.FRM_SEQSTAT_SUB = 1) ∧ (s.timerOn tmDeadBus =
    true) := ⟨((both Reg.FRM_SEQCTRL_BSARM 1 ((on .frm up).wr Reg.SUP_MODE_MODE 4)).wr Reg.FRM_SEQSTAT_SUB 1).startTimer tmDeadBus, by
    decide +kernel⟩

theorem test_wit_IslandsAndBlackStart_11 : ∃ (s : State), (s.claims = true) ∧ (s.rd Reg.FRM_SEQSTAT_SUB = 2) ∧ (s.timerOn tmSlot =
    true) := ⟨((both Reg.FRM_SEQCTRL_BSARM 1 ((on .frm up).wr Reg.SUP_MODE_MODE 4)).wr Reg.FRM_SEQSTAT_SUB 2).startTimer tmSlot, by
    decide +kernel⟩

theorem test_wit_IslandsAndBlackStart_12 : ∃ (s : State), (s.mode = mBlackStart) ∧ (s.rd Reg.FRM_SEQSTAT_SUB = 5) ∧ (s.timerOn tmJoin =
    true) := ⟨(((on .frm up).wr Reg.SUP_MODE_MODE 7).wr Reg.FRM_SEQSTAT_SUB 5).startTimer tmJoin, by decide +kernel⟩

theorem test_wit_AccumulatorOperations_1 : ∃ (t : Fin 128) (c : Fin 800) (a b : Fin 65536) (s : State), (s.armCan t c 2 a b = true) :=
    ⟨15, 0, 0, 0, tile 2 1 0 0 0 0, by decide +kernel⟩

theorem test_wit_AccumulatorOperations_2 : ∃ (t : Fin 128) (c : Fin 800) (a b : Fin 65536) (s : State), (s.armCan t c 3 a b = true) :=
    ⟨15, 0, 0x1234, 0, tile 3 1 1 0 0 0, by decide +kernel⟩

theorem test_wit_AccumulatorOperations_3 : ∃ (t : Fin 128) (c : Fin 800) (a b : Fin 65536) (s : State), (s.armCan t c 4 a b = true) :=
    ⟨15, 0, 0x1234, 0xF000, tile 4 1 1 2 0 0, by decide +kernel⟩

theorem test_wit_AccumulatorOperations_4 : ∃ (t : Fin 128) (c : Fin 800) (a b : Fin 65536) (s : State), (s.armCan t c 5 a b = true) :=
    ⟨15, 0, 0x1234, 0xF000, tile 5 1 1 2 0 0, by decide +kernel⟩

theorem test_wit_AccumulatorOperations_5 : ∃ (t : Fin 128) (c : Fin 800) (a b : Fin 65536) (s : State), (s.armCan t c 6 a b = true) :=
    ⟨15, 0, 0x1234, 0xF000, tile 6 1 1 2 0 0, by decide +kernel⟩

theorem test_wit_AccumulatorOperations_6 : ∃ (t : Fin 128) (c : Fin 800) (a b : Fin 65536) (s : State), (s.armCan t c 7 a b = true) :=
    ⟨15, 0, 0x1234, 0, tile 7 1 1 0 0 0, by decide +kernel⟩

theorem test_wit_AccumulatorOperations_7 : ∃ (t : Fin 128) (c : Fin 800) (a b : Fin 65536) (s : State), (s.armCan t c 8 a b = true) :=
    ⟨15, 0, 0x1234, 0, tile 8 1 1 0 0 0, by decide +kernel⟩

theorem test_wit_AccumulatorOperations_8 : ∃ (t : Fin 128) (c : Fin 800) (a b : Fin 65536) (s : State), (s.armCan t c 9 a b = true) :=
    ⟨15, 0, 0, 0, tile 9 1 0 0 0 2, by decide +kernel⟩

theorem test_wit_AccumulatorOperations_9 : ∃ (t : Fin 128) (c : Fin 800) (a b : Fin 65536) (s : State), (s.armCan t c 10 a b = true) :=
    ⟨15, 0, 0, 0, tile 10 1 0 0 0 2, by decide +kernel⟩

theorem test_wit_AccumulatorOperations_10 : ∃ (t : Fin 128) (c : Fin 800) (a b : Fin 65536) (s : State), (s.armCan t c 11 a b = true)
    := ⟨15, 0, 0, 0, tile 11 2 0 0 0 31, by decide +kernel⟩

theorem test_wit_AccumulatorOperations_11 : ∃ (t : Fin 128) (c : Fin 800) (a b : Fin 65536) (s : State), (s.armCan t c 12 a b = true)
    := ⟨15, 0, 0, 0, tile 12 1 0 0 0 0, by decide +kernel⟩

theorem test_wit_AccumulatorOperations_12 : ∃ (t : Fin 128) (c : Fin 800) (a b : Fin 65536) (s : State), (s.armCan t c 13 a b = true)
    := ⟨15, 0, 0, 0, tile 13 2 0 0 0 0, by decide +kernel⟩

theorem test_wit_AccumulatorOperations_13 : ∃ (t : Fin 128) (c : Fin 800) (a b : Fin 65536) (s : State), (s.armCan t c 14 a b = true)
    := ⟨15, 0, 0x1234, 0, tile 14 1 1 0 0 0, by decide +kernel⟩

theorem test_wit_AccumulatorOperations_14 : ∃ (t : Fin 128) (c : Fin 800) (a b : Fin 65536) (s : State), (s.armCan t c 15 a b = true)
    := ⟨15, 0, 0x1234, 0, tile 15 1 1 0 0 0, by decide +kernel⟩

theorem test_wit_AccumulatorOperations_15 : ∃ (t : Fin 128) (c : Fin 800) (a b : Fin 65536) (s : State), (s.armCan t c 16 a b = true)
    := ⟨15, 0, 0xF000, 0x1234, tile 16 1 2 1 0 0, by decide +kernel⟩

theorem test_wit_WordOperations_1 : ∃ (t : Fin 128) (c : Fin 800) (a b : Fin 65536) (s : State), (s.armCan t c 17 a b = true) := ⟨15,
    0, 0, 0, tile 17 2 0 0 7 3, by decide +kernel⟩

theorem test_wit_WordOperations_2 : ∃ (t : Fin 128) (c : Fin 800) (a b : Fin 65536) (s : State), (s.armCan t c 18 a b = true) := ⟨15,
    0, 0x1234, 0, tile 18 1 1 0 (5 * 256 + 3) 0, by decide +kernel⟩

theorem test_wit_WordOperations_3 : ∃ (t : Fin 128) (c : Fin 800) (a b : Fin 65536) (s : State), (s.armCan t c 19 a b = true) := ⟨15,
    0, 0x1234, 0xF000, tile 19 2 1 2 7 0, by decide +kernel⟩

theorem test_wit_WordOperations_4 : ∃ (t : Fin 128) (c : Fin 800) (a b : Fin 65536) (s : State), (s.armCan t c 36 a b = true) ∧ (q15 b
    ≠ 0) ∧ (a = b) := ⟨15, 0, 0x1234, 0x1234, tile 36 1 1 1 7 0, by decide +kernel⟩

theorem test_wit_WordOperations_5 : ∃ (t : Fin 128) (c : Fin 800) (a b : Fin 65536) (s : State), (s.armCan t c 37 a b = true) ∧ (q15 a
    * q15 a + q15 b * q15 b = 1073741824) := ⟨15, 0, 0x8000, 0, (tile 37 1 1 0 7 0).setArm
    { (tile 37 1 1 0 7 0).arm with dat := [(15 * 1024 + 1, 0x28000)] }, by decide +kernel⟩

theorem test_wit_WordOperations_6 : ∃ (t : Fin 128) (c : Fin 800) (a b : Fin 65536) (s : State), (s.armCan t c 32 a b = true) ∧ (a.val
    ≠ 16384) := ⟨15, 0, 0x1234, 0, tile 32 1 1 0 7 0, by decide +kernel⟩

theorem test_wit_WordOperations_7 : ∃ (t : Fin 128) (c : Fin 800) (a b : Fin 65536) (s : State), (s.armCan t c 33 a b = true) ∧ (a.val
    ≠ 0) := ⟨15, 0, 0x1234, 0, tile 33 1 1 0 7 0, by decide +kernel⟩

theorem test_wit_WordOperations_8 : ∃ (t : Fin 128) (c : Fin 800) (a b : Fin 65536) (s : State), (s.armCan t c 34 a b = true) ∧ (a.val
    ≠ 0 ∨ b.val ≠ 0) := ⟨15, 0, 0x1234, 0xF000, tile 34 1 1 2 7 0, by decide +kernel⟩

theorem test_wit_WordOperations_9 : ∃ (t : Fin 128) (c : Fin 800) (a b : Fin 65536) (s : State), (s.armCan t c 35 a b = true) ∧ (0 ≤
    q15 a) := ⟨15, 0, 0x1234, 0, tile 35 1 1 0 7 0, by decide +kernel⟩

theorem test_wit_WordOperations_10 : ∃ (t : Fin 128) (c : Fin 800) (a b : Fin 65536) (s : State), (s.armCan t c 36 a b = true) ∧ (q15 b
    ≠ 0) ∧ (a ≠ b) := ⟨15, 0, 0x1234, 0xF000, tile 36 1 1 2 7 0, by decide +kernel⟩

theorem test_wit_WordOperations_11 : ∃ (t : Fin 128) (c : Fin 800) (a b : Fin 65536) (s : State), (s.armCan t c 37 a b = true) ∧ (q15 a
    * q15 a + q15 b * q15 b ≠ 1073741824) := ⟨15, 0, 0x1234, 0xF000, tile 37 1 1 2 7 0, by decide +kernel⟩

theorem test_wit_WordOperations_12 : ∃ (t : Fin 128) (c : Fin 800) (a b : Fin 65536) (s : State), (s.armCan t c 32 a b = true) ∧ (a.val
    = 16384) := ⟨15, 0, 16384, 0, tile 32 1 (6 * 256 + 3) 0 7 0, by decide +kernel⟩

theorem test_wit_WordOperations_13 : ∃ (t : Fin 128) (c : Fin 800) (a b : Fin 65536) (s : State), (s.armCan t c 33 a b = true) ∧ (a.val
    = 0) := ⟨15, 0, 0, 0, tile 33 1 0 0 7 0, by decide +kernel⟩

theorem test_wit_DomainLimits_1 : ∃ (t : Fin 128) (c : Fin 800) (a b : Fin 65536) (s : State), (s.armCan t c 34 a b = true) ∧ (a.val =
    0) ∧ (b.val = 0) := ⟨15, 0, 0, 0, tile 34 1 0 0 7 0, by decide +kernel⟩

theorem test_wit_DomainLimits_2 : ∃ (t : Fin 128) (c : Fin 800) (a b : Fin 65536) (s : State), (s.armCan t c 35 a b = true) ∧ (q15 a <
    0) := ⟨15, 0, 0xF000, 0, tile 35 1 2 0 7 0, by decide +kernel⟩

theorem test_wit_DomainLimits_3 : ∃ (t : Fin 128) (c : Fin 800) (a b : Fin 65536) (s : State), (s.armCan t c 36 a b = true) ∧ (q15 b =
    0) := ⟨15, 0, 0x1234, 0, tile 36 1 1 0 7 0, by decide +kernel⟩

theorem test_wit_ArmatureControl_1 : ∃ (t : Fin 128) (c : Fin 800) (a b : Fin 65536) (s : State), (s.armCan t c 0 a b = true) := ⟨15,
    0, 0, 0, tile 0 0 0 0 0 0, by decide +kernel⟩

theorem test_wit_ArmatureControl_2 : ∃ (t : Fin 128) (c : Fin 800) (x : ArmTile) (s : State), (spFind s.arm.tiles t = some x) ∧
    (s.armStands x = true) ∧ (c.val = x.at_) ∧ (s.upsetOf 4 (256 * t + x.pc) = 0) ∧ ((s.armAt t).opc = 1) := ⟨15, 0, ⟨0, 0, false⟩,
    tile 1 0 0 0 0 0, by decide +kernel⟩

theorem test_wit_ArmatureControl_3 : ∃ (t : Fin 128) (c : Fin 800) (a b : Fin 65536) (s : State), (s.armCan t c 20 a b = true) ∧ (∀ k :
    Fin 3, s.upsetOf 5 (1024 * t + (s.armAt t).a + k) = 0) ∧ ((residue (spGet s.arm.dat (1024 * t + (s.armAt t).a) 0) + residue (spGet
    s.arm.dat (1024 * t + (s.armAt t).a + 1) 0) + residue (spGet s.arm.dat (1024 * t + (s.armAt t).a + 2) 0)) % 15 = residue (spGet
    s.arm.dat (1024 * t + (s.armAt t).a) 0 + spGet s.arm.dat (1024 * t + (s.armAt t).a + 1) 0 * 2 ^ 16 + spGet s.arm.dat (1024 * t +
    (s.armAt t).a + 2) 0 % 256 * 2 ^ 32)) := ⟨15, 0, 0, 0, tile 20 1 1 0 0 0, by decide +kernel⟩

theorem test_wit_ArmatureControl_4 : ∃ (t : Fin 128) (c : Fin 800) (a b : Fin 65536) (s : State), (s.armCan t c 21 a b = true) := ⟨15,
    0, 0, 0, tile 21 2 0 0 9 0, by decide +kernel⟩

theorem test_wit_ArmatureControl_5 : ∃ (t : Fin 128) (c : Fin 800) (x : ArmTile) (s : State), (spFind s.arm.tiles t = some x) ∧
    (s.armStands x = true) ∧ (c.val = x.at_) ∧ (s.running .arm = true) ∧ (s.arm.faulted = false) ∧ (s.upsetOf 4 (256 * t + x.pc) = 0) ∧
    (armLegal t (s.armAt t) = false) := ⟨15, 0, ⟨0, 0, false⟩, tile 63 0 0 0 0 0, by decide +kernel⟩

theorem test_wit_ArmatureControl_6 : ∃ (t : Fin 128) (c : Fin 800) (a b : Fin 65536) (k : Fin 16) (s : State), (s.armCan t c 18 a b =
    true) ∧ (s.running .arm = true) ∧ (s.arm.faulted = false) := ⟨15, 0, 0x1234, 0, 3, tile 18 1 1 0 7 0, by decide +kernel⟩

theorem test_wit_ArmatureSchedule_1 : ∃ (s : State), (s.worksNow .arm = true) ∧ (s.flag Reg.ARM_STAT_RUN = false) ∧ (s.arm.ran = false)
    ∧ (s.frmComputes s.mode = true) ∧ (s.flag Reg.FRM_STAT_FVALID = true) ∧ (s.arm.commitDue = false) := ⟨((on .arm up).wr
    Reg.SUP_MODE_MODE 5).wr Reg.FRM_STAT_FVALID 1, by decide +kernel⟩

theorem test_wit_ArmatureSchedule_2 : ∃ (t : Fin 128) (p : Fin 8) (w : ArmWord) (s : State), (s.arm.flight.filter (fun w => w.dst = 8 *
    t.val + p.val) = [w]) := ⟨15, 2, ⟨7, 3, 122, 9⟩, up.setArm { up.arm with flight := [⟨7, 3, 122, 9⟩] }, by decide +kernel⟩

theorem test_wit_ArmatureSchedule_3 : ∃ (s : State), (s.flag Reg.ARM_STAT_RUN = true) ∧ (s.armAllEnded = true) ∧ (s.arm.run1Now =
    false) ∧ (s.arm.flight = []) := ⟨(on .arm up).set1 Reg.ARM_STAT_RUN, by decide +kernel⟩

theorem test_wit_ArmatureSchedule_4 : ∃ (s : State), (s.flag Reg.ARM_STAT_RUN = true) ∧ (s.armAllEnded = false) ∧ (s.arm.run1Now =
    false) ∧ (s.arm.flight = []) := ⟨tile 0 0 0 0 0 0, by decide +kernel⟩

theorem test_wit_ArmatureSchedule_5 : ∃ (s : State), (s.flag Reg.ARM_STAT_RUN = true) ∧ (s.armAllEnded = false) ∧ (s.arm.run1Now =
    true) ∧ (s.arm.flight = []) := ⟨(tile 0 0 0 0 0 0).setArm { (tile 0 0 0 0 0 0).arm with run1Now := true }, by decide +kernel⟩

theorem test_wit_ArmatureSchedule_6 : ∃ (m : Master) (s : State), (s.reaches m true 0x43020000 = true) ∧ (s.idleOrMaint = true) ∧
    (s.works .arm = true) := ⟨1, on .arm up, by decide +kernel⟩

theorem test_wit_ArmatureSchedule_7 : ∃ (m : Master) (s : State), (s.reaches m true 0x43020000 = true) := ⟨1, up, by decide +kernel⟩

theorem test_wit_ArmatureSchedule_8 : ∃ (s : State), (s.arm.commitDue = true) ∧ (s.flag Reg.ARM_STAT_RUN = false) ∧ (s.arm.ran = false)
    := ⟨((on .arm up).set1 Reg.ARM_STAT_PCPEND).setArm { up.arm with commitDue := true, shadow := [(15 * 1024 + 1000, 7)] }, by
    decide +kernel⟩

theorem test_wit_TileMemories_1 : ∃ (m : Master) (t : Fin 128) (a : Fin 1024) (v : Word) (s : State), (s.reaches m true (tileDataAddr t
    a) = true) ∧ (a.val < 960) := ⟨1, 3, 5, 0x12345, up, by decide +kernel⟩

theorem test_wit_TileMemories_2 : ∃ (m : Master) (t : Fin 128) (a : Fin 1024) (v : Word) (s : State), (s.reaches m true (tileDataAddr t
    a) = true) ∧ (960 ≤ a.val) := ⟨1, 3, 1000, 0x12345, up, by decide +kernel⟩

theorem test_wit_TileMemories_3 : ∃ (m : Master) (t : Fin 128) (slot : Fin 256) (v : Word) (s : State), (s.reaches m true (tileProgAddr
    t slot) = true) ∧ (s.armMayProgram m = true) := ⟨1, 3, 5, 7, (up.wr Reg.SUP_MODE_MODE 11).setPolicy
    { up.policy with armProg := 2 }, by decide +kernel⟩

theorem test_wit_TileMemories_4 : ∃ (m : Master) (t : Fin 128) (slot : Fin 256) (v w : Word) (s : State), (s.reaches m true
    (tileProgAddr t slot + 4) = true) ∧ (s.armMayProgram m = true) ∧ (spFind s.arm.staging m = some (t.val, slot.val, w.toNat)) := ⟨1,
    3, 5, 7, 9, ((up.wr Reg.SUP_MODE_MODE 11).setPolicy { up.policy with armProg := 2 }).setArm
    { up.arm with staging := [(1, (3, 5, 9))] }, by decide +kernel⟩

theorem test_wit_LinkFrames_1 : ∃ (p : Fin 32) (bad : List (Fin 512)) (s : State), (s.works (lnkBlock p.val) = true) ∧ ((s.port p).due
    = true) ∧ (launchMode s.mode = true) ∧ (s.nslot p ≤ 512) ∧ (s.widths [Reg.LNK_CFG_NSLOT p, Reg.LNK_CFG2_SPLIT p, Reg.LNK_CFG_PEER
    p, Reg.LNK_CFG2_CHAINB p, Reg.LNK_CFG2_CSIG p, Reg.LNK_RT_RT p, Reg.LNK_CFG_END p, Reg.LNK_CFG_HOLD p, Reg.MIR_EPOCH_EPOCH,
    Reg.MQT_LFRAME_NOW] = true) := ⟨3, [], port3 { LnkPort.reset with due := true }, by decide +kernel⟩

theorem test_wit_LinkFrames_2 : ∃ (p : Fin 32) (ret : Bool) (f : List Byte) (rt : BitVec 24) (s : State), (s.portHears p = true) ∧
    (frameCrcOk (f.map BitVec.toNat) = false ∨ hcrcOk (headerOf (f.map BitVec.toNat)) = false) := ⟨3, true, [1, 2, 3], 0, port3
    LnkPort.reset, by decide +kernel⟩

theorem test_wit_LinkFrames_3 : ∃ (p : Fin 32) (ret : Bool) (f : List Byte) (rt : BitVec 24) (s : State), (s.portHears p = true) ∧
    (frameCrcOk (f.map BitVec.toNat) = true) ∧ (hcrcOk (headerOf (f.map BitVec.toNat)) = true) ∧ (bitsOf (headerOf (f.map
    BitVec.toNat)) 197 10 = bitsOf (s.chainBits p) 197 10) ∧ (hHops (headerOf (f.map BitVec.toNat)) ≠ 0 ∨ hEnd (headerOf (f.map
    BitVec.toNat)) ≠ s.rd (Reg.LNK_CFG_END p)) ∧ (s.nslot p ≤ 512) := ⟨3, true, mkFrame ((port3 LnkPort.reset).chainBits 3 + 2 ^ 168 +
    2 ^ 220) (slotBytes (3 * 256) true false 0x45 ++ slotBytes (3 * 256 + 1) false false 0x80), 5, port3 LnkPort.reset, by
    decide +kernel⟩

theorem test_wit_LinkBringUpAndPoints_1 : ∃ (p : Fin 32) (invert : Bool) (s : State), (s.works (lnkBlock p.val) = true) ∧ (s.lstate p =
    lDown) ∧ ((s.port p).lost = false) := ⟨3, true, on (lnkBlock 3) up, by decide +kernel⟩

theorem test_wit_LinkBringUpAndPoints_2 : ∃ (p : Fin 32) (s : State), (s.works (lnkBlock p.val) = true) ∧ ((s.port p).aligned = true)
    := ⟨3, port3 LnkPort.reset, by decide +kernel⟩

theorem test_wit_LinkBringUpAndPoints_3 : ∃ (p : Fin 32) (s : State), (s.lstate p = lAlign) ∧ (8 ≤ (s.port p).good) := ⟨3, (port3
    { LnkPort.reset with good := 8 }).wr (Reg.LNK_STAT_LSTATE 3) 1, by decide +kernel⟩

theorem test_wit_LinkBringUpAndPoints_4 : ∃ (p : Fin 32) (s : State), (s.lstate p = lRange) ∧ (16 ≤ (s.port p).steady) ∧ (s.nslot p ≤
    512) ∧ (∀ j : Fin 512, j.val ∈ s.reachedSlots p → stBit (s.rd (Reg.LNK_NODE_STATUS p j)) 6 = true) ∧ (s.rd (Reg.LNK_REACH_REACH p)
    ≤ s.nslot p) ∧ (s.rd (Reg.LNK_RT_RT p) ≤ s.rtLimit p) ∧ (s.reachedSlots p ≠ []) := ⟨3, ((((port3
    { LnkPort.reset with steady := 16 }).wr (Reg.LNK_STAT_LSTATE 3) 2).wr (Reg.LNK_REACH_REACH 3) 1).wr (Reg.LNK_NODE_REACHED 3 0)
    1).wr (Reg.LNK_NODE_STATUS 3 0) 0x42, by decide +kernel⟩

theorem test_wit_LinkBringUpAndPoints_5 : ∃ (p : Fin 32) (s : State), (s.works (lnkBlock p.val) = true) ∧ (s.lstate p = lRange) ∧ (16 ≤
    (s.port p).steady) ∧ (s.nslot p ≤ 512) ∧ (∀ j : Fin 512, j.val ∈ s.reachedSlots p → stBit (s.rd (Reg.LNK_NODE_STATUS p j)) 6 =
    true) ∧ (s.nslot p < s.rd (Reg.LNK_REACH_REACH p)) := ⟨3, ((port3 { LnkPort.reset with steady := 16 }).wr (Reg.LNK_STAT_LSTATE 3)
    2).wr (Reg.LNK_REACH_REACH 3) 3, by decide +kernel⟩

theorem test_wit_LinkBringUpAndPoints_6 : ∃ (p : Fin 32) (s : State), (s.lstate p = lRange) ∧ (16 ≤ (s.port p).steady) ∧ (s.nslot p ≤
    512) ∧ (∀ j : Fin 512, j.val ∈ s.reachedSlots p → stBit (s.rd (Reg.LNK_NODE_STATUS p j)) 6 = true) ∧ (s.works (lnkBlock p.val) =
    true) ∧ (s.rd (Reg.LNK_REACH_REACH p) ≤ s.nslot p) ∧ (s.rtLimit p < s.rd (Reg.LNK_RT_RT p)) := ⟨3, ((port3
    { LnkPort.reset with steady := 16 }).wr (Reg.LNK_STAT_LSTATE 3) 2).wr (Reg.LNK_RT_RT 3) 100000, by decide +kernel⟩

theorem test_wit_LinkBringUpAndPoints_7 : ∃ (m : Master) (p : Fin 32) (s : State), (s.reaches m true (lnkBase p) = true) ∧ (s.nslot p ≤
    512) := ⟨1, 3, port3 LnkPort.reset, by decide +kernel⟩

theorem test_wit_LinkBringUpAndPoints_8 : ∃ (p : Fin 32) (s : State), (s.lstate p = lUp ∨ s.lstate p = lDegraded) ∧ (2 ≤ (s.port
    p).low) := ⟨3, (port3 { LnkPort.reset with low := 2 }).wr (Reg.LNK_STAT_LSTATE 3) 5, by decide +kernel⟩

theorem test_wit_LinkBringUpAndPoints_9 : ∃ (p : Fin 32) (s : State), (s.works (lnkBlock p.val) = true) := ⟨3, port3 LnkPort.reset, by
    decide +kernel⟩

theorem test_wit_LinkBringUpAndPoints_10 : ∃ (m : Master) (a : BitVec 18) (v : Word) (s : State), (s.reaches m true (0x30000000 + 4 *
    a.toNat) = true) ∧ (s.flag (Reg.MOD_SM_PRESENT (a.toNat / 32)) = true) ∧ ((s.pt (a.toNat / 32)).queue.length < 4) := ⟨1, 0x6004, 7,
    up.wr (Reg.MOD_SM_PRESENT 768) 1, by decide +kernel⟩

theorem test_wit_LinkBringUpAndPoints_11 : ∃ (m : Master) (a : BitVec 18) (v : Word) (s : State), (s.reaches m true (0x30000000 + 4 *
    a.toNat) = true) ∧ (s.flag (Reg.MOD_SM_PRESENT (a.toNat / 32)) = true) ∧ (4 ≤ (s.pt (a.toNat / 32)).queue.length) := ⟨1, 0x6004, 7,
    (up.wr (Reg.MOD_SM_PRESENT 768) 1).putPt 768 { PtNode.reset with queue := [(1, 1), (1, 1), (1, 1), (1, 1)] }, by decide +kernel⟩

theorem test_wit_LinkBringUpAndPoints_12 : ∃ (m : Master) (a : BitVec 18) (v : Word) (s : State), (s.reaches m true (0x30000000 + 4 *
    a.toNat) = true) ∧ (s.flag (Reg.MOD_SM_PRESENT (a.toNat / 32)) = false) ∧ (s.flag Reg.INT_PERR_VALID = false) := ⟨1, 0x6004, 7, up,
    by decide +kernel⟩

theorem test_wit_LinkBringUpAndPoints_13 : ∃ (j : Fin 8192) (o : PointOp) (s : State), ((s.pt j).op = some o) ∧ (o.again = false) ∧ (4
    ≤ o.age) ∧ (o.tries < 3) := ⟨768, ⟨2, 4, 7, 1, 3, 4, 0, false, false⟩, up.putPt 768
    { PtNode.reset with op := some ⟨2, 4, 7, 1, 3, 4, 0, false, false⟩ }, by decide +kernel⟩

theorem test_wit_LinkBringUpAndPoints_14 : ∃ (j : Fin 8192) (o : PointOp) (s : State), ((s.pt j).op = some o) ∧ (o.again = false) ∧ (4
    ≤ o.age) ∧ (3 ≤ o.tries) ∧ (o.bring = false) := ⟨768, ⟨2, 4, 7, 1, 3, 4, 3, false, false⟩, up.putPt 768
    { PtNode.reset with op := some ⟨2, 4, 7, 1, 3, 4, 3, false, false⟩ }, by decide +kernel⟩

theorem test_wit_Modulation_1 : ∃ (s : State), (s.modulates = true) ∧ (isForming s.mode = true) ∧ (s.unreadable 7 (fun w => decide
    (16384 ≤ w)) = false) := ⟨(((((on .mod (on .rsp up)).wr Reg.SUP_MODE_MODE 5).wr Reg.FRM_STAT_FVALID 1).wr Reg.ARM_STAT_AVALID
    1).setFrm { up.frm with t0 := 77 }), by decide +kernel⟩

theorem test_wit_Modulation_2 : ∃ (s : State), (s.modulates = true) ∧ (isForming s.mode = false) ∧ (s.unreadable 7 (fun w => decide
    (16384 ≤ w)) = false) := ⟨((((((on .mod (on .rsp up)).wr Reg.SUP_MODE_MODE 5).wr Reg.FRM_STAT_FVALID 1).wr Reg.ARM_STAT_AVALID
    1).setFrm { up.frm with t0 := 77 }).wr Reg.SUP_MODE_MODE 10).wr Reg.MIR_CFG_PAIR 1, by decide +kernel⟩

theorem test_wit_Modulation_3 : ∃ (s : State), (s.modulates = false) := ⟨(on .mod up).wr Reg.SUP_MODE_MODE 5, by decide +kernel⟩

theorem test_wit_Modulation_4 : ∃ (a : Fin 12) (s : State), (s.modulates = true) ∧ (isForming s.mode = true) ∧ (s.unreadable 7 (fun w
    => decide (16384 ≤ w)) = false) ∧ (s.armMembers a ≠ []) ∧ (s.lrd (Reg.MOD_ARMCFG_MODE a) ≠ 2) ∧ (((s.armMod a).order.isPerm
    (s.armAvail a)) = true) := ⟨0, arm0 1 0x4000 false, by decide +kernel⟩

theorem test_wit_Modulation_5 : ∃ (a : Fin 12) (s : State), (s.modulates = true) ∧ (isForming s.mode = true) ∧ (s.unreadable 7 (fun w
    => decide (16384 ≤ w)) = false) ∧ (s.armMembers a ≠ []) ∧ (s.lrd (Reg.MOD_ARMCFG_MODE a) ≠ 2) ∧ (((s.armMod a).order.isPerm
    (s.armAvail a)) = true) := ⟨0, arm0 1 0x4000 false, by decide +kernel⟩

theorem test_wit_Modulation_6 : ∃ (a : Fin 12) (s : State), (s.modulates = true) ∧ (isForming s.mode = true) ∧ (s.unreadable 7 (fun w
    => decide (16384 ≤ w)) = false) ∧ (s.armMembers a ≠ []) ∧ (s.lrd (Reg.MOD_ARMCFG_MODE a) ≠ 2) ∧ (((s.armMod a).order.isPerm
    (s.armAvail a)) = true) ∧ (s.mod.blocked = true) := ⟨0, arm0 1 0x4000 true, by decide +kernel⟩

theorem test_wit_Modulation_7 : ∃ (a : Fin 12) (j k : Fin 8192) (s : State), (s.modulates = true) ∧ (isForming s.mode = true) ∧
    (s.unreadable 7 (fun w => decide (16384 ≤ w)) = false) ∧ (s.armMembers a ≠ []) ∧ (s.lrd (Reg.MOD_ARMCFG_MODE a) ≠ 2) ∧ (((s.armMod
    a).order.isPerm (s.armAvail a)) = true) ∧ (s.lrd (Reg.RSP_BAND_SWMAX a) = 0) ∧ (((s.candidates a).filter (s.wasIn a)).length ≤
    s.wholeCount a) ∧ (j.val ∈ s.candidates a) ∧ (k.val ∈ s.candidates a) := ⟨0, 769, 771, lat (Reg.RSP_BAND_SWMAX 0) 0 (arm0 1 0x4000
    false), by decide +kernel⟩

theorem test_wit_Modulation_8 : ∃ (a : Fin 12) (j k : Fin 8192) (s : State), (s.modulates = true) ∧ (isForming s.mode = true) ∧
    (s.unreadable 7 (fun w => decide (16384 ≤ w)) = false) ∧ (s.armMembers a ≠ []) ∧ (s.lrd (Reg.MOD_ARMCFG_MODE a) ≠ 2) ∧ (((s.armMod
    a).order.isPerm (s.armAvail a)) = true) ∧ (s.lrd (Reg.RSP_BAND_SWMAX a) = 0) ∧ (s.wholeCount a < ((s.candidates a).filter (s.wasIn
    a)).length) ∧ (j.val ∈ s.candidates a) ∧ (k.val ∈ s.candidates a) := ⟨0, 770, 772, lat (Reg.RSP_BAND_SWMAX 0) 0 (arm0 1 0x1000
    false), by decide +kernel⟩

theorem test_wit_Modulation_9 : ∃ (a : Fin 12) (i b : Fin 8192) (s : State), (s.modulates = true) ∧ (isForming s.mode = true) ∧
    (s.unreadable 7 (fun w => decide (16384 ≤ w)) = false) ∧ (s.armMembers a ≠ []) ∧ (s.lrd (Reg.MOD_ARMCFG_MODE a) ≠ 2) ∧ (((s.armMod
    a).order.isPerm (s.armAvail a)) = true) ∧ (s.lrd (Reg.RSP_BAND_SWMAX a) = 255) ∧ ((s.candidates a).Pairwise (fun j k => if
    s.levelPol a = (s.armMod a).polR then signed 16 (s.rd (Reg.RSP_KEY_KEY j)) ≤ signed 16 (s.rd (Reg.RSP_KEY_KEY k)) else signed 16
    (s.rd (Reg.RSP_KEY_KEY k)) ≤ signed 16 (s.rd (Reg.RSP_KEY_KEY j)))) ∧ (i.val ∈ s.candidates a) ∧ (b.val ∈ s.candidates a) ∧ (before
    (s.candidates a) b i = true) ∧ (s.mayMove a i = true) ∧ (s.mayMove a b = true) := ⟨0, 773, 769, arm0 1 0x4000 false, by
    decide +kernel⟩

theorem test_wit_Modulation_10 : ∃ (a : Fin 12) (i : Fin 8192) (j : Nat) (s : State), (s.modulates = true) ∧ (isForming s.mode = true)
    ∧ (s.unreadable 7 (fun w => decide (16384 ≤ w)) = false) ∧ (s.lrd (Reg.MOD_ARMCFG_MODE a) = 2) ∧ ((s.armMembers a)[i.val]? = some
    j) ∧ (s.flag (Reg.MOD_SM_AVAIL j) = true) := ⟨0, 2, 770, arm0 2 0x4000 false, by decide +kernel⟩

theorem test_wit_Modulation_11 : ∃ (x : FrameIn) (a : Fin 12) (s : State), (s.flag (Reg.PTP_TRGCFG_EN 0) = true) ∧ (s.regionOn .net =
    true) ∧ (s.regionOn .mod = true) := ⟨⟨0, none⟩, 0, ((arm0 1 0x4000 false).wr (Reg.PTP_TRGCFG_EN 0) 1).set1 Reg.NET_CTRL_EN, by
    decide +kernel⟩

theorem test_wit_Modulation_12 : ∃ (slot : Fin 8192) (rsp : Option (Fin 8192)) (s : State), (s.worksNow .mod = true) := ⟨4000, none,
    (((((on .mod (on .rsp up)).wr Reg.SUP_MODE_MODE 5).wr Reg.FRM_STAT_FVALID 1).wr Reg.ARM_STAT_AVALID 1).setFrm
    { up.frm with t0 := 77 }), by decide +kernel⟩

theorem test_wit_Modulation_13 : ∃ (j : Fin 8192) (s : State), (s.flag (Reg.MOD_SM_PRESENT j) = true) ∧ (s.telOld j = true) ∧ (s.flag
    (Reg.MOD_SM_STALE j) = false) := ⟨768, up.wr (Reg.MOD_SM_PRESENT 768) 1, by decide +kernel⟩

theorem test_wit_NodeFrames_1 : ∃ (j : Fin 8192) (fromD : Bool) (f : List Byte) (arr : Nat) (x : NodeSense) (s : State), (frameCrcOk
    (f.map BitVec.toNat) = true) ∧ (hcrcOk (headerOf (f.map BitVec.toNat)) = true) ∧ (hHops (headerOf (f.map BitVec.toNat)) < hNslot
    (headerOf (f.map BitVec.toNat))) ∧ (fromD = false ∨ hEnd (headerOf (f.map BitVec.toNat)) = 1 ∨ hTopo (headerOf (f.map
    BitVec.toNat)) ≠ 0 ∨ spGet (s.node j).side 0 0 ≠ 0) := ⟨5, false, mkFrame (4000 + 2 ^ 32 + 5 * 2 ^ 64 + 200 * 2 ^ 80 + 2 * 2 ^ 178
    + 2 * 2 ^ 188 + 2 ^ 208 + 2 ^ 210 + 2 ^ 220) (slotBytes 0 false false 0x51 ++ slotBytes 1 false false 0x80), 100, ⟨7, 8, 0, 0,
    false, false, 0⟩, up, by decide +kernel⟩

theorem test_wit_NodeFrames_2 : ∃ (j : Fin 8192) (fromD : Bool) (f : List Byte) (arr : Nat) (x : NodeSense) (s : State), (frameCrcOk
    (f.map BitVec.toNat) = true) ∧ (hcrcOk (headerOf (f.map BitVec.toNat)) = true) ∧ (hHops (headerOf (f.map BitVec.toNat)) < hNslot
    (headerOf (f.map BitVec.toNat))) ∧ (fromD = false ∨ hEnd (headerOf (f.map BitVec.toNat)) = 1 ∨ hTopo (headerOf (f.map
    BitVec.toNat)) ≠ 0 ∨ spGet (s.node j).side 0 0 ≠ 0) ∧ (hVer (headerOf (f.map BitVec.toNat)) = 1) ∧ (hActive (headerOf (f.map
    BitVec.toNat)) = true) ∧ (hCsig (headerOf (f.map BitVec.toNat)) = (s.node j).csig) ∧ ((s.node j).eh ≤ hEpoch (headerOf (f.map
    BitVec.toNat))) ∧ ((s.node j).admitted = true) ∧ (((s.node j).header j (headerOf (f.map BitVec.toNat)) arr s.clk.ticks).sync =
    true) ∧ (slotOk (slotIndex (headerOf (f.map BitVec.toNat)) (if hEnd (headerOf (f.map BitVec.toNat)) = 0 then hHops (headerOf (f.map
    BitVec.toNat)) else hNslot (headerOf (f.map BitVec.toNat)) - 1 - hHops (headerOf (f.map BitVec.toNat)))) false (frameSlot (f.map
    BitVec.toNat) (if hEnd (headerOf (f.map BitVec.toNat)) = 0 then hHops (headerOf (f.map BitVec.toNat)) else hNslot (headerOf (f.map
    BitVec.toNat)) - 1 - hHops (headerOf (f.map BitVec.toNat)))) = true) ∧ (250 ≤ (diff32 (hApply (headerOf (f.map BitVec.toNat)))
    ((((s.node j).header j (headerOf (f.map BitVec.toNat)) arr s.clk.ticks).timeAt arr).toNat / 20 + ((f.map BitVec.toNat).length + 3)
    * 4))) ∧ ((diff32 (hApply (headerOf (f.map BitVec.toNat))) ((((s.node j).header j (headerOf (f.map BitVec.toNat)) arr
    s.clk.ticks).timeAt arr).toNat / 20 + ((f.map BitVec.toNat).length + 3) * 4)) ≤ ((2 * (hPeriod (headerOf (f.map BitVec.toNat)) *
    500) : Nat) : Int)) ∧ ((s.node j).cur = none) := ⟨5, false, mkFrame (4000 + 2 ^ 32 + 5 * 2 ^ 64 + 200 * 2 ^ 80 + 2 * 2 ^ 178 + 2 *
    2 ^ 188 + 2 ^ 208 + 2 ^ 210 + 2 ^ 220) (slotBytes 0 false false 0x51 ++ slotBytes 1 false false 0x80), 0, ⟨7, 8, 0, 0, false,
    false, 0⟩, node5 { Node.reset with st := 4, admitted := true, sync := true, ofs := 0 }, by decide +kernel⟩

theorem test_wit_NodeFrames_3 : ∃ (j : Fin 8192) (f : List Byte) (arr : Nat) (x : NodeSense) (s : State), (hcrcOk (headerOf (f.map
    BitVec.toNat)) = true) ∧ (hEnd (headerOf (f.map BitVec.toNat)) = 0) ∧ (hTopo (headerOf (f.map BitVec.toNat)) = 0) ∧ (spGet (s.node
    j).side 0 0 = 0) := ⟨5, mkFrame (2 * 2 ^ 178 + 2 ^ 208 + 2 ^ 220) [], 0, ⟨7, 8, 0, 0, false, false, 0⟩, up, by decide +kernel⟩

theorem test_wit_NodeStates_1 : ∃ (j : Fin 8192) (s : State), ((s.node j).st = nInit) := ⟨5, up, by decide +kernel⟩

theorem test_wit_NodeStates_2 : ∃ (j : Fin 8192) (d : Bool) (s : State), (spGet (s.node j).side (sideNo d) 0 = 0 ∨ 2 ≤ spGet (s.node
    j).noRet (sideNo d) 0) := ⟨5, true, up, by decide +kernel⟩

theorem test_wit_NodeStates_3 : ∃ (j : Fin 8192) (d : Bool) (s : State), (spGet (s.node j).fold (sideNo d) 0 = 1) ∧ (8 ≤ spGet (s.node
    j).ret (sideNo d) 0) := ⟨5, true, node5 { Node.reset with fold := [(1, 1)], ret := [(1, 8)] }, by decide +kernel⟩

theorem test_wit_NodeStates_4 : ∃ (j : Fin 8192) (c : NodeCmd) (r : List NodeCmd) (s : State), ((s.node j).st = nRun ∨ (s.node j).st =
    nHold ∨ (s.node j).st = nBlocked) ∧ ((s.node j).cmds = c :: r) := ⟨5, nodeCmd 77, [], node5
    { Node.reset with st := 5, cmds := [nodeCmd 77] }, by decide +kernel⟩

theorem test_wit_NodeStates_5 : ∃ (j : Fin 8192) (k : Fin 2) (c : NodeCmd) (s : State), ((s.node j).st = nRun) ∧ ((s.node j).ran =
    true) ∧ ((s.node j).cur = some c) := ⟨5, 1, nodeCmd 77, node5 { Node.reset with st := 4, ran := true, cur := some (nodeCmd 77) },
    by decide +kernel⟩

theorem test_wit_NodeStates_6 : ∃ (j : Fin 8192) (c : NodeCmd) (s : State), ((s.node j).st = nRun) ∧ ((s.node j).ran = true) ∧ ((s.node
    j).cur = some c) ∧ ((s.node j).cmdBy ((c.apply + c.per) % 2 ^ 32) = false) := ⟨5, nodeCmd 77, node5
    { Node.reset with st := 4, ran := true, cur := some (nodeCmd 77) }, by decide +kernel⟩

theorem test_wit_NodeStates_7 : ∃ (j : Fin 8192) (c : NodeCmd) (s : State), ((s.node j).st = nHold) ∧ ((s.node j).cur = some c) ∧
    ((s.node j).cmdBy ((c.apply + (c.hold + 1) * c.per) % 2 ^ 32) = false) := ⟨5, nodeCmd 77, node5
    { Node.reset with st := 5, cur := some (nodeCmd 77) }, by decide +kernel⟩

theorem test_wit_NodeStates_8 : ∃ (j : Fin 8192) (s : State), ((s.node j).st ≠ nInit) ∧ ((s.node j).st ≠ nFault) ∧ ((s.node j).st ≠
    nAcquire) := ⟨5, node5 { Node.reset with st := 4 }, by decide +kernel⟩

theorem test_wit_NodeStates_9 : ∃ (j : Fin 8192) (cause : Fin 16) (sw : Fin 5) (s : State), ((s.node j).st ≠ nInit) := ⟨5, 3, 4, node5
    { Node.reset with st := 4 }, by decide +kernel⟩

theorem test_wit_LeaseMessages_1 : ∃ (s : State), (s.paired = true) ∧ (s.works .mir = true) ∧ (s.mir.holds = true) ∧ (s.mir.hoOut =
    none) ∧ (s.mir.renewing = false ∨ (s.atFrameStart = true ∧ s.mir.renews.head?.all (fun r => r.2.2 != s.now) = true)) := ⟨((on .mir
    up).wr Reg.MIR_CFG_PAIR 1).wr Reg.MIR_STAT_LANES 3 |>.setMir { up.mir with holds := true }, by decide +kernel⟩

theorem test_wit_LeaseMessages_2 : ∃ (x : LeaseMsg) (s : State), (s.paired = true) ∧ (s.works .mir = true) ∧ (x.crcOk = true) ∧
    (x.member.val ≠ s.rd Reg.MIR_CFG_MEMBER) ∧ (2 ≤ x.path.val ∨ s.rd Reg.MIR_CFG_PAIR ≠ 2) ∧ (x.seq.toNat ∉ s.mir.seqSeen) ∧
    (s.mir.holds = false) ∧ (s.widths [Reg.MIR_LE_LE, Reg.MIR_EPSEEN_EPSEEN] = true) := ⟨⟨0, 1, 4, 4, 5000, 9, 30, true, true, false⟩,
    ((on .mir up).wr Reg.MIR_CFG_PAIR 1).wr Reg.MIR_STAT_LANES 3, by decide +kernel⟩

theorem test_wit_LeaseMessages_3 : ∃ (x : LeaseMsg) (r : Nat × Nat × Nat) (s : State), (s.paired = true) ∧ (s.works .mir = true) ∧
    (x.crcOk = true) ∧ (x.member.val ≠ s.rd Reg.MIR_CFG_MEMBER) ∧ (2 ≤ x.path.val ∨ s.rd Reg.MIR_CFG_PAIR ≠ 2) ∧ (x.seq.toNat ∉
    s.mir.seqSeen) ∧ (s.mir.holds = true) ∧ (x.epoch.toNat ≤ s.rd Reg.MIR_EPOCH_EPOCH) ∧ (s.mir.renews.find? (fun r => decide (r.2.1 =
    x.le.toNat)) = some r) := ⟨⟨0, 1, 0, 4, 5000, 9, 30, true, true, false⟩, (3, 5000, 1000), ((on .mir up).wr Reg.MIR_CFG_PAIR
    1).setMir { up.mir with holds := true, renews := [(3, 5000, 1000)] }, by decide +kernel⟩

theorem test_wit_LeaseMessages_4 : ∃ (x : LeaseMsg) (s : State), (s.paired = true) ∧ (s.works .mir = true) ∧ (x.crcOk = true) ∧
    (x.member.val ≠ s.rd Reg.MIR_CFG_MEMBER) ∧ (2 ≤ x.path.val ∨ s.rd Reg.MIR_CFG_PAIR ≠ 2) ∧ (x.seq.toNat ∉ s.mir.seqSeen) := ⟨⟨0, 1,
    4, 4, 5000, 9, 30, true, true, false⟩, ((on .mir up).wr Reg.MIR_CFG_PAIR 1).wr Reg.MIR_STAT_LANES 3, by decide +kernel⟩

theorem test_wit_LeaseMessages_5 : ∃ (x : LeaseMsg) (s : State), (s.paired = true) ∧ (s.works .mir = true) ∧ (x.crcOk = true) ∧
    (x.member.val ≠ s.rd Reg.MIR_CFG_MEMBER) ∧ (2 ≤ x.path.val ∨ s.rd Reg.MIR_CFG_PAIR ≠ 2) ∧ (x.seq.toNat ∉ s.mir.seqSeen) := ⟨⟨0, 1,
    4, 4, 5000, 9, 30, true, true, false⟩, ((on .mir up).wr Reg.MIR_CFG_PAIR 1), by decide +kernel⟩

theorem test_wit_LeaseMessages_6 : ∃ (x : LeaseMsg) (s : State), (s.paired = true) ∧ (s.works .mir = true) ∧ (x.crcOk = true) ∧
    (x.member.val ≠ s.rd Reg.MIR_CFG_MEMBER) ∧ (2 ≤ x.path.val ∨ s.rd Reg.MIR_CFG_PAIR ≠ 2) ∧ (x.seq.toNat ∈ s.mir.seqSeen) := ⟨⟨0, 1,
    4, 4, 5000, 9, 30, true, true, false⟩, ((on .mir up).wr Reg.MIR_CFG_PAIR 1).setMir { up.mir with seqSeen := [9] }, by
    decide +kernel⟩

theorem test_wit_LeaseMessages_7 : ∃ (x : LeaseMsg) (s : State), (x.crcOk = false) := ⟨⟨0, 1, 4, 4, 5000, 9, 30, false, true, false⟩,
    ((on .mir up).wr Reg.MIR_CFG_PAIR 1), by decide +kernel⟩

theorem test_wit_MalletClaims_1 : ∃ (e : Nat) (s : State), (s.paired = true) ∧ (s.works .mir = true) ∧ (s.atFrameStart = true) ∧
    (s.flag Reg.MIR_CTRL_CLAIMEN = true) ∧ (s.mode = mShadow) ∧ (s.mir.holds = false) ∧ ((if s.mir.hoIn = some (s.rd
    Reg.MQT_LFRAME_NOW) then true else s.leaseOut && s.chainQuiet) = true) ∧ (s.newEpoch = some e) := ⟨2, ((((on .mir up).wr
    Reg.MIR_CFG_PAIR 1).wr Reg.SUP_MODE_MODE 10).wr Reg.MIR_CTRL_CLAIMEN 1).setMir { up.mir with released := some 0 }, by
    decide +kernel⟩

theorem test_wit_MalletClaims_2 : ∃ (e : Nat) (s : State), (s.ctl.reqWait = true) ∧ (s.mode = mIdle) ∧ (s.timerOn tmIdleWait = true) ∧
    (s.mir.active = none) ∧ (s.mir.renewSeen = false) ∧ (s.newEpoch = some e) := ⟨2, (((on .mir up).wr Reg.MIR_CFG_PAIR 1).startTimer
    tmIdleWait).setCtl { up.ctl with reqWait := true }, by decide +kernel⟩

theorem test_wit_MalletClaims_3 : ∃ (s : State), (s.ctl.reqWait = true) ∧ (s.mode = mIdle) ∧ (s.timerOn tmIdleWait = true) ∧
    (s.mir.renewSeen = true) := ⟨(((on .mir up).wr Reg.MIR_CFG_PAIR 1).startTimer tmIdleWait).setCtl { up.ctl with reqWait := true }
    |>.setMir { up.mir with renewSeen := true }, by decide +kernel⟩

theorem test_wit_MalletClaims_4 : ∃ (m : Master) (s : State), (s.reaches m true 0x41030000 = true) ∧ (s.rd Reg.MIR_CFG_PAIR = 1) ∧
    (s.mir.holds = true) ∧ (s.works .mir = true) ∧ (s.rd Reg.MIR_STAT_LANES ≠ 0) ∧ (s.mir.partnerShadow = true) ∧ (s.mir.partnerDiffers
    = false) ∧ ((signed 32 (s.rd Reg.MIR_TOFS_TOFS)).natAbs ≤ 200) ∧ (s.mir.hoOut = none) := ⟨1, (((on .mir up).wr Reg.MIR_CFG_PAIR
    1).wr Reg.MIR_STAT_LANES 3).setMir { up.mir with holds := true, partnerShadow := true }, by decide +kernel⟩

theorem test_wit_MalletClaims_5 : ∃ (m : Master) (v : Word) (s : State), (s.reaches m true 0x41030018 = true) ∧ (s.idleOrMaint = true)
    ∧ (s.rd Reg.MIR_EPOCH_EPOCH < v.toNat) := ⟨1, 7, up, by decide +kernel⟩

theorem test_wit_MalletClaims_6 : ∃ (m : Master) (v : Word) (s : State), (s.reaches m true 0x41030018 = true) ∧ (s.idleOrMaint = false
    ∨ v.toNat ≤ s.rd Reg.MIR_EPOCH_EPOCH) ∧ (s.flag Reg.INT_PERR_VALID = false) := ⟨1, 0, up, by decide +kernel⟩

theorem test_wit_MirrorAndHeartbeats_1 : ∃ (s : State), (s.rd Reg.MIR_CFG_PAIR = 1) ∧ (s.mir.holds = true) ∧ (s.works .mir = true) ∧
    (s.recordLanes ≠ 0) ∧ (s.unreadable 9 (fun w => decide (w / 2048 = 7)) = false) := ⟨((on .mir up).wr Reg.MIR_CFG_PAIR 1).wr
    Reg.MIR_STAT_LANES 3 |>.setMir { up.mir with holds := true }, by decide +kernel⟩

theorem test_wit_MirrorAndHeartbeats_2 : ∃ (r : MirRecord) (s : State), (s.rd Reg.MIR_CFG_PAIR = 1) ∧ (s.mode = mShadow) ∧ (s.works
    .mir = true) ∧ (r.ok = true) ∧ (r.digest = s.mir.digest) ∧ (r.frame.toNat = s.rd Reg.MQT_LFRAME_NOW) ∧ (s.unstruck 9 (fun w =>
    decide (w / 2048 = 6)) = true) := ⟨⟨0, 1, 5, 0, [1, 2], true⟩, ((on .mir up).wr Reg.MIR_CFG_PAIR 1).wr Reg.SUP_MODE_MODE 10, by
    decide +kernel⟩

theorem test_wit_MirrorAndHeartbeats_3 : ∃ (r : MirRecord) (s : State), (s.rd Reg.MIR_CFG_PAIR = 1) ∧ (s.mode = mShadow) ∧ (s.works
    .mir = true) ∧ (r.ok = true) ∧ (r.digest ≠ s.mir.digest) ∧ (s.unreadable 9 (fun w => decide (w / 2048 = 6)) = false) := ⟨⟨0, 1, 5,
    1, [1, 2], true⟩, ((on .mir up).wr Reg.MIR_CFG_PAIR 1).wr Reg.SUP_MODE_MODE 10, by decide +kernel⟩

theorem test_wit_MirrorAndHeartbeats_4 : ∃ (r : MirRecord) (s : State), (s.rd Reg.MIR_CFG_PAIR = 1) ∧ (s.mode = mShadow) ∧ (s.works
    .mir = true) ∧ (r.ok = false) ∧ (s.mir.missed = false) ∧ (s.unstruck 9 (fun w => decide (w / 2048 = 6)) = true) := ⟨⟨0, 1, 5, 1,
    [1, 2], false⟩, ((on .mir up).wr Reg.MIR_CFG_PAIR 1).wr Reg.SUP_MODE_MODE 10 |>.setMir { up.mir with missRun := 3 }, by
    decide +kernel⟩

theorem test_wit_MirrorAndHeartbeats_5 : ∃ (r : MirRecord) (s : State), (s.rd Reg.MIR_CFG_PAIR = 1) ∧ (s.mode = mShadow) ∧ (s.works
    .mir = true) ∧ (s.mir.missed = false) ∧ (s.unreadable 9 (fun w => decide (w / 2048 = 6)) = true) := ⟨⟨0, 1, 5, 0, [1, 2], true⟩,
    (((on .mir up).wr Reg.MIR_CFG_PAIR 1).wr Reg.SUP_MODE_MODE 10).putUpset 9 12300 3, by decide +kernel⟩

theorem test_wit_MirrorAndHeartbeats_6 : ∃ (s : State), (s.rd Reg.MIR_CFG_PAIR = 1) ∧ (s.mir.holds = true) ∧ (s.works .mir = true) ∧
    (s.unreadable 9 (fun w => decide (w / 2048 = 7)) = true) := ⟨(((((on .mir up).wr Reg.MIR_CFG_PAIR 1).wr Reg.MIR_STAT_LANES
    3).setMir { up.mir with holds := true }).putUpset 9 14340 3), by decide +kernel⟩

theorem test_wit_MirrorAndHeartbeats_8 : ∃ (l : Fin 2) (s : State), (s.regionOn .net = true) := ⟨1, up, by decide +kernel⟩

theorem test_wit_MirrorAndHeartbeats_9 : ∃ (s : State), (s.paired = true) ∧ (s.works .mir = true) := ⟨((on .mir up).wr Reg.MIR_CFG_PAIR
    1), by decide +kernel⟩

theorem test_wit_MirrorAndHeartbeats_10 : ∃ (s : State), (s.paired = true) ∧ (s.works .mir = true) ∧ (s.flag Reg.MIR_STAT_PARTNER =
    true) ∧ (s.timerOn tmHbRx = true) := ⟨(((on .mir up).wr Reg.MIR_CFG_PAIR 1).wr Reg.MIR_STAT_PARTNER 1).startTimer tmHbRx, by
    decide +kernel⟩

theorem test_wit_MirrorAndHeartbeats_11 : ∃ (s : State), (s.rd Reg.MIR_CFG_PAIR = 2) ∧ (s.mir.holds = true) ∧ (s.works .mir = true) :=
    ⟨((on .mir up).wr Reg.MIR_CFG_PAIR 2).setMir { up.mir with holds := true }, by decide +kernel⟩

theorem test_wit_MirrorAndHeartbeats_12 : ∃ (s : State), (s.rd Reg.MIR_CFG_PAIR = 2) ∧ (s.mode = mShadow) ∧ (s.works .mir = true) ∧
    (s.timerOn tmSnap = true) := ⟨(((on .mir up).wr Reg.MIR_CFG_PAIR 2).wr Reg.SUP_MODE_MODE 10).startTimer tmSnap, by decide +kernel⟩

theorem test_wit_CouplingPairs_1 : ∃ (m : Master) (p : Fin 12) (s : State), (s.reaches m true (0x47000100 + 0x20 * p.val) = true) ∧
    (s.pairRefused p = false) ∧ (s.flag (Reg.LBR_PCFG_PEN p) = false) ∧ ((s.pair p).two = 0) := ⟨1, 3, (((on .lbr (on .prt up)).wr
    (Reg.LBR_PCFG_MODE 3) 1).wr (Reg.LBR_PER_PERIOD 3) 8000), by decide +kernel⟩

theorem test_wit_CouplingPairs_2 : ∃ (m : Master) (p : Fin 12) (s : State), (s.reaches m true (0x47000100 + 0x20 * p.val) = true) ∧
    (s.pairRefused p = true) := ⟨1, 3, ((((on .lbr (on .prt up)).wr (Reg.LBR_PCFG_MODE 3) 1).wr (Reg.LBR_PER_PERIOD 3) 8000).wr
    (Reg.LBR_PER_PERIOD 3) 10).wr (Reg.LBR_TIM_DT 3) 100, by decide +kernel⟩

theorem test_wit_CouplingPairs_3 : ∃ (m : Master) (p : Fin 12) (s : State), (s.reaches m true (0x47000100 + 0x20 * p.val) = true) ∧
    ((s.pair p).two = 0) := ⟨1, 3, ((((on .lbr (on .prt up)).wr (Reg.LBR_PCFG_MODE 3) 1).wr (Reg.LBR_PER_PERIOD 3) 8000).wr
    (Reg.LBR_PCFG_PEN 3) 1).putPair 3 { LbrPair.reset with hOn := true }, by decide +kernel⟩

theorem test_wit_CouplingPairs_4 : ∃ (p : Fin 12) (n : Nat) (s : State), ((s.pair p).next = some n) ∧ (s.pairRuns p = true) ∧ (s.flag
    Reg.LBR_STAT_HALTED = false) ∧ (s.rd (Reg.LBR_PER_PERIOD p) ≠ 0) := ⟨3, 16000, ((((on .lbr (on .prt up)).wr (Reg.LBR_PCFG_MODE 3)
    1).wr (Reg.LBR_PER_PERIOD 3) 8000).wr (Reg.LBR_PCFG_PEN 3) 1).putPair 3 { LbrPair.reset with next := some 16000 }, by
    decide +kernel⟩

theorem test_wit_CouplingPairs_5 : ∃ (p : Fin 12) (n : Nat) (s : State), ((s.pair p).next = some n) ∧ (s.pairRuns p = true) ∧ (s.flag
    Reg.LBR_STAT_HALTED = false) ∧ ((s.pair p).two = 0) ∧ (s.flag (Reg.LBR_PSTAT_RTRIP p) = true ∨ s.flag (Reg.LBR_PSTAT_CFLT p) = true
    ∨ s.pairInhibited p = true ∨ s.pairFaults p ≠ []) := ⟨3, 16000, (((((on .lbr (on .prt up)).wr (Reg.LBR_PCFG_MODE 3) 1).wr
    (Reg.LBR_PER_PERIOD 3) 8000).wr (Reg.LBR_PCFG_PEN 3) 1).putPair 3 { LbrPair.reset with next := some 16000 }).set1
    (Reg.LBR_PSTAT_RTRIP 3), by decide +kernel⟩

theorem test_wit_CouplingPairs_6 : ∃ (p : Fin 12) (exc : List (Fin 12 × Bool)) (e : Edge) (r : List Edge) (s : State), ((s.pair p).plan
    = e :: r) ∧ (s.pairFrozen p = false) := ⟨3, [], ⟨200, true, true⟩, [], ((((on .lbr (on .prt up)).wr (Reg.LBR_PCFG_MODE 3) 1).wr
    (Reg.LBR_PER_PERIOD 3) 8000).wr (Reg.LBR_PCFG_PEN 3) 1).putPair 3 { LbrPair.reset with plan := [⟨200, true, true⟩] }, by
    decide +kernel⟩

theorem test_wit_FaultAndRogowski_1 : ∃ (n : Fin 4) (steps : Nat) (s : State), (s.works .prt = true) ∧ (s.flag (Reg.PRT_FLTCFG_EN n) =
    true) ∧ (s.rd (Reg.PRT_FLTCFG_DGL n) ≤ steps) ∧ (s.faultActs n = false) := ⟨2, 20, (((on .prt up).wr (Reg.PRT_FLTCFG_EN 2) 1).wr
    (Reg.PRT_FLTCFG_PAIRS 2) 8).wr (Reg.PRT_FLTCFG_DGL 2) 20, by decide +kernel⟩

theorem test_wit_FaultAndRogowski_2 : ∃ (n : Fin 4) (p : Fin 12) (steps : Nat) (s : State), (s.works .prt = true) ∧ (s.flag
    (Reg.PRT_FLTCFG_EN n) = true) ∧ (s.rd (Reg.PRT_FLTCFG_DGL n) ≤ steps) ∧ (s.faultActs n = false) ∧ (bitAt (s.rd
    (Reg.PRT_FLTCFG_PAIRS n)) p = true) ∧ (s.pairRuns p = true) ∧ ((s.pair p).began = true) ∧ (s.pairAbove p = false) := ⟨2, 3, 20,
    (((((on .lbr (on .prt up)).wr (Reg.LBR_PCFG_MODE 3) 1).wr (Reg.LBR_PER_PERIOD 3) 8000).wr (Reg.LBR_PCFG_PEN 3) 1).putPair 3
    { LbrPair.reset with mode := 1, began := true, hOn := true }).wr (Reg.PRT_FLTCFG_EN 2) 1 |>.wr (Reg.PRT_FLTCFG_PAIRS 2) 8 |>.wr
    Reg.SAF_STAT_INH 0 |>.wr (Reg.PRT_FLTCFG_DGL 2) 20, by decide +kernel⟩

theorem test_wit_FaultAndRogowski_3 : ∃ (n : Fin 4) (steps : Nat) (s : State), (s.regionOn .grd = true) ∧ (s.rd (Reg.PRT_FLTCFG_DGL n)
    ≤ steps) := ⟨2, 20, up.wr (Reg.PRT_FLTCFG_DGL 2) 20, by decide +kernel⟩

theorem test_wit_FaultAndRogowski_4 : ∃ (n : Fin 4) (steps : Nat) (s : State), (steps < s.rd (Reg.PRT_FLTCFG_DGL n)) := ⟨2, 20, up.wr
    (Reg.PRT_FLTCFG_DGL 2) 21, by decide +kernel⟩

theorem test_wit_FaultAndRogowski_5 : ∃ (n : Fin 12) (soft : Bool) (s : State), (s.rogOn n = true) ∧ (s.flag (Reg.PRT_ROGSTAT_HLIVE n)
    = false) := ⟨2, true, (((on .prt up).wr (Reg.PRT_ROGCFG_EN 2) 1).wr (Reg.PRT_ROGCFG_PAIRS 2) 8), by decide +kernel⟩

theorem test_wit_FaultAndRogowski_6 : ∃ (n : Fin 12) (s : State), ((s.rog n).blank ≠ 0) ∧ (s.rogOn n = true) ∧ (s.flag
    (Reg.PRT_ROGSTAT_SLIVE n) = true) := ⟨2, ((((on .prt up).wr (Reg.PRT_ROGCFG_EN 2) 1).wr (Reg.PRT_ROGCFG_PAIRS 2) 8).set1
    (Reg.PRT_ROGSTAT_SLIVE 2)).putRog 2 { RogCh.reset with blank := 400 }, by decide +kernel⟩

theorem test_wit_FaultAndRogowski_7 : ∃ (p : Fin 12) (s : State), (s.brg.softQ.head? = some p.val) ∧ ((s.pair p).two = 1) := ⟨3,
    (up.putPair 3 { LbrPair.reset with two := 1 }).setBrg
    { (up.putPair 3 { LbrPair.reset with two := 1 }).brg with softQ := [3], lastSoft := some 0 }, by decide +kernel⟩

theorem test_wit_FaultAndRogowski_8 : ∃ (p : Fin 12) (s : State), ((s.pair p).two = 2) := ⟨3, up.putPair 3
    { LbrPair.reset with two := 2, hOn := true, softAt := 100, softT := 50 }, by decide +kernel⟩

theorem test_wit_CoilsAndOvervoltage_1 : ∃ (n : Fin 12) (vb : BitVec 16) (s : State), (s.rogOn n = true) := ⟨2, 12000, (((on .prt
    up).wr (Reg.PRT_ROGCFG_EN 2) 1).wr (Reg.PRT_ROGCFG_PAIRS 2) 8).putRog 2 { RogCh.reset with openRun := 2 }, by decide +kernel⟩

theorem test_wit_CoilsAndOvervoltage_2 : ∃ (m : Master) (s : State), (s.reaches m true 0x47010000 = true) := ⟨1, (((on .prt up).wr
    (Reg.PRT_ROGCFG_EN 2) 1).wr (Reg.PRT_ROGCFG_PAIRS 2) 8), by decide +kernel⟩

theorem test_wit_CoilsAndOvervoltage_3 : ∃ (n : Fin 12) (k neg : Nat) (s : State), ((s.rog n).test = some (k, neg)) ∧ (16 ≤ k) := ⟨2,
    16, 13, up.putRog 2 { RogCh.reset with test := some (16, 13) }, by decide +kernel⟩

theorem test_wit_CoilsAndOvervoltage_4 : ∃ (c : Fin 2) (s : State), (s.works .prt = true) ∧ (s.flag (Reg.PRT_OVCFG_EN c) = true) ∧
    (s.flag (Reg.ACQ_CHVAL_VALID (s.rd (Reg.PRT_OVCFG_CH c))) = true) ∧ (signed 16 (s.rd (Reg.PRT_OVTHR_VOFF c)) < signed 16 (s.rd
    (Reg.PRT_OVTHR_VON c))) := ⟨1, (((((on .prt up).wr (Reg.PRT_OVCFG_EN 1) 1).wr (Reg.PRT_OVCFG_CH 1) 5).wr (Reg.ACQ_CHVAL_VALID 5)
    1).wr (Reg.ACQ_CHVAL_DATA 5) 900).wr (Reg.PRT_OVTHR_VON 1) 800 |>.wr (Reg.PRT_OVTHR_VOFF 1) 700, by decide +kernel⟩

theorem test_wit_CoilsAndOvervoltage_5 : ∃ (c : Fin 2) (s : State), (s.works .prt = true) ∧ (s.flag (Reg.PRT_OVCFG_EN c) = true) ∧
    (s.flag (Reg.ACQ_CHVAL_VALID (s.rd (Reg.PRT_OVCFG_CH c))) = false) := ⟨1, (((on .prt up).wr (Reg.PRT_OVCFG_EN 1) 1).wr
    (Reg.PRT_OVCFG_CH 1) 5), by decide +kernel⟩

theorem test_wit_CoilsAndOvervoltage_6 : ∃ (c : Fin 2) (s : State), (s.timerOn (tmOvInv c) = true) ∧ (s.flag (Reg.PRT_OVCFG_EN c) =
    true) ∧ (s.works .prt = true) ∧ (s.flag (Reg.ACQ_CHVAL_VALID (s.rd (Reg.PRT_OVCFG_CH c))) = false) := ⟨1, (((on .prt up).wr
    (Reg.PRT_OVCFG_EN 1) 1).wr (Reg.PRT_OVCFG_CH 1) 5).startTimer (tmOvInv 1), by decide +kernel⟩

theorem test_wit_CoilsAndOvervoltage_7 : ∃ (m : Master) (s : State), (s.reaches m true 0x47010000 = true) := ⟨1, up.wr
    Reg.PRT_FICNT_COUNT 3, by decide +kernel⟩

theorem test_wit_SafetyPath_1 : ∃ (n : Fin 8) (b level : Bool) (s : State), (s.regionOn .grd = true) := ⟨3, true, true, up, by
    decide +kernel⟩

theorem test_wit_SafetyPath_2 : ∃ (rb : BitVec 8) (s : State), (s.safOn = true) := ⟨5, ((on .saf up).wr (Reg.SAF_OUTCFG_EN 1) 1), by
    decide +kernel⟩

theorem test_wit_SafetyPath_3 : ∃ (rb : BitVec 8) (s : State), (s.safOn = false) ∧ (s.regionOn .grd = true) := ⟨5, up, by
    decide +kernel⟩

theorem test_wit_SafetyPath_4 : ∃ (n : Fin 8) (s : State), (s.timerOn (tmDisc n) = true) ∧ (s.safOn = true) := ⟨3, (on .saf
    up).startTimer (tmDisc 3), by decide +kernel⟩

theorem test_wit_SafetyPath_5 : ∃ (rb : BitVec 8) (n : Fin 8) (s : State), (s.safOn = true) ∧ (s.timerOn (tmDisc n) = true) ∧
    (s.safDisagree n = true) ∧ (ticksMs (s.rd (Reg.SAF_INCFG_DISC n)) ≤ s.timerAge (tmDisc n)) := ⟨0, 3, (((on .saf up).wr
    (Reg.SAF_INCFG_TYPE 3) 1).wr (Reg.SAF_INSTAT_ALIVE 3) 1).startTimer (tmDisc 3) |>.elapse 300000000, by decide +kernel⟩

theorem test_wit_SafetyPath_6 : ∃ (c : Fin 8) (s : State), (s.safOn = true) ∧ (s.flag (Reg.SAF_OUTSTAT_ON (c / 2)) = true) ∧ (s.flag
    (Reg.SAF_OUTCFG_TPEN (c / 2)) = true) ∧ (s.saf.pulse = none) := ⟨3, ((((on .saf up).wr (Reg.SAF_OUTCFG_EN 1) 1).wr
    (Reg.SAF_OUTSTAT_ON 1) 1).wr (Reg.SAF_OUTCFG_TPEN 1) 1), by decide +kernel⟩

theorem test_wit_SafetyPath_7 : ∃ (rb : BitVec 8) (c : Fin 8) (a : Nat) (s : State), (s.saf.pulse = some (c.val, a)) := ⟨255, 3, 0,
    ((on .saf up).wr (Reg.SAF_OUTCFG_EN 1) 1).setSaf { up.saf with pulse := some (3, 0) }, by decide +kernel⟩

theorem test_wit_SafetyPath_8 : ∃ (c : Fin 8) (a : Nat) (s : State), (s.safOn = true) ∧ (spFind s.saf.offAt (c.val / 2) = some a) ∧
    (s.flag (Reg.SAF_OUTSTAT_ON (c.val / 2)) = false) := ⟨3, 0, ((on .saf up).wr (Reg.SAF_OUTCFG_EN 1) 1).setSaf
    { up.saf with offAt := [(1, 0)] }, by decide +kernel⟩

theorem test_wit_SafetyPath_9 : ∃ (m : Master) (s : State), (s.reaches m true 0x47020000 = true) := ⟨1, up, by decide +kernel⟩

theorem test_wit_SafetyPath_10 : ∃ (s : State), (s.safOn = true) := ⟨((on .saf up).wr (Reg.SAF_OUTCFG_EN 1) 1).wr (Reg.SAF_OUTSTAT_ON
    1) 1, by decide +kernel⟩

theorem test_wit_SafetyPath_11 : ∃ (s : State), (s.safOn = true) ∧ (crc32Section s.safImage ≠ s.saf.crc2) := ⟨((on .saf up).wr
    (Reg.SAF_OUTCFG_EN 1) 1).wr (Reg.SAF_OUTSTAT_ON 1) 1, by decide +kernel⟩

theorem test_wit_SafetyPath_12 : ∃ (s : State), (s.safOn = true) ∧ (crc32Section s.safImage = s.saf.crc2) := ⟨(((on .saf up).wr
    (Reg.SAF_OUTCFG_EN 1) 1)).setSaf { up.saf with crc2 := crc32Section (((on .saf up).wr (Reg.SAF_OUTCFG_EN 1) 1)).safImage }, by
    decide +kernel⟩

theorem test_wit_SafetyPath_13 : ∃ (x : Nat × List Nat × Nat) (s : State), (s.saf.copy = some x) ∧ (s.netSafe = true) := ⟨(6, [1], 0),
    ((on .saf up).wr Reg.SAF_NETCFG_NETID 7).setSaf { up.saf with copy := some (6, [1], 0) }, by decide +kernel⟩

theorem test_wit_SafetyPath_14 : ∃ (s : State), (s.saf.cmds.head? = some 1) ∧ (s.netSafe = true) := ⟨((on .saf up).wr
    Reg.SAF_NETCFG_NETID 7).setSaf { up.saf with cmds := [1] }, by decide +kernel⟩

theorem test_wit_SafetyPath_15 : ∃ (s : State), (s.saf.cmds.head? = some 2) ∧ (s.netSafe = true) := ⟨((on .saf up).wr
    Reg.SAF_NETCFG_NETID 7).setSaf { up.saf with cmds := [2] }, by decide +kernel⟩

theorem test_wit_SafetyPath_16 : ∃ (s : State), (s.saf.cmds.head? = some 3) := ⟨((on .saf up).wr Reg.SAF_NETCFG_NETID 7).setSaf
    { up.saf with cmds := [3] }, by decide +kernel⟩

theorem test_wit_SafetyPath_17 : ∃ (s : State), (s.saf.cmds.head? = some 4) := ⟨((on .saf up).wr Reg.SAF_NETCFG_NETID 7).setSaf
    { up.saf with cmds := [4] }, by decide +kernel⟩

theorem test_wit_SafetyPath_18 : ∃ (a : Nat) (s : State), (s.saf.permit = some a) ∧ (s.netSafe = true) := ⟨0, ((on .saf up).wr
    Reg.SAF_NETCFG_NETID 7).setSaf { up.saf with permit := some 0 }, by decide +kernel⟩

theorem test_wit_Recorder_1 : ∃ (m : Master) (ncast : BitVec 12) (ovw : Bool) (g : Nat) (s : State), (s.reaches m true 0x42020000 =
    true) ∧ (s.works .cst = true) ∧ (s.cst.cast = none) ∧ (s.castQuiet = false) ∧ ((s.wr Reg.CST_CTRL_OVW (if ovw then 1 else
    0)).segToArm = some g) := ⟨1, 3, true, 0, ((on .cst up).wr Reg.CST_SEGCFG_SEGSZ 2), by decide +kernel⟩

theorem test_wit_Recorder_2 : ∃ (m : Master) (ncast : BitVec 12) (ovw : Bool) (s : State), (s.reaches m true 0x42020000 = true) ∧
    (s.works .cst = true) ∧ (s.cst.cast = none) ∧ (s.castQuiet = false) ∧ ((s.wr Reg.CST_CTRL_OVW (if ovw then 1 else 0)).segToArm =
    none) := ⟨1, 3, false, (((on .cst up).wr Reg.CST_SEGCFG_SEGSZ 2).wr (Reg.CST_SEG_STATE 0) 4).wr Reg.CST_SEGCFG_NSEG 1, by
    decide +kernel⟩

theorem test_wit_Recorder_3 : ∃ (g : Nat) (s : State), (s.works .cst = true) ∧ (s.cst.cast = none) ∧ (s.cst.await = true) ∧
    (s.castWanted = true) ∧ (s.castQuiet = false) ∧ (s.segToArm = some g) := ⟨0, ((on .cst up).wr Reg.CST_SEGCFG_SEGSZ 2).setCst
    { up.cst with await := true, left := 2 }, by decide +kernel⟩

theorem test_wit_Recorder_4 : ∃ (c : Cast) (s : State), (s.works .cst = true) ∧ (s.castQuiet = false) ∧ (s.cst.cast = some c) ∧ (s.flag
    Reg.CST_ROWCFG_RATE = false) ∧ (∀ k : Fin 8, s.castWord (c.srcs.getD k 0) < 65536) ∧ (c.srcs.length = 8) :=
    ⟨{ seg := 0, base := 0x20000000, pre := 2, post := 2, srcs := [33284, 0, 0, 0, 0, 0, 0, 0], frame := false, rowNs := 1000, rows := 1, trig := none, seq := 0, stamp := 0, preN := 0, postN := 0, start := 0, flags := 0, tkind := 0, measW := 0, hyst := 0, retrigN := 0, ended := 0 },
    ((on .cst up).wr Reg.CST_SEGCFG_SEGSZ 2).setCst
    { up.cst with cast := some { seg := 0, base := 0x20000000, pre := 2, post := 2, srcs := [33284, 0, 0, 0, 0, 0, 0, 0], frame := false, rowNs := 1000, rows := 1, trig := none, seq := 0, stamp := 0, preN := 0, postN := 0, start := 0, flags := 0, tkind := 0, measW := 0, hyst := 0, retrigN := 0, ended := 0 }, left := 1 },
    by decide +kernel⟩

theorem test_wit_Recorder_5 : ∃ (c : Cast) (r : List Cast) (s : State), (s.cst.meas = c :: r) ∧ (s.regionOn .acq = true) ∧ (s.castQuiet
    = false) :=
    ⟨{ seg := 0, base := 0x20000000, pre := 2, post := 2, srcs := [33284], frame := false, rowNs := 1000, rows := 1, trig := none, seq := 0, stamp := 0, preN := 0, postN := 0, start := 0, flags := 0, tkind := 0, measW := 0, hyst := 0, retrigN := 0, ended := 0 },
    [], ((on .cst up).wr Reg.CST_SEGCFG_SEGSZ 2).setCst
    { up.cst with meas := [{ seg := 0, base := 0x20000000, pre := 2, post := 2, srcs := [33284], frame := false, rowNs := 1000, rows := 1, trig := none, seq := 0, stamp := 0, preN := 0, postN := 0, start := 0, flags := 0, tkind := 0, measW := 0, hyst := 0, retrigN := 0, ended := 0 }] },
    by decide +kernel⟩

theorem test_wit_Recorder_6 : ∃ (m : Master) (s : State), (s.reaches m true 0x42020000 = true) := ⟨1, up, by decide +kernel⟩

theorem test_wit_Recorder_7 : ∃ (m : Master) (seg : BitVec 12) (s : State), (s.reaches m true 0x4202003C = true) ∧ (seg.toNat < s.nseg)
    ∧ (s.segState seg.toNat = sgDone) := ⟨1, 0, ((on .cst up).wr Reg.CST_SEGCFG_SEGSZ 2).wr (Reg.CST_SEG_STATE 0) 4, by decide +kernel⟩

theorem test_wit_Recorder_8 : ∃ (m : Master) (seg : BitVec 12) (s : State), (s.reaches m true 0x42020038 = true) ∧ (seg.toNat < s.nseg)
    ∧ (s.segState seg.toNat = sgDone ∨ s.segState seg.toNat = sgHeld) ∧ (s.cst.await = false) := ⟨1, 0, ((on .cst up).wr
    Reg.CST_SEGCFG_SEGSZ 2).wr (Reg.CST_SEG_STATE 0) 5, by decide +kernel⟩

theorem test_wit_Recorder_9 : ∃ (m : Master) (seg : BitVec 12) (s : State), (s.reaches m true 0x4202003C = true) ∧ (s.nseg ≤ seg.toNat
    ∨ s.segState seg.toNat ≠ sgDone) ∧ (s.flag Reg.INT_PERR_VALID = false) := ⟨1, 0, ((on .cst up).wr Reg.CST_SEGCFG_SEGSZ 2), by
    decide +kernel⟩

theorem test_wit_ScrubbingAndTests_1 : ∃ (a : Fin 11) (w : Fin 65536) (b : Fin 64) (late : Bool) (s : State), (s.upset = []) ∧ (s.flag
    Reg.BST_CTRL_EN = true) ∧ ((arrayRegions a).all s.regionOn = true) ∧ (bitAt s.bst.arrays a = false) ∧ (b.val < arrayBits a +
    hammingBits (arrayBits a) + 1) ∧ (a.val ≠ 1) := ⟨2, 9, 37, true, (up.wr Reg.BST_CTRL_EN 1), by decide +kernel⟩

theorem test_wit_ScrubbingAndTests_2 : ∃ (a : Fin 11) (w : Fin 65536) (b c : Fin 64) (late : Bool) (s : State), (s.upset = []) ∧
    (s.flag Reg.BST_CTRL_EN = true) ∧ ((arrayRegions a).all s.regionOn = true) ∧ (bitAt s.bst.arrays a = false) ∧ (b.val < arrayBits a
    + hammingBits (arrayBits a) + 1) ∧ (c.val < arrayBits a + hammingBits (arrayBits a) + 1) ∧ (b ≠ c) := ⟨2, 9, 37, 3, true, (up.wr
    Reg.BST_CTRL_EN 1), by decide +kernel⟩

theorem test_wit_ScrubbingAndTests_3 : ∃ (a : Fin 11) (struck : List Strike) (late : Bool) (s : State), (s.flag Reg.BST_CTRL_EN = true)
    ∧ ((arrayRegions a).any s.regionOn = true) ∧ (bitAt s.bst.arrays a = false) ∧ (s.widths [Reg.BST_SCR_SI a, Reg.BST_SCR_SILOAD a] =
    true) ∧ (s.rd (Reg.BST_SCR_SILOAD a) < s.rd (Reg.BST_SCR_SI a)) := ⟨2, [], false, (((up.wr Reg.BST_CTRL_EN 1).wr (Reg.BST_CTHR_CTHR
    2) 1).wr (Reg.BST_SCR_SI 2) 900).wr (Reg.BST_SCR_SILOAD 2) 500, by decide +kernel⟩

theorem test_wit_ScrubbingAndTests_4 : ∃ (a : Fin 11) (prt late : Bool) (s : State), (s.regionOn (if prt then .grd else .net) = true)
    := ⟨0, true, false, (up.wr Reg.BST_CTRL_EN 1), by decide +kernel⟩

theorem test_wit_ScrubbingAndTests_5 : ∃ (m : Master) (rmask : BitVec 8) (c : Nat) (r : List Nat) (s : State), (s.reaches m true
    bstCmdAddr = true) ∧ (s.idleOrMaint = true) ∧ (s.flag Reg.BST_CTRL_EN = true) ∧ (s.fenced .bst = false) ∧ (s.rd Reg.BST_STAT_RUN =
    0) ∧ (([2, 3, 4, 5, 6, 7, 8].filter (fun c => bitAt rmask.toNat (c - 1) && s.rdBit Reg.SUP_RGN_CTRL_PWR (c - 1))) = c :: r) := ⟨1,
    0x44, 3, [7], (up.wr Reg.BST_CTRL_EN 1).wr Reg.SUP_RGN_CTRL_PWR 255, by decide +kernel⟩

theorem test_wit_ScrubbingAndTests_6 : ∃ (m : Master) (rmask : BitVec 8) (s : State), (s.reaches m true bstCmdAddr = true) ∧
    (s.idleOrMaint = true) ∧ (s.flag Reg.BST_CTRL_EN = true) ∧ (s.fenced .bst = false) ∧ (s.rd Reg.BST_STAT_RUN = 0) ∧ (([2, 3, 4, 5,
    6, 7, 8].filter (fun c => bitAt rmask.toNat (c - 1) && s.rdBit Reg.SUP_RGN_CTRL_PWR (c - 1))) = []) := ⟨1, 0, (up.wr
    Reg.BST_CTRL_EN 1), by decide +kernel⟩

theorem test_wit_ScrubbingAndTests_7 : ∃ (sig : Word) (r : Region) (s : State), (s.bst.lbCur = some (regionCode r)) ∧ (r ≠ .sup) ∧
    (s.bst.lbOn = true) ∧ (s.bst.abort = false) ∧ (s.bst.lbLeft = []) := ⟨7, .frm, (up.wr Reg.BST_CTRL_EN 1).setBst
    { up.bst with lbCur := some (regionCode .frm), lbOn := true }, by decide +kernel⟩

theorem test_wit_ScrubbingAndTests_8 : ∃ (sig : Word) (r : Region) (s : State), (s.bst.lbCur = some (regionCode r)) ∧ (r ≠ .sup) ∧
    (s.bst.lbOn = true) ∧ (s.bst.abort = false) ∧ (s.bst.lbLeft = []) := ⟨7, .frm, (up.wr Reg.BST_CTRL_EN 1).setBst
    { up.bst with lbCur := some (regionCode .frm), lbOn := true }, by decide +kernel⟩

theorem test_wit_ScrubbingAndTests_9 : ∃ (sig : Word) (good : Bool) (r : Region) (c : Nat) (rest : List Nat) (s : State), (s.bst.lbCur
    = some (regionCode r)) ∧ (r ≠ .sup) ∧ (s.bst.lbOn = true) ∧ (s.bst.abort = false) ∧ (s.bst.lbLeft = c :: rest) ∧ ((regionOf
    c).isSome = true) ∧ (c ≠ 1) := ⟨7, true, .frm, 7, [8], (up.wr Reg.BST_CTRL_EN 1).setBst
    { up.bst with lbCur := some (regionCode .frm), lbOn := true, lbLeft := [7, 8] }, by decide +kernel⟩

theorem test_wit_ScrubbingAndTests_10 : ∃ (sig : Word) (good : Bool) (r : Region) (s : State), (s.bst.lbCur = some (regionCode r)) ∧ (r
    ≠ .sup) ∧ (s.bst.lbOn = true) ∧ (s.bst.abort = true) := ⟨7, true, .frm, (up.wr Reg.BST_CTRL_EN 1).setBst
    { up.bst with lbCur := some (regionCode .frm), lbOn := true, abort := true }, by decide +kernel⟩

theorem test_wit_ScrubbingAndTests_11 : ∃ (m : Master) (amask : BitVec 16) (s : State), (s.reaches m true bstCmdAddr = true) ∧
    (s.idleOrMaint = true) ∧ (s.flag Reg.BST_CTRL_EN = true) ∧ (s.fenced .bst = false) ∧ (s.rd Reg.BST_STAT_RUN = 0) := ⟨1, 0x24,
    (up.wr Reg.BST_CTRL_EN 1), by decide +kernel⟩

theorem test_wit_ScrubbingAndTests_12 : ∃ (failed : List (Fin 11 × Word)) (s : State), (s.rd Reg.BST_STAT_RUN = 2) ∧ (s.bst.abort =
    false) ∧ (s.bst.arrays < 1024) := ⟨[(2, 0x20000004)], ((up.wr Reg.BST_CTRL_EN 1).wr Reg.BST_STAT_RUN 2).setBst
    { up.bst with arrays := 4 }, by decide +kernel⟩

theorem test_wit_ScrubbingAndTests_13 : ∃ (m : Master) (s : State), (s.reaches m true bstCmdAddr = true) ∧ (s.rd Reg.BST_STAT_RUN ≠ 0)
    := ⟨1, (up.wr Reg.BST_CTRL_EN 1).wr Reg.BST_STAT_RUN 2, by decide +kernel⟩

theorem test_wit_ScrubbingAndTests_14 : ∃ (a : Fin 11) (w : Nat) (last : Bool) (s : State), (s.tbQuiet a w = true) ∧ (s.upsetOf a w =
    0) := ⟨3, 9, true, (up.wr Reg.BST_CTRL_EN 1).wr Reg.BST_CTRL_TBEN 1, by decide +kernel⟩

theorem test_wit_ScrubbingAndTests_15 : ∃ (a : Fin 11) (w : Nat) (last : Bool) (s : State), (s.tbQuiet a w = true) ∧ (s.upsetOf a w =
    0) := ⟨3, 9, true, (up.wr Reg.BST_CTRL_EN 1).wr Reg.BST_CTRL_TBEN 1, by decide +kernel⟩

theorem test_wit_AgeingAndPower_1 : ∃ (core sup : BitVec 16) (s : State), (s.works .pat = true) ∧ (s.flag Reg.PAT_CTRL_PLANV = true) ∧
    (s.flag Reg.PWR_STAT_BUSY = false) ∧ (s.flag Reg.PWR_CFG_EN = true) ∧ (s.flag Reg.PAT_STAT_PLANSTOP = false) ∧ (((5 * s.rd
    Reg.PAT_SCFG_SLKCRIT : Nat) : Int) ≤ (min (signed 16 core.toNat) (signed 16 sup.toNat))) ∧ ((min (signed 16 core.toNat) (signed 16
    sup.toNat)) < ((5 * s.rd Reg.PAT_SCFG_SLKLO : Nat) : Int)) ∧ (s.rd Reg.PWR_VSET_VSET ≤ s.rd Reg.PAT_VCFG_VMAXSET) := ⟨60, 70,
    (((((on .pat up).wr Reg.PAT_CTRL_PLANV 1).wr Reg.PWR_CFG_EN 1).wr Reg.PWR_VSET_VSET 800).wr Reg.PAT_VCFG_VMAXSET 900).wr
    Reg.PAT_SCFG_SLKLO 100 |>.wr Reg.PAT_SCFG_SLKCRIT 1, by decide +kernel⟩

theorem test_wit_AgeingAndPower_2 : ∃ (core sup : BitVec 16) (s : State), (s.works .pat = true) ∧ (s.flag Reg.PAT_CTRL_PLANV = true) ∧
    (s.flag Reg.PWR_STAT_BUSY = false) ∧ (s.flag Reg.PWR_CFG_EN = true) ∧ (s.flag Reg.PAT_STAT_PLANSTOP = false) ∧ ((min (signed 16
    core.toNat) (signed 16 sup.toNat)) < ((5 * s.rd Reg.PAT_SCFG_SLKCRIT : Nat) : Int)) ∧ (((5 * s.rd Reg.PAT_SCFG_SLKCRIT : Nat) :
    Int) ≤ ((5 * s.rd Reg.PAT_SCFG_SLKLO : Nat) : Int)) ∧ (((5 * s.rd Reg.PAT_SCFG_SLKLO : Nat) : Int) ≤ ((5 * s.rd Reg.PAT_SCFG_SLKHI
    : Nat) : Int)) ∧ (s.rd Reg.PWR_VSET_VSET ≤ s.rd Reg.PAT_VCFG_VMAXSET) := ⟨0, 0, (((((on .pat up).wr Reg.PAT_CTRL_PLANV 1).wr
    Reg.PWR_CFG_EN 1).wr Reg.PWR_VSET_VSET 800).wr Reg.PAT_VCFG_VMAXSET 900).wr Reg.PAT_SCFG_SLKCRIT 10 |>.wr Reg.PAT_SCFG_SLKLO 20
    |>.wr Reg.PAT_SCFG_SLKHI 30, by decide +kernel⟩

theorem test_wit_AgeingAndPower_3 : ∃ (core sup : BitVec 16) (s : State), (s.works .pat = true) ∧ (s.flag Reg.PAT_CTRL_PLANV = true) ∧
    (s.flag Reg.PWR_STAT_BUSY = false) ∧ (((5 * s.rd Reg.PAT_SCFG_SLKCRIT : Nat) : Int) ≤ (min (signed 16 core.toNat) (signed 16
    sup.toNat))) ∧ (((5 * s.rd Reg.PAT_SCFG_SLKLO : Nat) : Int) ≤ (min (signed 16 core.toNat) (signed 16 sup.toNat))) ∧ ((min (signed
    16 core.toNat) (signed 16 sup.toNat)) ≤ ((5 * s.rd Reg.PAT_SCFG_SLKHI : Nat) : Int)) := ⟨200, 200, (((((on .pat up).wr
    Reg.PAT_CTRL_PLANV 1).wr Reg.PWR_CFG_EN 1).wr Reg.PWR_VSET_VSET 800).wr Reg.PAT_VCFG_VMAXSET 900).wr Reg.PAT_SCFG_SLKCRIT 10 |>.wr
    Reg.PAT_SCFG_SLKLO 20 |>.wr Reg.PAT_SCFG_SLKHI 60, by decide +kernel⟩

theorem test_wit_AgeingAndPower_4 : ∃ (core sup : BitVec 16) (s : State), (s.works .pat = true) := ⟨8, 8, (on .pat up), by
    decide +kernel⟩

theorem test_wit_AgeingAndPower_5 : ∃ (s : State), (s.works .pat = true) ∧ (s.flag Reg.PAT_CTRL_PLANCLK = true) ∧ (s.timerOn tmSupLow =
    true) ∧ (s.rd Reg.PAT_STAT_SUPSTEP < 2) := ⟨((on .pat up).wr Reg.PAT_CTRL_PLANCLK 1).startTimer tmSupLow, by decide +kernel⟩

theorem test_wit_AgeingAndPower_6 : ∃ (m : Master) (s : State), (s.reaches m true 0x40080000 = true) ∧ (s.idleOrMaint = true) := ⟨1,
    up.wr Reg.PAT_STAT_SUPSTEP 2, by decide +kernel⟩

theorem test_wit_AgeingAndPower_7 : ∃ (m : Master) (s : State), (s.reaches m true 0x40080000 = true) := ⟨1, on .mir up, by
    decide +kernel⟩

theorem test_wit_AgeingAndPower_8 : ∃ (mv : BitVec 16) (s : State), (s.works .pat = true) ∧ (24 ≤ s.bst.sramAge) := ⟨800, (on .pat
    up).setBst { up.bst with sramAge := 24 }, by decide +kernel⟩

theorem test_wit_AgeingAndPower_9 : ∃ (h v : Byte) (l : Nat) (s : State), (s.works .pat = true) ∧ (s.nextLane 44 s.bst.lane = some l)
    := ⟨1, 2, 40, on .mir (on .pat up), by decide +kernel⟩

theorem test_wit_AgeingAndPower_10 : ∃ (d : BitVec 16) (s : State), (s.works .pat = true) := ⟨0xFF00, (on .pat up), by decide +kernel⟩

theorem test_wit_AgeingAndPower_11 : ∃ (d : BitVec 16) (s : State), (s.works .pat = true) := ⟨0xF000, (on .pat up), by decide +kernel⟩

theorem test_wit_AgeingAndPower_12 : ∃ (s : State), (s.works .pat = true) ∧ (s.rd Reg.PAT_LOGCFG_LOGPER ≤ s.bst.logAge) ∧ (1 ≤
    s.bst.logAge) ∧ (s.rd Reg.PAT_LOGCFG_LOGWR < 16) := ⟨(on .pat up).setBst { up.bst with logAge := 9000 }, by decide +kernel⟩

theorem test_wit_AgeingAndPower_13 : ∃ (s : State), (s.works .pat = true) := ⟨(on .pat up), by decide +kernel⟩

theorem test_wit_AgeingAndPower_14 : ∃ (m : Master) (pagen : Bool) (page : Byte) (addr : BitVec 7) (mode : BitVec 5) (vout : BitVec 16)
    (s : State), (s.reaches m true 0x400A0000 = true) ∧ (s.idleOrMaint = true) ∧ (s.flag Reg.PWR_CFG_EN = false) := ⟨1, true, 1, 0x40,
    0x14, 3277, up, by decide +kernel⟩

theorem test_wit_AgeingAndPower_15 : ∃ (vout : BitVec 16) (s : State), (s.regionOn .sup = true) ∧ (s.flag Reg.PWR_CFG_EN = true) ∧
    (s.timerOn tmPmb = true) ∧ ((s.voutFine vout.toNat - (s.rd Reg.PWR_VSET_VSET : Int) * 65536).natAbs ≤ 655360) := ⟨3277, (((((((on
    .pat up).wr Reg.PAT_CTRL_PLANV 1).wr Reg.PWR_CFG_EN 1).wr Reg.PWR_VSET_VSET 800).wr Reg.PAT_VCFG_VMAXSET 900).setBst
    { up.bst with vexp := 0x14 }).startTimer tmPmb), by decide +kernel⟩

theorem test_wit_AgeingAndPower_16 : ∃ (vout : BitVec 16) (s : State), (s.regionOn .sup = true) ∧ (s.flag Reg.PWR_CFG_EN = true) ∧
    (s.timerOn tmPmb = true) ∧ (655360 < (s.voutFine vout.toNat - (s.rd Reg.PWR_VSET_VSET : Int) * 65536).natAbs) ∧ (3 ≤ s.bst.tries)
    := ⟨4000, (((((((on .pat up).wr Reg.PAT_CTRL_PLANV 1).wr Reg.PWR_CFG_EN 1).wr Reg.PWR_VSET_VSET 800).wr Reg.PAT_VCFG_VMAXSET
    900).setBst { up.bst with vexp := 0x14, tries := 3 }).startTimer tmPmb), by decide +kernel⟩

theorem test_wit_AgeingAndPower_17 : ∃ (status : BitVec 16) (s : State), (s.regionOn .sup = true) ∧ (s.flag Reg.PWR_CFG_EN = true) :=
    ⟨7, (((((on .pat up).wr Reg.PAT_CTRL_PLANV 1).wr Reg.PWR_CFG_EN 1).wr Reg.PWR_VSET_VSET 800).wr Reg.PAT_VCFG_VMAXSET 900), by
    decide +kernel⟩

theorem test_wit_AgeingAndPower_18 : ∃ (tj : BitVec 16) (s : State), (s.regionOn .sup = true) := ⟨0x7FF, up, by decide +kernel⟩

theorem test_wit_AgeingAndPower_19 : ∃ (level : Bool) (s : State), (s.regionOn .sup = true) ∧ (s.flag Reg.PWR_ENV_CEN = true) := ⟨true,
    up.wr Reg.PWR_ENV_CEN 1, by decide +kernel⟩

theorem test_wit_FrameStartAndLoad_1 : ∃ (x : FrameIn) (s : State), (s.flag (Reg.PTP_TRGCFG_EN 0) = true) ∧ (s.regionOn .net = true) ∧
    (10000 ≤ s.frameNs ∧ s.frameNs ≤ 200000) ∧ (s.widths [Reg.PTP_TRGCFG_PERIOD 0, Reg.PTP_TRGNEXT_NEXT 0] = true) := ⟨⟨0, some 5⟩,
    ((on .net up).wr (Reg.PTP_TRGCFG_EN 0) 1).wr (Reg.PTP_TRGCFG_PERIOD 0) 25000 |>.wr (Reg.PTP_TRGNEXT_NEXT 0) 50000, by
    decide +kernel⟩

theorem test_wit_FrameStartAndLoad_2 : ∃ (x : FrameIn) (c : Fin 64) (s : State), (s.flag (Reg.PTP_TRGCFG_EN 0) = true) ∧ (s.regionOn
    .net = true) ∧ (s.unreadable 6 (fun w => decide (4096 ≤ w)) = false) ∧ (s.mqt.staged = none) := ⟨⟨0, none⟩, 5, (((on .net up).wr
    (Reg.PTP_TRGCFG_EN 0) 1).wr (Reg.ACQ_CHVAL_VALID 5) 1).wr (Reg.ACQ_CHVAL_DATA 5) 0x1234, by decide +kernel⟩

theorem test_wit_FrameStartAndLoad_3 : ∃ (x : FrameIn) (r : Nat) (s : State), (s.flag (Reg.PTP_TRGCFG_EN 0) = true) ∧ (s.regionOn .net
    = true) ∧ (s.mode = mIdle) ∧ (s.paired = true) ∧ (s.mir.holds = false) ∧ (s.ctl.shadowDue = true) ∧ (s.ctl.req = some r) ∧ (r % 16
    = mPrecharge) ∧ (s.ctl.lock = none) ∧ (s.rd Reg.BST_STAT_RUN = 0) ∧ (s.mqt.staged = none) := ⟨⟨0, none⟩, 3, (((((on .net (on .mir
    up)).wr Reg.MIR_CFG_PAIR 1).wr (Reg.PTP_TRGCFG_EN 0) 1).set1 Reg.SUP_MODESTAT_PEND).setCtl
    { up.ctl with req := some 3, shadowDue := true }), by decide +kernel⟩

theorem test_wit_FrameStartAndLoad_4 : ∃ (fb : Bool) (s : State), (s.loaderUp = true) ∧ (s.mqt.ready = none) ∧ (s.mqt.failed = false) ∧
    (s.bootSrc = 0 ∨ s.bootSrc = 1 ∨ s.bootSrc = 4) ∧ ((s.fullFail (s.imageAt (placeAddr 0) (imgLimit 0)) 0) = none) := ⟨true, flashed,
    by exact ⟨by decide, by decide, by decide, by decide, test_image_full⟩⟩

theorem test_wit_FrameStartAndLoad_5 : ∃ (ok fb : Bool) (f : ImgFail) (s : State), (s.loaderUp = true) ∧ (s.mqt.ready = none) ∧
    (s.mqt.failed = false) ∧ (s.bootSrc = 1 ∨ s.bootSrc = 4) ∧ (ok = true) ∧ ((s.fullFail (s.imageAt (placeAddr 0) (imgLimit 0)) 0) =
    some f) := ⟨true, true, ⟨2, 0, 0⟩, State.reset.setCtl { State.reset.ctl with bootPins := 1 }, by decide +kernel⟩

theorem test_wit_FrameStartAndLoad_6 : ∃ (fb : Bool) (s : State), (s.loaderUp = true) ∧ (s.mqt.ready = none) ∧ (s.mqt.failed = false) ∧
    (s.bootSrc = 1 ∨ s.bootSrc = 4) := ⟨true, State.reset.setCtl { State.reset.ctl with bootPins := 1 }, by decide +kernel⟩

end Sys2Proof.Tests
end

section
/-! SUPPORT. How a reset, the passing of time, a stop of the link ports and a grant act on the registers, and what a command gives. -/

namespace Sys2Proof.Machine

/-! ## Keeping some entries of a sparse store -/

theorem spFind_filter_kept {α : Type} (m : Sparse α) (p : Nat × α → Bool) {k : Nat} (h : ∀ v, p (k, v) = true) :
    spFind (m.filter p) k = spFind m k := by
  induction m with
  | nil => rfl
  | cons e r ih =>
    obtain ⟨j, v⟩ := e
    by_cases hj : j = k
    · subst hj; simp [h, spFind]
    · rw [List.filter_cons]; split <;> simp [spFind, hj, ih]

theorem spFind_filter_dropped {α : Type} (m : Sparse α) (p : Nat × α → Bool) {k : Nat} (h : ∀ v, p (k, v) = false) :
    spFind (m.filter p) k = none := by
  induction m with
  | nil => rfl
  | cons e r ih =>
    obtain ⟨j, v⟩ := e
    by_cases hj : j = k
    · subst hj; simpa [List.filter_cons, h] using ih
    · rw [List.filter_cons]; split <;> simp [spFind, hj, ih]

/-! ## The registers over a CHIP reset (R16) -/

/-- The reset domain of a field's register. -/
def domOf (f : Fld) : Option Dom := (cardAt (f.key / 32)).map Card.dom

/-- A field of the POR domain keeps its value over the CHIP reset. -/
theorem State.rd_chipReset_por (s : State) {f : Fld} (h : domOf f = some .por) : s.chipReset.rd f = s.rd f := by
  obtain ⟨c, hc, hd⟩ := Option.map_eq_some_iff.mp h
  show s.regsOfChip.rd f = s.rd f
  simp only [State.rd, State.regsOfChip, State.setRegs_regs, spGet]
  rw [spFind_filter_kept _ _ (by simp [hc, hd])]

/-- A field of any other domain takes its reset value. -/
theorem State.rd_chipReset_other (s : State) {f : Fld} {d : Dom} (h : domOf f = some d) (hd : d ≠ .por) :
    s.chipReset.rd f = f.rst % 2 ^ f.wid := by
  obtain ⟨c, hc, rfl⟩ := Option.map_eq_some_iff.mp h
  show s.regsOfChip.rd f = _
  simp only [State.rd, State.regsOfChip, State.setRegs_regs, spGet]
  rw [spFind_filter_dropped _ _ (by simp [hc, hd])]
  rfl

/-! ## Powering NET (R49) -/

/-- Clearing VALID of the unbound channels leaves what clearing VALID of one channel leaves. -/
theorem State.svUnbound_keeps {α : Type} (g : State → α)
    (hg : ∀ (t : State) (i : Nat), i < 32 → g (t.set0 (Reg.ACQ_CHVAL_VALID (32 + i))) = g t) (s : State) : g s.svUnbound = g s := by
  refine List.foldlRecOn (motive := fun t => g t = g s) _ _ rfl (fun t ht i hi => ?_)
  split
  · exact ht
  · exact (hg t i (List.mem_range.mp hi)).trans ht

/-- It leaves every register outside the block window of ACQ_. -/
theorem State.rd_svUnbound (s : State) {f : Fld} (h : f.key / 32 / 0x10000 ≠ 0x4200) : s.svUnbound.rd f = s.rd f := by
  refine State.svUnbound_keeps (fun t => t.rd f) (fun t i hi => State.rd_set0_ne t fun he => ?_) s
  rw [he] at h
  simp only [Fld.key, Reg.ACQ_CHVAL_VALID] at h
  omega

theorem State.svUnbound_ctl (s : State) : s.svUnbound.ctl = s.ctl := State.svUnbound_keeps State.ctl (fun _ _ _ => rfl) s

theorem State.rd_regsOfRegion (s : State) {r : Region} {f : Fld} (h : domRegion (f.key / 32) ≠ some r) :
    (s.regsOfRegion r).rd f = s.rd f := by
  simp only [State.rd, State.regsOfRegion, State.setRegs_regs, spGet]
  rw [spFind_filter_kept _ _ (by simpa using h)]

/-- The PCIe link and the mirror link are down. -/
def State.netLinksDown (s : State) : Prop := s.rd Reg.NET_PCIE_LINKUP = 0 ∧ s.rd Reg.MIR_STAT_LANES = 0

/-- With its links down, no link ends with NET. -/
theorem State.linksLost_of_down {s : State} (h : s.netLinksDown) : s.linksLost = s := by
  simp [State.linksLost, State.flag, h.1, h.2]

/-- The power bits of the regions do not show in the links of NET. -/
theorem State.netLinksDown_wr_pwr {s : State} (h : s.netLinksDown) (v : Nat) : (s.wr Reg.SUP_RGN_CTRL_PWR v).netLinksDown :=
  ⟨(State.rd_wr_ne _ _ (by decide)).trans h.1, (State.rd_wr_ne _ _ (by decide)).trans h.2⟩

/-- A reset of NET with its links down leaves every field of another region outside the block window of ACQ_. -/
theorem State.rd_resetRegion_net {s : State} (h : s.netLinksDown) {f : Fld} (hr : domRegion (f.key / 32) ≠ some .net)
    (hw : f.key / 32 / 0x10000 ≠ 0x4200) : (s.resetRegion .net).rd f = s.rd f := by
  simp only [State.resetRegion, State.innerReset, if_true, State.linksLost_of_down h]
  rw [State.rd_svUnbound _ hw]
  simp [State.rd_regsOfRegion _ hr]

theorem State.resetRegion_net_ctl {s : State} (h : s.netLinksDown) : (s.resetRegion .net).ctl = s.ctl := by
  simp [State.resetRegion, State.innerReset, State.linksLost_of_down h, State.svUnbound_ctl, State.regsOfRegion]

/-- The fields that powering NET leaves: those of other regions, but for the power bits, the region states and the latest values of ACQ_. -/
def outsideNet (f : Fld) : Bool :=
  domRegion (f.key / 32) != some .net && f.key / 32 / 0x10000 != 0x4200 && f.key != Reg.SUP_RGN_CTRL_PWR.key
    && f.key != Reg.SUP_RGN_STAT_ON.key && f.key != Reg.SUP_RGN_STAT_ISO.key

/-- Powering NET with its links down leaves the fields that `outsideNet` names. -/
theorem State.rd_powerUp_net {s : State} (h : s.netLinksDown) {f : Fld} (hf : outsideNet f = true) : (s.powerUp .net).rd f = s.rd f := by
  simp only [outsideNet, Bool.and_eq_true, bne_iff_ne] at hf
  obtain ⟨⟨⟨⟨hr, hw⟩, hpwr⟩, hon⟩, hiso⟩ := hf
  rw [State.powerUp, State.setOn, State.wrBit, State.rd_wr_ne _ _ hiso, State.wrBit, State.rd_wr_ne _ _ hon, State.wrBit,
    State.rd_resetRegion_net (State.netLinksDown_wr_pwr h _) hr hw, State.rd_wr_ne _ _ hpwr]

theorem State.powerUp_net_ctl {s : State} (h : s.netLinksDown) : (s.powerUp .net).ctl = s.ctl := by
  rw [State.powerUp, State.setOn, State.wrBit, State.wr_ctl, State.wrBit, State.wr_ctl, State.wrBit,
    State.resetRegion_net_ctl (State.netLinksDown_wr_pwr h _), State.wr_ctl]

/-- ON of the regions after NET is powered: the bit of NET, and the others as they were. -/
theorem State.rd_on_powerUp_net {s : State} (h : s.netLinksDown) :
    (s.powerUp .net).rd Reg.SUP_RGN_STAT_ON = putBit (s.rd Reg.SUP_RGN_STAT_ON) 1 true % 2 ^ 8 := by
  rw [State.powerUp, State.setOn, State.wrBit, State.rd_wr_ne _ _ (by decide), State.wrBit, State.rd_wr_same, State.wrBit,
    State.rd_resetRegion_net (State.netLinksDown_wr_pwr h _) (by decide) (by decide), State.rd_wr_ne _ _ (by decide)]
  rfl

/-! ## The release of the CHIP reset (R433) -/

/-- The state that a release samples the boot pins into. -/
def State.sampled (s : State) (boot : Nat) : State := s.chipReset.setCtl { s.chipReset.ctl with bootPins := boot }

/-- A release samples the boot pins, and for the PCIe sources powers NET (R403). -/
theorem State.release_cases (s : State) (boot : Nat) :
    s.release boot = s.sampled boot ∨ s.release boot = (s.sampled boot).powerUp .net := by
  have heq : s.release boot = if (s.sampled boot).bootSrc = 2 ∨ (s.sampled boot).bootSrc = 4 then (s.sampled boot).powerUp .net
      else s.sampled boot := rfl
  rw [heq]
  split
  · exact .inr rfl
  · exact .inl rfl

theorem State.rd_sampled (s : State) (boot : Nat) (f : Fld) : (s.sampled boot).rd f = s.chipReset.rd f := rfl

/-- The CHIP reset leaves the links of NET down. -/
theorem State.sampled_linksDown (s : State) (boot : Nat) : (s.sampled boot).netLinksDown :=
  ⟨s.rd_chipReset_other (d := .net) (by decide) (by decide), s.rd_chipReset_other (d := .net) (by decide) (by decide)⟩

/-- A release leaves the fields of the regions but NET as the CHIP reset left them. -/
theorem State.rd_release (s : State) (boot : Nat) {f : Fld} (h : outsideNet f = true) : (s.release boot).rd f = s.chipReset.rd f := by
  rcases s.release_cases boot with hb | hb
  · rw [hb, State.rd_sampled]
  · rw [hb, State.rd_powerUp_net (s.sampled_linksDown boot) h, State.rd_sampled]

theorem State.release_ctl (s : State) (boot : Nat) : (s.release boot).ctl = { s.chipReset.ctl with bootPins := boot } := by
  rcases s.release_cases boot with hb | hb
  · rw [hb]; rfl
  · rw [hb, State.powerUp_net_ctl (s.sampled_linksDown boot)]; rfl

theorem State.mem_of_store {s t : State} (h : s.store = t.store) : s.mem = t.mem := congrArg Prod.fst h

/-- The memories keep their contents over a release (R16). -/
theorem State.release_mem (s : State) (boot : Nat) : (s.release boot).mem = s.mem := by
  rcases s.release_cases boot with hb | hb
  · rw [hb]; rfl
  · rw [hb, State.mem_of_store ((s.sampled boot).powerUp_store .net)]; rfl

/-- A release begins BOOT. -/
theorem State.release_mode (s : State) (boot : Nat) : (s.release boot).mode = mBoot := by
  rw [State.mode, s.rd_release boot (by decide), s.rd_chipReset_other (d := .chip) (by decide) (by decide)]
  rfl

/-- After a release SUP is on. -/
theorem State.release_sup_on (s : State) (boot : Nat) : (s.release boot).regionOn .sup = true := by
  have hreset : s.chipReset.rd Reg.SUP_RGN_STAT_ON = 1 := s.rd_chipReset_other (d := .chip) (by decide) (by decide)
  rcases s.release_cases boot with hb | hb
  · rw [hb, State.regionOn, State.rdBit, State.rd_sampled, hreset]; rfl
  · rw [hb, State.regionOn, State.rdBit, State.rd_on_powerUp_net (s.sampled_linksDown boot),
      State.rd_sampled, hreset]
    decide

/-- The cause of the entry to BOOT, in the POR domain, stands over the CHIP reset. -/
theorem State.rd_cause_chipReset (s : State) {c : Nat} (hc : c < 16) : (s.bootCause c).chipReset.rd Reg.WAK_STAT_CAUSE = c := by
  rw [State.rd_chipReset_por _ (by decide), State.bootCause, State.rd_wr_same]
  exact Nat.mod_eq_of_lt hc

/-! ## Time that passes (R344) -/

/-- The passing of time leaves every register but the wrap of device time and the count of its wraps. -/
theorem State.rd_elapse (s : State) (n : Nat) {f : Fld} (hw : f.key ≠ Reg.PTP_ALRM_WRAP.key) (ht : f.key ≠ Reg.CST_TSHI_TSHI.key) :
    (s.elapse n).rd f = s.rd f := by
  simp only [State.elapse]
  split
  · split
    · rfl
    · rw [State.addWrap, State.rd_wr_ne _ _ ht, State.rd_set1_ne _ hw]; rfl
  · rfl

theorem State.elapse_ctl (s : State) (n : Nat) : (s.elapse n).ctl = s.ctl := by
  simp only [State.elapse]
  split
  · split <;> rfl
  · rfl

theorem State.rd_expire (s : State) (k d : Nat) {f : Fld} (hw : f.key ≠ Reg.PTP_ALRM_WRAP.key) (ht : f.key ≠ Reg.CST_TSHI_TSHI.key) :
    (s.expire k d).rd f = s.rd f := by
  unfold State.expire
  split
  · rw [State.stopTimer, State.rd_setClk, State.elapseTo]
    split
    · exact s.rd_elapse _ hw ht
    · rfl
  · rfl

theorem State.expire_ctl (s : State) (k d : Nat) : (s.expire k d).ctl = s.ctl := by
  unfold State.expire
  split
  · rw [State.stopTimer, State.setClk_ctl, State.elapseTo]
    split
    · exact s.elapse_ctl _
    · rfl
  · rfl

/-! ## The WAKE pin (R435) -/

/-- The level of the WAKE pin is taken in, and WLIVE shows whether it is the active one. -/
def State.wakeSeen (s : State) (level : Bool) : State :=
  (s.setCtl { s.ctl with wakePin := level }).wr Reg.WAK_STAT_WLIVE (if level != s.flag Reg.WAK_CTRL_WPOL then 1 else 0)

/-- The 10 ms after PWR_EN fell have passed. -/
def State.wakeWaited (s : State) : State := if s.timerAge tmOff < ticksMs 10 then s.expire tmOff (ticksMs 10) else s.stopTimer tmOff

/-- WAKE takes the level in; an active one in HIBERNATE drives PWR_EN high once the 10 ms have passed. -/
theorem execWake_eq (level : Bool) (s : State) :
    execWake level s = done (if ((level != s.flag Reg.WAK_CTRL_WPOL) && (s.wakeSeen level).mode = mHibernate
        && !(s.wakeSeen level).ctl.pwrEn) = false then s.wakeSeen level
      else ((s.wakeSeen level).wakeWaited.setCtl { (s.wakeSeen level).wakeWaited.ctl with pwrEn := true }).bootCause 1) := rfl

theorem State.wakeSeen_mode (s : State) (level : Bool) : (s.wakeSeen level).mode = s.mode := State.rd_wr_ne _ _ (by decide)

theorem State.wakeWaited_ctl (s : State) : s.wakeWaited.ctl = s.ctl := by
  unfold State.wakeWaited
  split
  · exact s.expire_ctl _ _
  · rfl

theorem State.rd_wakeWaited (s : State) {f : Fld} (hw : f.key ≠ Reg.PTP_ALRM_WRAP.key) (ht : f.key ≠ Reg.CST_TSHI_TSHI.key) :
    s.wakeWaited.rd f = s.rd f := by
  unfold State.wakeWaited
  split
  · exact s.rd_expire _ _ hw ht
  · rfl

/-! ## Stopping the link ports (R241) -/

theorem blockBase_lnk (n : Fin 32) : blockBase (.lnk n) = 0x45000000 + n.val / 16 * 0x1000000 + n.val % 16 * 0x10000 := by
  have : n.val < 32 := n.isLt
  simp only [blockBase, blockRegion, blockIndex, regionBit]
  split
  · simp only [regionCode]; omega
  · simp only [regionCode]; omega

/-- EN of a link port has another key than STATE of any port. -/
theorem lnkEn_key_ne_state (p q : Nat) : (blockEn (lnkBlock p)).key ≠ (blockState (lnkBlock q)).key := by
  simp only [blockEn, blockState, Fld.key, lnkBlock, blockBase_lnk]
  omega

/-- EN of a link port has another key than LSTATE of any port. -/
theorem lnkEn_key_ne_lstate (p q : Nat) : (blockEn (lnkBlock p)).key ≠ (Reg.LNK_STAT_LSTATE q).key := by
  simp only [blockEn, Reg.LNK_STAT_LSTATE, lnkBase, Fld.key, lnkBlock, blockBase_lnk]
  omega

/-- EN of one port has another key than EN of another. -/
theorem lnkEn_key_ne {p q : Nat} (h : lnkBlock p ≠ lnkBlock q) : (blockEn (lnkBlock p)).key ≠ (blockEn (lnkBlock q)).key := by
  have hne : (Fin.ofNat 32 p).val ≠ (Fin.ofNat 32 q).val := fun he => h (congrArg Block.lnk (Fin.ext he))
  simp only [blockEn, Fld.key, lnkBlock, blockBase_lnk]
  omega

/-- Clearing EN of one port leaves a cleared EN cleared. -/
theorem State.rd_lnkEn_wr_zero (s : State) (p q : Nat) (h : s.rd (blockEn (lnkBlock p)) = 0) :
    (s.wr (blockEn (lnkBlock q)) 0).rd (blockEn (lnkBlock p)) = 0 := by
  by_cases hpq : lnkBlock p = lnkBlock q
  · rw [hpq, State.rd_wr_same, Nat.zero_mod]
  · rw [State.rd_wr_ne _ _ (lnkEn_key_ne hpq), h]

/-- A port that is stopped was already disabled, or its EN is cleared and only LSTATE and STATE change beside it. -/
theorem State.rd_lnkEn_lnkStop (s : State) (p q : Nat) :
    (s.lnkStop q).rd (blockEn (lnkBlock p))
      = if s.rd (blockEn (lnkBlock q)) = 0 then s.rd (blockEn (lnkBlock p))
        else (s.wr (blockEn (lnkBlock q)) 0).rd (blockEn (lnkBlock p)) := by
  simp only [State.lnkStop]
  split
  · rfl
  · split
    · rw [State.rd_wr_ne _ _ (lnkEn_key_ne_state p q), State.rd_wr_ne _ _ (lnkEn_key_ne_lstate p q)]
    · rw [State.rd_wr_ne _ _ (lnkEn_key_ne_lstate p q)]

/-- EN of a port that is stopped reads 0. -/
theorem State.lnkStop_clears (s : State) (p : Nat) : (s.lnkStop p).rd (blockEn (lnkBlock p)) = 0 := by
  rw [State.rd_lnkEn_lnkStop]
  split
  · assumption
  · rw [State.rd_wr_same, Nat.zero_mod]

/-- Stopping a port enables none. -/
theorem State.lnkStop_keeps_cleared (s : State) (p q : Nat) (h : s.rd (blockEn (lnkBlock p)) = 0) :
    (s.lnkStop q).rd (blockEn (lnkBlock p)) = 0 := by
  rw [State.rd_lnkEn_lnkStop]
  split
  · exact h
  · exact s.rd_lnkEn_wr_zero p q h

/-- After a list of ports is stopped, EN of each of them reads 0. -/
theorem State.foldl_lnkStop_clears (l : List Nat) (s : State) (p : Nat) (h : p ∈ l ∨ s.rd (blockEn (lnkBlock p)) = 0) :
    (l.foldl State.lnkStop s).rd (blockEn (lnkBlock p)) = 0 := by
  induction l generalizing s with
  | nil => exact h.resolve_left List.not_mem_nil
  | cons q l ih =>
    refine ih (s.lnkStop q) ?_
    rcases h with h | h
    · rcases List.mem_cons.mp h with rfl | h
      · exact .inr (s.lnkStop_clears p)
      · exact .inl h
    · exact .inr (s.lnkStop_keeps_cleared p q h)

/-! ## An access that is granted (R22) -/

/-- The grants of an access move the pointers of the interconnect and nothing else. -/
theorem State.granted_eq (s : State) (m a : Nat) : ∃ x, s.granted m a = s.setSup { s.sup with rr := x } := by
  unfold State.granted
  split
  · exact ⟨s.sup.rr, rfl⟩
  · exact ⟨_, rfl⟩

theorem State.rd_granted (s : State) (m a : Nat) (f : Fld) : (s.granted m a).rd f = s.rd f := by
  obtain ⟨x, h⟩ := s.granted_eq m a
  rw [h, State.rd_setSup]

theorem State.granted_mem (s : State) (m a : Nat) : (s.granted m a).mem = s.mem := State.mem_of_store (s.granted_store m a)

end Sys2Proof.Machine

namespace Sys2Proof
open Machine

/-- A command that ends in `done u` gives what holds of `u` once the interrupt tree has settled. -/
theorem gives_of_done {c : Instr} {s : State} {P : State → Prop} (u : State) (h : exec c s = done u) (hp : P u.msiSend) : gives c s P :=
  ⟨u.msiSend, h, hp⟩

/-- A command given by an access that reaches its address acts in the state that the grant leaves. -/
theorem gives_of_gate {c : Instr} {s : State} {P : State → Prop} {m : Master} {write : Bool} {a : Nat} {k : State → State}
    (hr : s.reaches m write a = true) (h : exec c s = done (s.gate m write a k))
    (hp : P (k ((s.granted m a).answer m 0)).msiSend) : gives c s P :=
  gives_of_done _ (h.trans (congrArg done (s.gate_reaches m write a k hr))) hp

theorem msiSend_mode (s : State) : s.msiSend.mode = s.mode := s.rd_msiSend _

end Sys2Proof
end

section
/-! SUPPORT. The state after reset (O5). -/

namespace Sys2Proof.Machine

/-- After reset no field is listed, so that each reads its reset value. -/
theorem State.rd_reset (f : Fld) : State.reset.rd f = f.rst % 2 ^ f.wid := rfl

/-- After reset no byte is listed. -/
theorem State.memByte_reset (a : Nat) : State.reset.memByte a = 0 := rfl

end Sys2Proof.Machine

open Sys2Proof Sys2Proof.Machine

/-- Settles O5: every store of the reset state is empty, and LSTATE of every port resets to DOWN. -/
theorem resetState : Obligations.ResetState := by
  unfold Obligations.ResetState
  exact ⟨State.rd_reset, rfl, rfl, State.memByte_reset, rfl, rfl, fun n => State.rd_reset (Reg.LNK_STAT_LSTATE n), rfl⟩
end

section
/-! SUPPORT. Resets, hibernation and wake (O14): what each command leads to. -/

namespace Sys2Proof
open Machine

/-- CHIP_RESET with its key (R437). -/
theorem chipReset_leads_to_boot (m : Master) (boot : Fin 8) (s : State) (h : s.reaches m true 0x40000320 = true) :
    gives (.chipReset m 0xA55A boot) s (fun t => t.mode = mBoot ∧ t.rd Reg.WAK_STAT_CAUSE = 3 ∧ t.ctl.bootPins = boot
      ∧ t.regionOn .sup = true ∧ Part.mem.same s t) := by
  refine gives_of_gate h rfl ?_
  generalize hu : (s.granted m 0x40000320).answer m 0 = u
  have hmem : u.mem = s.mem := by rw [← hu]; exact s.granted_mem m _
  rw [if_pos (by decide)]
  refine ⟨?_, ?_, ?_, ?_, fun a => ?_⟩
  · rw [msiSend_mode, State.release_mode]
  · rw [State.rd_msiSend, State.rd_release _ _ (by decide), State.rd_cause_chipReset _ (by decide)]
  · rw [State.msiSend_ctl, State.release_ctl]
  · rw [State.regionOn, State.rdBit, State.rd_msiSend]; exact State.release_sup_on _ _
  · rw [State.memByte, State.msiSend_mem, State.release_mem, State.bootCause, State.wr_mem, hmem]; rfl

/-- The fall of RST_N (R433). -/
theorem rstNLow_leads_to_boot (boot : Fin 8) (s : State) (hlow : s.ctl.rstLow = false) (hout : s.outOfReset = true) :
    gives (.rstNLow true boot) s (fun t => t.mode = mBoot ∧ t.ctl.rstLow = true ∧ t.rd Reg.WAK_STAT_CAUSE = 2) := by
  have hpwr : s.ctl.pwrEn = true := by
    simp only [State.outOfReset, Bool.and_eq_true] at hout
    obtain ⟨⟨hpwr, -⟩, -⟩ := hout
    exact hpwr
  have hexec : exec (.rstNLow true boot) s
      = done ((s.bootCause 2).chipReset.setCtl { (s.bootCause 2).chipReset.ctl with rstLow := true }) := by
    show execRstNLow true boot s = _
    simp [execRstNLow, hlow, hpwr, hout]
  refine gives_of_done _ hexec ⟨?_, ?_, ?_⟩
  · rw [msiSend_mode, State.mode, State.rd_setCtl, State.rd_chipReset_other _ (d := .chip) (by decide) (by decide)]; rfl
  · rw [State.msiSend_ctl]; rfl
  · rw [State.rd_msiSend, State.rd_setCtl, State.rd_cause_chipReset _ (by decide)]

/-- The release of RST_N with the rails in range (R433). -/
theorem rstNHigh_leads_to_boot (boot : Fin 8) (s : State) (hlow : s.ctl.rstLow = true) (hpwr : s.ctl.pwrEn = true)
    (hrails : s.ctl.railsOk = true) :
    gives (.rstNLow false boot) s (fun t => t.mode = mBoot ∧ t.ctl.rstLow = false ∧ t.ctl.bootPins = boot) := by
  have hexec : exec (.rstNLow false boot) s = done ((s.setCtl { s.ctl with rstLow := false }).release boot) := by
    show execRstNLow false boot s = _
    simp [execRstNLow, hlow, hpwr, hrails]
  refine gives_of_done _ hexec ⟨?_, ?_, ?_⟩
  · rw [msiSend_mode, State.release_mode]
  · rw [State.msiSend_ctl, State.release_ctl]; rfl
  · rw [State.msiSend_ctl, State.release_ctl]

/-- The release of the rail monitor with RST_N high (R433, R472). -/
theorem railMonitorRelease_leads_to_boot (boot : Fin 8) (s : State) (hpwr : s.ctl.pwrEn = true) (hrails : s.ctl.railsOk = false)
    (hlow : s.ctl.rstLow = false) :
    gives (.railMonitorRelease boot) s (fun t => t.mode = mBoot ∧ t.ctl.railsOk = true ∧ t.ctl.bootPins = boot) := by
  have hexec : exec (.railMonitorRelease boot) s = done ((s.setCtl { s.ctl with railsOk := true }).release boot) := by
    show execRailMonitorRelease boot s = _
    simp [execRailMonitorRelease, hlow, hpwr, hrails]
  refine gives_of_done _ hexec ⟨?_, ?_, ?_⟩
  · rw [msiSend_mode, State.release_mode]
  · rw [State.msiSend_ctl, State.release_ctl]; rfl
  · rw [State.msiSend_ctl, State.release_ctl]

/-- POWER_ON (R433). -/
theorem powerOn_clears (s : State) : gives (.powerOn) s (fun t => t.mode = mBoot ∧ t.rd Reg.WAK_STAT_CAUSE = 0 ∧ t.ctl.pwrEn = true
    ∧ t.ctl.railsOk = false ∧ t.ctl.rstLow = true ∧ t.mem = [] ∧ t.fuses = s.fuses ∧ t.flash = s.flash) := by
  refine gives_of_done _ rfl ⟨?_, ?_, ?_, ?_, ?_, ?_, ?_, ?_⟩
  · rw [msiSend_mode]; rfl
  · rw [State.rd_msiSend]; rfl
  · rw [State.msiSend_ctl]; rfl
  · rw [State.msiSend_ctl]; rfl
  · rw [State.msiSend_ctl]; rfl
  · rw [State.msiSend_mem]; rfl
  · rw [State.msiSend_fuses]; rfl
  · rw [State.msiSend_flash]; rfl

/-- VWAKE_LOSS (R471). -/
theorem vwakeLoss_clears (s : State) : gives (.vwakeLoss) s (fun t => t.ctl.pwrEn = false ∧ t.ctl.railsOk = false ∧ t.mem = []
    ∧ t.fuses = s.fuses ∧ t.flash = s.flash) := by
  refine gives_of_done _ rfl ⟨?_, ?_, ?_, ?_, ?_⟩
  · rw [State.msiSend_ctl]; rfl
  · rw [State.msiSend_ctl]; rfl
  · rw [State.msiSend_mem]; rfl
  · rw [State.msiSend_fuses]; rfl
  · rw [State.msiSend_flash]; rfl

/-- HIB in IDLE with its key (R434). -/
theorem hib_stops_ports (m : Master) (s : State) (h : s.reaches m true 0x4F000000 = true) (hidle : s.mode = mIdle) :
    gives (.hib m 0x7A3C) s (fun t => t.ctl.hibPend = true ∧ t.timerOn tmHib = true
      ∧ ∀ p : Fin 32, t.rd (blockEn (lnkBlock p)) = 0) := by
  refine gives_of_gate h rfl ?_
  generalize hu : (s.granted m 0x4F000000).answer m 0 = u
  have hmode : u.mode = mIdle := by
    rw [← hu, State.mode]; exact (s.rd_granted m _ _).trans hidle
  have hmay : u.mayHibernate 0x7A3C = true := by simp [State.mayHibernate, hmode]
  rw [if_neg (fun hno => Bool.noConfusion (hmay.symm.trans hno))]
  refine ⟨?_, ?_, fun p => ?_⟩
  · rw [State.msiSend_ctl]; rfl
  · simp [State.timerOn, State.startTimer, spFind_spPut_same]
  · simp only [State.rd_msiSend, State.rd_setCtl, State.startTimer, State.rd_setClk]
    exact State.foldl_lnkStop_clears _ _ p (.inl (List.mem_range.mpr p.isLt))

/-- HIBERNATE_ENTRY in IDLE (R434). -/
theorem hibernateEntry_cuts_power (s : State) (hpend : s.ctl.hibPend = true) (hidle : s.mode = mIdle) :
    gives (.hibernateEntry) s (fun t => t.mode = mHibernate ∧ t.ctl.pwrEn = false
      ∧ t.rd Reg.WAK_STAT_HIBCNT = min (s.rd Reg.WAK_STAT_HIBCNT + 1) 0xFFFF ∧ t.rd Reg.SUP_RGN_STAT_ON = 0 ∧ t.mem = []) := by
  have hneg : ¬ (s.ctl.hibPend = false ∨ s.mode ≠ mIdle) := by simp [hpend, hidle]
  generalize hw : (if s.portsOff then s else s.expire tmHib (ticksMs 1)) = w
  have hcnt : w.rd Reg.WAK_STAT_HIBCNT = s.rd Reg.WAK_STAT_HIBCNT := by
    rw [← hw]
    split
    · rfl
    · exact s.rd_expire _ _ (by decide) (by decide)
  refine gives_of_done _ (congrArg done (if_neg hneg)) ?_
  rw [hw]
  refine ⟨?_, ?_, ?_, ?_, ?_⟩
  · simp (disch := decide) only [State.mode, State.rd_msiSend, State.startTimer, State.rd_setClk, State.rd_setCtl, State.rd_wr_ne,
      State.rd_wr_same]
    rfl
  · rw [State.msiSend_ctl]; rfl
  · simp (disch := decide) only [State.startTimer, State.rd_msiSend, State.rd_setClk, State.rd_setCtl, State.rd_wr_ne,
      State.rd_wr_same, hcnt]
    exact Nat.mod_eq_of_lt (Nat.lt_of_le_of_lt (Nat.min_le_right _ _) (by decide))
  · simp (disch := decide) [State.startTimer, State.rd_wr_ne]
  · rw [State.msiSend_mem]; rfl

/-- HIBERNATE_ENTRY in any other mode (R434). -/
theorem hibernateEntry_refused (s : State) (hmode : s.mode ≠ mIdle) :
    gives (.hibernateEntry) s (fun t => t.mode = s.mode ∧ onlyChanges [] [] s t) :=
  gives_of_done s (congrArg done (if_pos (.inr hmode))) ⟨msiSend_mode s, onlyChanges_msiSend (onlyChanges_refl _ _ s)⟩

/-- WAKE in HIBERNATE (R435). -/
theorem wake_restores_power (level : Bool) (s : State) (hlevel : level ≠ s.flag Reg.WAK_CTRL_WPOL) (hmode : s.mode = mHibernate)
    (hpwr : s.ctl.pwrEn = false) :
    gives (.wake level) s (fun t => t.ctl.pwrEn = true ∧ t.rd Reg.WAK_STAT_CAUSE = 1 ∧ t.flag Reg.WAK_STAT_WLIVE = true
      ∧ t.ctl.wakePin = level) := by
  have hactive : (level != s.flag Reg.WAK_CTRL_WPOL) = true := bne_iff_ne.mpr hlevel
  have hseenMode : (s.wakeSeen level).mode = mHibernate := (s.wakeSeen_mode level).trans hmode
  have hseenPwr : (s.wakeSeen level).ctl.pwrEn = false := hpwr
  have hseenLive : (s.wakeSeen level).rd Reg.WAK_STAT_WLIVE = 1 := by
    rw [State.wakeSeen, hactive, State.rd_wr_same]; rfl
  generalize hw : (s.wakeSeen level).wakeWaited = w
  have hctl : w.ctl = (s.wakeSeen level).ctl := by rw [← hw, State.wakeWaited_ctl]
  have hlive : w.rd Reg.WAK_STAT_WLIVE = 1 := by rw [← hw, State.rd_wakeWaited _ (by decide) (by decide), hseenLive]
  have hexec : exec (.wake level) s = done ((w.setCtl { w.ctl with pwrEn := true }).bootCause 1) := by
    refine (execWake_eq level s).trans ?_
    rw [hactive, hseenMode, hseenPwr, hw]; rfl
  refine gives_of_done _ hexec ⟨?_, ?_, ?_, ?_⟩
  · rw [State.msiSend_ctl]; rfl
  · rw [State.rd_msiSend, State.bootCause, State.rd_wr_same]; rfl
  · rw [State.flag, State.rd_msiSend, State.bootCause, State.rd_wr_ne _ _ (by decide), State.rd_setCtl, hlive]; rfl
  · rw [State.msiSend_ctl, State.bootCause, State.wr_ctl, State.setCtl_ctl, hctl]; rfl

end Sys2Proof

open Sys2Proof Sys2Proof.Machine

/-- Settles O14, one lemma a command: the POR domain, which holds the cause, stands over the CHIP reset, and every other register of
the chip comes up at its reset value. -/
theorem resetsAndPower : Obligations.ResetsAndPower := by
  unfold Obligations.ResetsAndPower
  exact ⟨chipReset_leads_to_boot, rstNLow_leads_to_boot, rstNHigh_leads_to_boot, railMonitorRelease_leads_to_boot, powerOn_clears,
    vwakeLoss_clears, hib_stops_ports, hibernateEntry_cuts_power, hibernateEntry_refused, wake_restores_power⟩
end

section
/-! SUPPORT. A write of SUP_TRIP (O21): FIRST, read-only for masters, follows the flags that the write clears. -/

namespace Sys2Proof.Machine

/-- The address of SUP_TRIP. -/
def tripAddr : Nat := 0x40000310

/-- A write of SUP_TRIP writes its fields, and where no flag is left set FIRST shows that no trip is recorded (R430). -/
theorem State.writeReg_trip (s : State) (m : Master) (v : Nat) :
    s.writeReg m tripAddr 4 v =
      if (s.writeFields m tripAddr v []).tripped then s.writeFields m tripAddr v []
      else (s.writeFields m tripAddr v []).wr Reg.SUP_TRIP_FIRST 0x1F := by
  have hcard : (cardAt (tripAddr / 4 * 4)).isNone = false := by decide
  have hmbx : s.mbxClosed m true tripAddr = false := rfl
  have hblock : blockAt tripAddr = none := by decide
  simp only [State.writeReg, hcard, hmbx, hblock]
  rfl

/-- The state in which a write of master `m` to SUP_TRIP is carried out, past the gate. -/
theorem State.writeAt_trip (s : State) (m : Master) (v : Nat) (h : s.reaches m true tripAddr = true) :
    s.writeAt m tripAddr 4 v = ((s.granted m tripAddr).answer m 0).writeReg m tripAddr 4 v := by
  have htarget : addrTarget tripAddr = some 4 := by decide
  simp [State.writeAt, State.gate_reaches s m true tripAddr _ h, htarget]

/-- A write that leaves no flag of SUP_TRIP set leaves FIRST at 0x1F, though FIRST is read-only for masters. -/
theorem State.rd_tripFirst_writeAt (s : State) (m : Master) (v : Nat) (h : s.reaches m true tripAddr = true)
    (hclear : (((s.granted m tripAddr).answer m 0).writeFields m tripAddr v []).tripped = false) :
    (s.writeAt m tripAddr 4 v).rd Reg.SUP_TRIP_FIRST = 0x1F := by
  simp [State.writeAt_trip s m v h, State.writeReg_trip, hclear, Reg.SUP_TRIP_FIRST]

/-- The device in BOOT after a trip by command: COMMAND, bit 0 of SUP_TRIP, is set, and FIRST names it. -/
def commandTrip : State := State.reset.trip Reg.SUP_TRIP_COMMAND

/-- FIRST in the register table: read-only. -/
def firstField : CardFld := ⟨24, 5, .ro, 0x1F⟩

end Sys2Proof.Machine

open Sys2Proof Sys2Proof.Machine

/-- Refutes O21. The registers that its first clause calls plain include SUP_TRIP, whose write does more than store fields: once no flag
is left set, FIRST shows 0x1F, no trip (R430). After a trip by command in BOOT, core 0 (master 1) clears COMMAND with a write of 1;
FIRST, read-only, then reads 0x1F where the clause has it keep 0, the number of COMMAND's bit. -/
theorem not_masterAccesses : ¬ Obligations.MasterAccesses := by
  unfold Obligations.MasterAccesses
  rintro ⟨hplain, -⟩
  obtain ⟨t, ht, hfields, -⟩ := hplain 1 0x40000310 1 commandTrip (by decide) (by decide) (by decide)
  have hafter : t = (commandTrip.writeAt 1 tripAddr 4 1).msiSend := by
    injection ht with ht; exact ht.symm
  have hkept : t.rd Reg.SUP_TRIP_FIRST = 0 := hfields firstField (by decide)
  have hcleared : t.rd Reg.SUP_TRIP_FIRST = 0x1F := by
    rw [hafter, State.rd_msiSend]
    exact State.rd_tripFirst_writeAt commandTrip 1 1 (by decide) (by decide)
  omega
end

section
/-! SUPPORT. Changes of the operating mode, sub-states of the sequences and timers, as the commands of ride-through and black start use
them (O38). -/

namespace Sys2Proof.Machine

/-! ## Time that passes (R344) -/

theorem State.elapse_latch (s : State) (n : Nat) : (s.elapse n).latch = s.latch := by
  simp only [State.elapse]
  split
  · split <;> rfl
  · rfl

theorem State.elapse_timers (s : State) (n : Nat) : (s.elapse n).clk.timers = s.clk.timers := by
  simp only [State.elapse]
  split
  · split <;> rfl
  · rfl

theorem State.elapse_ticks (s : State) (n : Nat) : (s.elapse n).clk.ticks = s.clk.ticks + n := by
  simp only [State.elapse]
  split
  · split <;> rfl
  · rfl

theorem State.elapseTo_latch (s : State) (t : Nat) : (s.elapseTo t).latch = s.latch := by
  unfold State.elapseTo
  split
  · exact s.elapse_latch _
  · rfl

theorem State.elapseTo_timers (s : State) (t : Nat) : (s.elapseTo t).clk.timers = s.clk.timers := by
  unfold State.elapseTo
  split
  · exact s.elapse_timers _
  · rfl

/-- True time reaches the tick that is waited for. -/
theorem State.le_elapseTo_ticks (s : State) (t : Nat) : t ≤ (s.elapseTo t).clk.ticks := by
  unfold State.elapseTo
  split
  · rw [State.elapse_ticks]; omega
  · omega

/-- The clock, mtime and the wraps of device time are all that the passing of time moves. -/
theorem State.onlyChanges_elapse (s : State) (n : Nat) :
    onlyChanges [Reg.PTP_ALRM_WRAP, Reg.CST_TSHI_TSHI] [.clk, .sup] s (s.elapse n) := by
  have hsup : onlyChanges [Reg.PTP_ALRM_WRAP, Reg.CST_TSHI_TSHI] [.clk, .sup] s
      (s.setSup { s.sup with mtime := s.sup.mtime + n }) := onlyChanges_setSup _ (by decide) (onlyChanges_refl _ _ s)
  simp only [State.elapse]
  split
  · have hclk := onlyChanges_setClk { s.clk with ticks := s.clk.ticks + n, time := (s.clk.time + n * s.clk.inc) % 2 ^ 64 }
      (by decide) hsup
    split
    · exact hclk
    · exact onlyChanges_addWrap _ _ (by simp) (onlyChanges_set1 _ (by simp) hclk)
  · exact onlyChanges_setClk _ (by decide) hsup

theorem State.onlyChanges_elapseTo (s : State) (t : Nat) :
    onlyChanges [Reg.PTP_ALRM_WRAP, Reg.CST_TSHI_TSHI] [.clk, .sup] s (s.elapseTo t) := by
  unfold State.elapseTo
  split
  · exact s.onlyChanges_elapse _
  · exact onlyChanges_refl _ _ s

/-! ## Timers -/

theorem State.timerOn_startTimer_same (s : State) (k : Nat) : (s.startTimer k).timerOn k = true := by
  simp [State.timerOn, State.startTimer, spFind_spPut_same]

theorem State.timerOn_stopTimer_same (s : State) (k : Nat) : (s.stopTimer k).timerOn k = false := by
  simp [State.timerOn, State.stopTimer, spFind_spDel_same]

theorem State.timerOn_stopTimer_ne (s : State) {k j : Nat} (h : j ≠ k) : (s.stopTimer k).timerOn j = s.timerOn j := by
  simp [State.timerOn, State.stopTimer, spFind_spDel_ne _ h]

@[simp] theorem State.rd_startTimer (s : State) (k : Nat) (f : Fld) : (s.startTimer k).rd f = s.rd f := rfl
@[simp] theorem State.rd_stopTimer (s : State) (k : Nat) (f : Fld) : (s.stopTimer k).rd f = s.rd f := rfl

/-- A timer that has expired runs no more. -/
theorem State.timerOn_expire_same (s : State) (k d : Nat) : (s.expire k d).timerOn k = false := by
  unfold State.expire
  split
  · exact State.timerOn_stopTimer_same _ _
  next h => simp [State.timerOn, h]

theorem State.expire_latch (s : State) (k d : Nat) : (s.expire k d).latch = s.latch := by
  unfold State.expire
  split
  · exact s.elapseTo_latch _
  · rfl

theorem State.expire_mode (s : State) (k d : Nat) : (s.expire k d).mode = s.mode := s.rd_expire k d (by decide) (by decide)

theorem State.brkEn_expire (s : State) (k d : Nat) : (s.expire k d).brkEn = s.brkEn := by
  unfold State.brkEn State.lrd
  rw [State.expire_latch]

/-! ## Sub-states (R143) -/

theorem State.rd_sub_setSub (s : State) {n : Nat} (h : n < 16) : (s.setSub n).rd Reg.FRM_SEQSTAT_SUB = n := by
  unfold State.setSub
  split
  · assumption
  · rw [State.rd_wr_ne _ _ (by decide), State.rd_wr_same]
    exact Nat.mod_eq_of_lt h

theorem State.rd_setSub (s : State) (n : Nat) {f : Fld} (hs : f.key ≠ Reg.FRM_SEQSTAT_SUB.key)
    (ht : f.key ≠ Reg.FRM_SEQTIME_TIME.key) : (s.setSub n).rd f = s.rd f := by
  unfold State.setSub
  split
  · rfl
  · rw [State.rd_wr_ne _ _ ht, State.rd_wr_ne _ _ hs]

theorem State.setSub_clk (s : State) (n : Nat) : (s.setSub n).clk = s.clk := by
  unfold State.setSub
  split <;> rfl

theorem State.setSub_frm (s : State) (n : Nat) : (s.setSub n).frm = s.frm := by
  unfold State.setSub
  split <;> rfl

theorem State.setSub_mode (s : State) (n : Nat) : (s.setSub n).mode = s.mode := s.rd_setSub n (by decide) (by decide)

theorem State.timerOn_setSub (s : State) (n k : Nat) : (s.setSub n).timerOn k = s.timerOn k := by
  simp only [State.timerOn, State.setSub_clk]

/-! ## The pairs (R271) -/

theorem State.rd_pairOff (s : State) (p : Nat) (f : Fld) : (s.pairOff p).rd f = s.rd f := by
  simp only [State.pairOff]
  split <;> rfl

theorem State.rd_pairsOff (s : State) (f : Fld) : s.pairsOff.rd f = s.rd f :=
  List.foldlRecOn (motive := fun t : State => t.rd f = s.rd f) _ _ rfl (fun t ht p _ => (t.rd_pairOff p f).trans ht)

/-! ## What a change of mode leaves of SUP_MODE (R425) -/

/-- The field stands in register SUP_MODE. -/
abbrev inSupMode (f : Fld) : Prop := f.key / 32 = Reg.SUP_MODE_MODE.addr

/-- A field of another register has another key. -/
theorem key_ne_of_inSupMode {f g : Fld} (hf : inSupMode f) (hg : g.key / 32 ≠ Reg.SUP_MODE_MODE.addr) : f.key ≠ g.key :=
  fun h => hg (h ▸ hf)

/-- The forming core's INIT after a change of mode (R90). -/
def State.frmInitNoted (s : State) (old m : Nat) : State :=
  if s.frmComputes m then
    if s.frmComputes old then s else (s.set1 Reg.FRM_STAT_INIT).setArm { s.arm with first := isForming m }
  else s.set0 Reg.FRM_STAT_INIT

/-- The counts of the mode that was left are stopped. -/
def State.frmCountsStopped (s : State) (m : Nat) : State :=
  let s := [tmJoin, tmRt, tmGrid, tmClose].foldl State.stopTimer s
  if s.frmComputes m then s else (s.stopTimer tmIsAngle).stopTimer tmIsDead

/-- The sequence of the new mode starts (R130, R137, R143). -/
def State.frmSequence (s : State) (m : Nat) : State :=
  if m = mReady ∧ s.flag Reg.FRM_SEQCTRL_BSARM then (s.wr Reg.FRM_SEQSTAT_ATTEMPT 0).claimStart
  else if m = mRideThrough then s.setSub 7
  else if m = mResync then (s.setFrm { s.frm with dv := 0, fired := false }).setSub 8
  else s.setSub 0

/-- The three parts of `frmMode`; the claim of a WARM shadow goes on with the mirrored sequence (R265). -/
theorem State.frmMode_eq (s : State) (old m : Nat) : s.frmMode old m =
    if (s.frmInitNoted old m).goesOn old m then s.frmInitNoted old m else ((s.frmInitNoted old m).frmCountsStopped m).frmSequence m := rfl

theorem State.rd_frmCountsStopped (s : State) (m : Nat) (f : Fld) : (s.frmCountsStopped m).rd f = s.rd f := by
  simp only [State.frmCountsStopped]
  split <;> rfl

section
variable {f : Fld} (hf : inSupMode f)
include hf

theorem State.rd_setSub_inSupMode (s : State) (n : Nat) : (s.setSub n).rd f = s.rd f :=
  s.rd_setSub n (key_ne_of_inSupMode hf (by decide)) (key_ne_of_inSupMode hf (by decide))

theorem State.rd_commitInc_inSupMode (s : State) (m inc : Nat) : (s.commitInc m inc).rd f = s.rd f := by
  simp only [State.commitInc]
  split
  · rfl
  · rw [State.rd_set1_ne _ (key_ne_of_inSupMode hf (by decide)), State.rd_setClk]

theorem State.rd_resumePairs_inSupMode (s : State) : s.resumePairs.rd f = s.rd f := by
  unfold State.resumePairs
  split
  · rfl
  · rw [State.rd_set0_ne _ (key_ne_of_inSupMode hf (by decide)), State.rd_setBrg]

theorem State.rd_endHalt_inSupMode (s : State) : s.endHalt.rd f = s.rd f := by
  unfold State.endHalt
  split
  · rw [State.rd_resumePairs_inSupMode hf]
    refine List.foldlRecOn (motive := fun t : State => t.rd f = s.rd f) _ _ ?_ (fun t ht c hc => ?_)
    · rw [State.rd_set0_ne _ (key_ne_of_inSupMode hf (by decide)), State.rd_set0_ne _ (key_ne_of_inSupMode hf (by decide))]
    · have hcore : (coreState c).key / 32 ≠ Reg.SUP_MODE_MODE.addr := by
        have := List.mem_range.mp hc
        simp only [Fld.key, coreState, Reg.SUP_MODE_MODE]
        omega
      split
      · rw [State.rd_wr_ne _ _ (key_ne_of_inSupMode hf hcore), ht]
      · exact ht
  · rfl

theorem State.rd_frmInitNoted_inSupMode (s : State) (old m : Nat) : (s.frmInitNoted old m).rd f = s.rd f := by
  unfold State.frmInitNoted
  split
  · split
    · rfl
    · rw [State.rd_setArm, State.rd_set1_ne _ (key_ne_of_inSupMode hf (by decide))]
  · rw [State.rd_set0_ne _ (key_ne_of_inSupMode hf (by decide))]

theorem State.rd_frmSequence_inSupMode (s : State) (m : Nat) : (s.frmSequence m).rd f = s.rd f := by
  unfold State.frmSequence
  split
  · rw [State.claimStart, State.rd_stopTimer, State.rd_stopTimer, State.rd_setSub_inSupMode hf,
      State.rd_wr_ne _ _ (key_ne_of_inSupMode hf (by decide))]
  · split
    · exact State.rd_setSub_inSupMode hf _ _
    · split <;> exact State.rd_setSub_inSupMode hf _ _

theorem State.rd_frmMode_inSupMode (s : State) (old m : Nat) : (s.frmMode old m).rd f = s.rd f := by
  rw [State.frmMode_eq]
  split
  · exact State.rd_frmInitNoted_inSupMode hf s old m
  · rw [State.rd_frmSequence_inSupMode hf, State.rd_frmCountsStopped, State.rd_frmInitNoted_inSupMode hf]

end

/-! ## A change of mode (R425) -/

/-- The device notes the new mode, the previous one and the change, with its time and count. -/
def State.noteMode (s : State) (m : Nat) : State :=
  let s := (s.set0 Reg.MIR_STAT_ALIGNED).setCtl { s.ctl with hibPend := false }
  let s := ((s.wr Reg.SUP_MODE_PREV s.mode).wr Reg.SUP_MODE_MODE m).set1 Reg.SUP_MODE_CHG
  (s.wr Reg.SUP_MODETIME_TIME s.now).addSat Reg.SUP_MODESTAT_TRANSCNT 1

/-- What follows of a change to mode `m` that has been noted. -/
def State.modeNoted (s : State) (m : Nat) : State :=
  let s := ((s.commitInc m s.clk.inc).endHalt).castEvent 2
  (if bridgeMode m then s else s.pairsOff).frmMode (s.rd Reg.SUP_MODE_PREV) m

theorem State.setMode_eq {s : State} {m : Nat} (h : s.mode ≠ m) : s.setMode m = (s.noteMode m).modeNoted m := if_neg h

/-- What follows a change of mode leaves SUP_MODE as it was noted. -/
theorem State.rd_modeNoted (s : State) (m : Nat) {f : Fld} (hf : inSupMode f) : (s.modeNoted m).rd f = s.rd f := by
  simp only [State.modeNoted]
  rw [State.rd_frmMode_inSupMode hf]
  have hbegun : (((s.commitInc m s.clk.inc).endHalt).castEvent 2).rd f = s.rd f := by
    rw [State.castEvent, State.rd_setCst, State.rd_endHalt_inSupMode hf, State.rd_commitInc_inSupMode hf]
  split
  · exact hbegun
  · rw [State.rd_pairsOff, hbegun]

theorem State.mode_noteMode (s : State) {m : Nat} (hm : m < 16) : (s.noteMode m).mode = m := by
  rw [State.mode, State.noteMode, State.addSat]
  simp (disch := decide) only [State.rd_wr_ne, State.rd_set1_ne, State.rd_wr_same]
  exact Nat.mod_eq_of_lt hm

theorem State.mode_lt (s : State) : s.mode < 16 := Nat.mod_lt _ (by decide)

theorem State.prev_noteMode (s : State) (m : Nat) : (s.noteMode m).rd Reg.SUP_MODE_PREV = s.mode := by
  rw [State.noteMode, State.addSat]
  simp (disch := decide) only [State.rd_wr_ne, State.rd_set1_ne, State.rd_wr_same, State.mode, State.rd_setCtl, State.rd_set0_ne]
  exact Nat.mod_eq_of_lt s.mode_lt

theorem State.chg_noteMode (s : State) (m : Nat) : (s.noteMode m).rd Reg.SUP_MODE_CHG = 1 := by
  rw [State.noteMode, State.addSat]
  simp (disch := decide) only [State.rd_wr_ne, State.set1, State.rd_wr_same]
  rfl

theorem State.mode_setMode (s : State) {m : Nat} (hm : m < 16) : (s.setMode m).mode = m := by
  by_cases h : s.mode = m
  · rw [State.setMode, if_pos h, h]
  · rw [State.setMode_eq h, State.mode, State.rd_modeNoted _ _ (by decide)]
    exact s.mode_noteMode hm

theorem State.prev_setMode {s : State} {m : Nat} (h : s.mode ≠ m) : (s.setMode m).rd Reg.SUP_MODE_PREV = s.mode := by
  rw [State.setMode_eq h, State.rd_modeNoted _ _ (by decide), State.prev_noteMode]

theorem State.chg_setMode {s : State} {m : Nat} (h : s.mode ≠ m) : (s.setMode m).flag Reg.SUP_MODE_CHG = true := by
  rw [State.setMode_eq h, State.flag, State.rd_modeNoted _ _ (by decide), State.chg_noteMode]
  rfl

/-! ## Island and grid (R128) -/

theorem State.mode_toIsland (s : State) : s.toIsland.mode = mFormIsland :=
  (State.rd_set1_ne _ (by decide)).trans (s.mode_setMode (by decide))

theorem State.islanded_toIsland (s : State) : s.toIsland.flag Reg.FRM_SEQSTAT_ISLANDED = true := State.flag_set1_same _ _ rfl

theorem State.prev_toIsland {s : State} (h : s.mode ≠ mFormIsland) : s.toIsland.rd Reg.SUP_MODE_PREV = s.mode :=
  (State.rd_set1_ne _ (by decide)).trans (State.prev_setMode h)

theorem State.mode_toGrid (s : State) : s.toGrid.mode = mFormGrid :=
  (State.rd_set0_ne _ (by decide)).trans (s.mode_setMode (by decide))

theorem State.islanded_toGrid (s : State) : s.toGrid.flag Reg.FRM_SEQSTAT_ISLANDED = false := State.flag_set0_same _ _

/-! ## The claim logic (R129 to R131) -/

/-- The claim logic runs in READY alone. -/
theorem State.mode_of_claims {s : State} (h : s.claims = true) : s.mode = mReady := by
  simp only [State.claims, Bool.and_eq_true, decide_eq_true_eq] at h
  obtain ⟨⟨hmode, -⟩, -⟩ := h
  exact hmode

/-- The fields of FRM_SEQCTRL after a write of `v`. -/
def State.seqctrlFields (s : State) (v : Nat) : State :=
  let s := (s.wr Reg.FRM_SEQCTRL_BRKPOL (v / 2 ^ 23)).wr Reg.FRM_SEQCTRL_BRKEN (v / 2 ^ 22)
  let s := (s.wr Reg.FRM_SEQCTRL_BRKGPIO (v / 2 ^ 18)).wr Reg.FRM_SEQCTRL_RSYACP (v / 2 ^ 16)
  (s.wr Reg.FRM_SEQCTRL_NOCLAIM (v / 2)).wr Reg.FRM_SEQCTRL_BSARM v

theorem State.bsarm_seqctrlFields (s : State) {v : Nat} (hv : v % 2 = 1) :
    (s.seqctrlFields v).flag Reg.FRM_SEQCTRL_BSARM = true := by
  rw [State.flag, State.seqctrlFields, State.rd_wr_same]
  simp [Reg.FRM_SEQCTRL_BSARM, hv]

theorem State.noclaim_seqctrlFields (s : State) (v : Nat) :
    (s.seqctrlFields v).flag Reg.FRM_SEQCTRL_NOCLAIM = bitAt v 1 := by
  rw [State.flag, State.seqctrlFields, State.rd_wr_ne _ _ (by decide), State.rd_wr_same]
  rcases Nat.mod_two_eq_zero_or_one (v / 2) with h | h <;> simp [Reg.FRM_SEQCTRL_NOCLAIM, bitAt, h]

theorem State.mode_seqctrlFields (s : State) (v : Nat) : (s.seqctrlFields v).mode = s.mode := by
  rw [State.mode, State.seqctrlFields]
  simp (disch := decide) only [State.rd_wr_ne]
  rfl

/-- BSARM set in READY starts the claim logic (R129). -/
theorem State.seqctrlWrite_arms {s : State} {v : Nat} (hmode : s.mode = mReady) (hoff : s.flag Reg.FRM_SEQCTRL_BSARM = false)
    (hv : v % 2 = 1) : s.seqctrlWrite v = ((s.seqctrlFields v).wr Reg.FRM_SEQSTAT_ATTEMPT 0).claimStart := by
  have heq : s.seqctrlWrite v = if (s.seqctrlFields v).mode ≠ mReady ∨ s.flag Reg.FRM_SEQCTRL_BSARM =
        (s.seqctrlFields v).flag Reg.FRM_SEQCTRL_BSARM then s.seqctrlFields v
      else if s.flag Reg.FRM_SEQCTRL_BSARM then (((s.seqctrlFields v).stopTimer tmDeadBus).stopTimer tmSlot).setSub 0
      else ((s.seqctrlFields v).wr Reg.FRM_SEQSTAT_ATTEMPT 0).claimStart := rfl
  rw [heq, s.mode_seqctrlFields, s.bsarm_seqctrlFields hv, hmode, hoff]
  rfl

theorem State.sub_claimStart (s : State) : s.claimStart.rd Reg.FRM_SEQSTAT_SUB = 1 := s.rd_sub_setSub (by decide)

theorem State.rd_claimStart (s : State) {f : Fld} (hs : f.key ≠ Reg.FRM_SEQSTAT_SUB.key) (ht : f.key ≠ Reg.FRM_SEQTIME_TIME.key) :
    s.claimStart.rd f = s.rd f := s.rd_setSub 1 hs ht

/-- The dead-time count starts at 0 with the next dead frame. -/
theorem State.deadBus_claimStart (s : State) : s.claimStart.timerOn tmDeadBus = false :=
  (State.timerOn_stopTimer_ne _ (by decide)).trans (State.timerOn_stopTimer_same _ _)

/-- The slot wait ends with time passed to its end (R131). -/
theorem State.slotExpiry_eq {s : State} {t : Nat} (hclaims : s.claims = true) (hsub : s.rd Reg.FRM_SEQSTAT_SUB = 2)
    (ht : spFind s.clk.timers tmSlot = some t) : s.slotExpiry = s.elapseTo (t + s.slotWait) := by
  rw [State.slotExpiry, if_pos ⟨hclaims, hsub⟩, ht]

end Sys2Proof.Machine

namespace Sys2Proof
open Machine

theorem msiSend_timerOn (s : State) (k : Nat) : s.msiSend.timerOn k = s.timerOn k := by
  rw [State.timerOn, State.msiSend_clk, State.timerOn]

theorem msiSend_flag (s : State) (f : Fld) : s.msiSend.flag f = s.flag f := by
  rw [State.flag, State.rd_msiSend, State.flag]

/-- RIDE_THROUGH_EXIT returns to the mode it was entered from (R124). -/
theorem rideThroughExit_returns (s : State) (hmode : s.mode = mRideThrough) (hrt : s.timerOn tmRt = true)
    (hfrom : s.frm.rtFrom = mFormGrid ∨ s.frm.rtFrom = mFormIsland) :
    gives (.rideThroughExit) s (fun t => t.mode = s.frm.rtFrom ∧ t.rd Reg.SUP_MODE_PREV = mRideThrough
      ∧ t.flag Reg.SUP_MODE_CHG = true) := by
  refine gives_of_done _ (congrArg done (if_pos ⟨hmode, hrt⟩)) ?_
  generalize hu : s.expire tmRt (ticksMs (s.lrd Reg.FRM_RTCFG_TEXIT)) = u
  have humode : u.mode = mRideThrough := by rw [← hu, State.expire_mode, hmode]
  have hlt : s.frm.rtFrom < 16 := by rcases hfrom with h | h <;> rw [h] <;> decide
  have hne : u.mode ≠ s.frm.rtFrom := by rw [humode]; rcases hfrom with h | h <;> rw [h] <;> decide
  refine ⟨?_, ?_, ?_⟩
  · rw [msiSend_mode, State.mode_setMode _ hlt]
  · rw [State.rd_msiSend, State.prev_setMode hne, humode]
  · rw [msiSend_flag, State.chg_setMode hne]

/-- What every cause of ISLAND_DETECT leads to: FORM_ISLAND with ISLANDED set, entered from the mode that was left (R128). -/
theorem toIsland_enters (u : State) (hmode : u.mode = mFormGrid) : u.toIsland.msiSend.mode = mFormIsland
    ∧ u.toIsland.msiSend.flag Reg.FRM_SEQSTAT_ISLANDED = true ∧ u.toIsland.msiSend.rd Reg.SUP_MODE_PREV = mFormGrid := by
  refine ⟨?_, ?_, ?_⟩
  · rw [msiSend_mode, State.mode_toIsland]
  · rw [msiSend_flag, State.islanded_toIsland]
  · rw [State.rd_msiSend, State.prev_toIsland (by rw [hmode]; decide), hmode]

/-- What the closing of the breaker leads to: FORM_GRID with ISLANDED clear (R128, R140). -/
theorem toGrid_enters (u : State) : u.toGrid.msiSend.mode = mFormGrid
    ∧ u.toGrid.msiSend.flag Reg.FRM_SEQSTAT_ISLANDED = false := by
  refine ⟨?_, ?_⟩
  · rw [msiSend_mode, State.mode_toGrid]
  · rw [msiSend_flag, State.islanded_toGrid]

/-- ISLAND_DETECT by the breaker input (R128). -/
theorem islandDetect_breaker_islands (s : State) (hmode : s.mode = mFormGrid) (hbrk : s.lrd Reg.FRM_SEQCTRL_BRKEN = 1) :
    gives (.islandDetect .breaker) s (fun t => t.mode = mFormIsland ∧ t.flag Reg.FRM_SEQSTAT_ISLANDED = true
      ∧ t.rd Reg.SUP_MODE_PREV = mFormGrid) := by
  have hexec : s.islandDetect .breaker = (s.breakerShown false).toIsland :=
    (if_neg (by simp [State.brkEn, hbrk])).trans (if_pos hmode)
  exact gives_of_done _ (congrArg done hexec) (toIsland_enters (s.breakerShown false) hmode)

/-- ISLAND_DETECT by the angle (R128). -/
theorem islandDetect_angle_islands (s : State) (hmode : s.mode = mFormGrid) (htimer : s.timerOn tmIsAngle = true) :
    gives (.islandDetect .angle) s (fun t => t.mode = mFormIsland ∧ t.flag Reg.FRM_SEQSTAT_ISLANDED = true) := by
  obtain ⟨hm, hislanded, -⟩ := toIsland_enters (s.expire tmIsAngle (ticksMs 20)) ((s.expire_mode _ _).trans hmode)
  exact gives_of_done _ (congrArg done (if_pos ⟨hmode, htimer⟩)) ⟨hm, hislanded⟩

/-- ISLAND_DETECT by a dead grid (R128). -/
theorem islandDetect_deadGrid_islands (s : State) (hmode : s.mode = mFormGrid) (htimer : s.timerOn tmIsDead = true) :
    gives (.islandDetect .deadGrid) s (fun t => t.mode = mFormIsland ∧ t.flag Reg.FRM_SEQSTAT_ISLANDED = true) := by
  obtain ⟨hm, hislanded, -⟩ := toIsland_enters (s.expire tmIsDead (ticksMs 20)) ((s.expire_mode _ _).trans hmode)
  exact gives_of_done _ (congrArg done (if_pos ⟨hmode, htimer⟩)) ⟨hm, hislanded⟩

/-- BREAKER_CLOSED_DETECT in FORM_ISLAND (R128). -/
theorem breakerClosedDetect_joins_grid (s : State) (hmode : s.mode = mFormIsland) (hbrk : s.lrd Reg.FRM_SEQCTRL_BRKEN = 1) :
    gives (.breakerClosedDetect) s (fun t => t.mode = mFormGrid ∧ t.flag Reg.FRM_SEQSTAT_ISLANDED = false) := by
  have hexec : s.breakerClosed = (s.breakerShown true).toGrid :=
    (if_neg (by simp [State.brkEn, hbrk])).trans (if_pos hmode)
  exact gives_of_done _ (congrArg done hexec) (toGrid_enters _)

/-- RESYNC_CLOSE_TIMEOUT with the breaker input in use: the close has failed (R140). -/
theorem resyncCloseTimeout_fails (s : State) (hmode : s.mode = mResync) (hfired : s.frm.fired = true)
    (htimer : s.timerOn tmClose = true) (hbrk : s.lrd Reg.FRM_SEQCTRL_BRKEN = 1) :
    gives (.resyncCloseTimeout) s (fun t => t.flag Reg.FRM_SEQSTAT_CLOSEFAIL = true ∧ t.frm.fired = false
      ∧ t.rd Reg.FRM_SEQSTAT_SUB = 8 ∧ t.mode = mResync ∧ t.timerOn tmNoArm = true) := by
  generalize hu : s.expire tmClose s.closeWait = u
  have humode : u.mode = mResync := by rw [← hu, State.expire_mode, hmode]
  have hubrk : u.brkEn = true := by rw [← hu, State.brkEn_expire]; simp [State.brkEn, hbrk]
  have hexec : s.closeTimeout
      = (((u.set1 Reg.FRM_SEQSTAT_CLOSEFAIL).setFrm { u.frm with fired := false }).setSub 8).startTimer tmNoArm := by
    subst hu
    exact (if_pos ⟨hmode, hfired, htimer⟩).trans (if_pos hubrk)
  refine gives_of_done _ (congrArg done hexec) ⟨?_, ?_, ?_, ?_, ?_⟩
  · rw [msiSend_flag, State.flag, State.rd_startTimer, State.rd_setSub _ _ (by decide) (by decide), State.rd_setFrm]
    exact State.flag_set1_same u _ rfl
  · rw [State.msiSend_frm, State.startTimer, State.setClk_frm, State.setSub_frm]; rfl
  · rw [State.rd_msiSend, State.rd_startTimer, State.rd_sub_setSub _ (by decide)]
  · rw [msiSend_mode, State.mode, State.rd_startTimer, State.rd_setSub _ _ (by decide) (by decide), State.rd_setFrm,
      State.rd_set1_ne _ (by decide)]
    exact humode
  · rw [msiSend_timerOn, State.timerOn_startTimer_same]

/-- RESYNC_CLOSE_TIMEOUT without the breaker input: the breaker counts as closed (R140). -/
theorem resyncCloseTimeout_joins_grid (s : State) (hmode : s.mode = mResync) (hfired : s.frm.fired = true)
    (htimer : s.timerOn tmClose = true) (hbrk : s.lrd Reg.FRM_SEQCTRL_BRKEN ≠ 1) :
    gives (.resyncCloseTimeout) s (fun t => t.mode = mFormGrid ∧ t.flag Reg.FRM_SEQSTAT_ISLANDED = false) := by
  have hno : ¬ (s.expire tmClose s.closeWait).brkEn = true := by rw [State.brkEn_expire]; simp [State.brkEn, hbrk]
  have hexec : s.closeTimeout = (s.expire tmClose s.closeWait).toGrid :=
    (if_pos ⟨hmode, hfired, htimer⟩).trans (if_neg hno)
  exact gives_of_done _ (congrArg done hexec) (toGrid_enters _)

/-- RESYNC_GRID_TIMEOUT (R138). -/
theorem resyncGridTimeout_islands (s : State) (hmode : s.mode = mResync) (htimer : s.timerOn tmGrid = true) :
    gives (.resyncGridTimeout) s (fun t => t.mode = mFormIsland ∧ t.rd Reg.SUP_MODE_PREV = mResync) := by
  refine gives_of_done _ (congrArg done (if_pos ⟨hmode, htimer⟩)) ?_
  have humode : (s.expire tmGrid (ticksMs 200)).mode = mResync := (s.expire_mode _ _).trans hmode
  refine ⟨?_, ?_⟩
  · rw [msiSend_mode, State.mode_setMode _ (by decide)]
  · rw [State.rd_msiSend, State.prev_setMode (by rw [humode]; decide), humode]

/-- BSARM_WRITE in READY (R129). -/
theorem bsarmWrite_starts_claim (m : Master) (v : Word) (s : State) (hreach : s.reaches m true 0x430000AC = true)
    (hmode : s.mode = mReady) (hoff : s.flag Reg.FRM_SEQCTRL_BSARM = false) (hv : v.toNat % 2 = 1) :
    gives (.bsarmWrite m v) s (fun t => t.flag Reg.FRM_SEQCTRL_BSARM = true ∧ t.rd Reg.FRM_SEQSTAT_SUB = 1
      ∧ t.rd Reg.FRM_SEQSTAT_ATTEMPT = 0 ∧ t.timerOn tmDeadBus = false
      ∧ t.flag Reg.FRM_SEQCTRL_NOCLAIM = bitAt v.toNat 1) := by
  refine gives_of_gate hreach rfl ?_
  generalize hu : (s.granted m 0x430000AC).answer m 0 = u
  have hrd (f : Fld) : u.rd f = s.rd f := by rw [← hu]; exact s.rd_granted m _ f
  have humode : u.mode = mReady := (hrd _).trans hmode
  have huoff : u.flag Reg.FRM_SEQCTRL_BSARM = false := by rw [State.flag, hrd]; exact hoff
  rw [State.seqctrlWrite_arms humode huoff hv]
  refine ⟨?_, ?_, ?_, ?_, ?_⟩
  · rw [msiSend_flag, State.flag, State.rd_claimStart _ (by decide) (by decide), State.rd_wr_ne _ _ (by decide)]
    exact u.bsarm_seqctrlFields hv
  · rw [State.rd_msiSend, State.sub_claimStart]
  · rw [State.rd_msiSend, State.rd_claimStart _ (by decide) (by decide), State.rd_wr_same]; rfl
  · rw [msiSend_timerOn, State.deadBus_claimStart]
  · rw [msiSend_flag, State.flag, State.rd_claimStart _ (by decide) (by decide), State.rd_wr_ne _ _ (by decide)]
    exact u.noclaim_seqctrlFields v.toNat

/-- WAIT_DEAD_EXPIRY (R130, R131). -/
theorem waitDeadExpiry_takes_slot (s : State) (hclaims : s.claims = true) (hsub : s.rd Reg.FRM_SEQSTAT_SUB = 1)
    (htimer : s.timerOn tmDeadBus = true) :
    gives (.waitDeadExpiry) s (fun t => t.rd Reg.FRM_SEQSTAT_SUB = 2
      ∧ t.rd Reg.FRM_SEQSTAT_SLOT = s.claimSlot % 2 ^ Reg.FRM_SEQSTAT_SLOT.wid ∧ t.mode = mReady) := by
  refine gives_of_done _ (congrArg done (if_pos ⟨hclaims, hsub, htimer⟩)) ⟨?_, ?_, ?_⟩
  · rw [State.rd_msiSend, State.rd_sub_setSub _ (by decide)]
  · rw [State.rd_msiSend, State.rd_setSub _ _ (by decide) (by decide), State.rd_wr_same]
  · rw [msiSend_mode, State.setSub_mode, State.mode, State.rd_wr_ne _ _ (by decide)]
    exact (s.expire_mode _ _).trans (State.mode_of_claims hclaims)

/-- CLAIM_SLOT_EXPIRY (R131). -/
theorem claimSlotExpiry_passes_wait (s : State) (hclaims : s.claims = true) (hsub : s.rd Reg.FRM_SEQSTAT_SUB = 2)
    (htimer : s.timerOn tmSlot = true) :
    gives (.claimSlotExpiry) s (fun t => s.slotWait ≤ t.timerAge tmSlot ∧ t.rd Reg.FRM_SEQSTAT_SUB = 2 ∧ t.mode = mReady
      ∧ onlyChanges [Reg.PTP_ALRM_WRAP, Reg.CST_TSHI_TSHI] [.clk, .sup] s t) := by
  obtain ⟨start, hstart⟩ := Option.isSome_iff_exists.mp htimer
  have hframe := onlyChanges_msiSend (s.onlyChanges_elapseTo (start + s.slotWait))
  have ⟨hkept, _⟩ := hframe
  refine gives_of_done _ (congrArg done (State.slotExpiry_eq hclaims hsub hstart)) ⟨?_, ?_, ?_, hframe⟩
  · have hticks := s.le_elapseTo_ticks (start + s.slotWait)
    rw [State.timerAge, State.msiSend_clk, State.elapseTo_timers, hstart]
    show s.slotWait ≤ (s.elapseTo (start + s.slotWait)).clk.ticks - start
    omega
  · exact (hkept _ (by decide)).trans hsub
  · exact (hkept _ (by decide)).trans (State.mode_of_claims hclaims)

/-- JOIN_SETTLE (R134). -/
theorem joinSettle_ends_join (s : State) (hmode : s.mode = mBlackStart) (hsub : s.rd Reg.FRM_SEQSTAT_SUB = 5)
    (htimer : s.timerOn tmJoin = true) :
    gives (.joinSettle) s (fun t => t.rd Reg.FRM_SEQSTAT_SUB = 6 ∧ t.mode = mBlackStart ∧ t.timerOn tmJoin = false) := by
  refine gives_of_done _ (congrArg done (if_pos ⟨hmode, hsub, htimer⟩)) ⟨?_, ?_, ?_⟩
  · rw [State.rd_msiSend, State.rd_sub_setSub _ (by decide)]
  · rw [msiSend_mode, State.setSub_mode, State.expire_mode, hmode]
  · rw [msiSend_timerOn, State.timerOn_setSub, State.timerOn_expire_same]

end Sys2Proof

open Sys2Proof Sys2Proof.Machine

/-- Settles O38, one lemma a command: what follows a change of mode leaves SUP_MODE as it was noted, and the expiry of a
timer leaves the mode and the latched registers. -/
theorem islandsAndBlackStart : Obligations.IslandsAndBlackStart := by
  unfold Obligations.IslandsAndBlackStart
  exact ⟨rideThroughExit_returns, islandDetect_breaker_islands, islandDetect_angle_islands, islandDetect_deadGrid_islands,
    breakerClosedDetect_joins_grid, resyncCloseTimeout_fails, resyncCloseTimeout_joins_grid, resyncGridTimeout_islands,
    bsarmWrite_starts_claim, waitDeadExpiry_takes_slot, claimSlotExpiry_passes_wait, joinSettle_ends_join⟩
end

section
/-! SUPPORT. What MODULATOR_FRAME writes at bit 20 of a register, where NAVAIL stands and no other field that a frame writes, and an arm of
more submodules than NAVAIL can count (O47). -/

namespace Sys2Proof.Machine

/-! ## Entries of a sparse store -/

theorem mem_of_spFind {α : Type} {m : Sparse α} {k : Nat} {v : α} (h : spFind m k = some v) : (k, v) ∈ m := by
  induction m with
  | nil => cases h
  | cons e r ih =>
    obtain ⟨j, w⟩ := e
    by_cases hj : j = k
    · subst hj
      have hw : w = v := by simpa [spFind] using h
      exact hw ▸ List.mem_cons_self ..
    · exact List.mem_cons_of_mem _ (ih (by simpa [spFind, hj] using h))

theorem spFind_spSet_ne {α : Type} [DecidableEq α] (m : Sparse α) {k j : Nat} (v d : α) (h : j ≠ k) :
    spFind (spSet m k v d) j = spFind m j := by
  unfold spSet
  split
  · exact spFind_spDel_ne m h
  · exact spFind_spPut_ne m v h

theorem State.spFind_wr_ne (s : State) {f : Fld} {k : Nat} (v : Nat) (h : k ≠ f.key) :
    spFind (s.wr f v).regs k = spFind s.regs k :=
  spFind_spSet_ne s.regs _ _ h

/-- A selection that passes over the entries of a key does not see a write of that key. -/
theorem filterMap_spSet {α β : Type} [DecidableEq α] (m : Sparse α) {k : Nat} (v d : α) {g : Nat × α → Option β}
    (hg : ∀ w, g (k, w) = none) : (spSet m k v d).filterMap g = m.filterMap g := by
  have hput : (spPut m k v).filterMap g = m.filterMap g := by
    induction m with
    | nil => exact List.filterMap_cons_none (hg v)
    | cons e r ih =>
      obtain ⟨j, w⟩ := e
      unfold spPut
      split
      · exact List.filterMap_cons_none (hg v)
      · split
        · next hj => rw [List.filterMap_cons_none (hg v), List.filterMap_cons_none (hj ▸ hg w)]
        · rw [List.filterMap_cons, List.filterMap_cons, ih]
  have hdel : (spDel m k).filterMap g = m.filterMap g := by
    clear hput
    induction m with
    | nil => rfl
    | cons e r ih =>
      obtain ⟨j, w⟩ := e
      unfold spDel
      split
      · next hj => rw [List.filterMap_cons_none (hj ▸ hg w), ih]
      · rw [List.filterMap_cons, List.filterMap_cons, ih]
  unfold spSet
  split
  · exact hdel
  · exact hput

/-! ## Fields told apart by their bit -/

theorem State.rd_ite (c : Prop) [Decidable c] (a b : State) (f : Fld) :
    (if c then a else b).rd f = if c then a.rd f else b.rd f :=
  apply_ite (State.rd · f) c a b

/-- What a field reads after a write depends on what it read before, and on nothing else of the state. -/
theorem State.rd_wr_congr {s t : State} {g : Fld} (f : Fld) (v : Nat) (h : s.rd g = t.rd g) :
    (s.wr f v).rd g = (t.wr f v).rd g := by
  by_cases hk : g.key = f.key
  · simp only [State.rd, State.wr, State.setRegs_regs, hk, spGet, spSet]
    split
    · rw [spFind_spDel_same, spFind_spDel_same]
    · rw [spFind_spPut_same, spFind_spPut_same]
  · rw [s.rd_wr_ne v hk, t.rd_wr_ne v hk, h]

theorem State.rd_wr_bit (s : State) {f g : Fld} (v : Nat) (h : g.key % 32 ≠ f.key % 32) : (s.wr f v).rd g = s.rd g :=
  s.rd_wr_ne v fun e => h (congrArg (· % 32) e)

theorem State.rd_set1_bit (s : State) {f g : Fld} (h : g.key % 32 ≠ f.key % 32) : (s.set1 f).rd g = s.rd g := s.rd_wr_bit 1 h

theorem State.rd_wrBit_bit (s : State) {f g : Fld} (i : Nat) (b : Bool) (h : g.key % 32 ≠ f.key % 32) :
    (s.wrBit f i b).rd g = s.rd g :=
  s.rd_wr_bit _ h

/-- A write of a field that stands neither at the bit of PRESENT, nor of ARM, nor of AVAIL leaves the available submodules of every arm. -/
theorem State.armAvail_wr (s : State) (f : Fld) (v a : Nat) (hp : f.key % 32 ≠ 31) (ha : f.key % 32 ≠ 27) (hv : f.key % 32 ≠ 19) :
    (s.wr f v).armAvail a = s.armAvail a := by
  have hpresent : (s.wr f v).smPresent = s.smPresent :=
    filterMap_spSet s.regs _ _ (fun w => if_neg fun h => hp h.1)
  have harm (j : Nat) : (s.wr f v).rd (Reg.MOD_SM_ARM j) = s.rd (Reg.MOD_SM_ARM j) :=
    s.rd_wr_bit v (by simp only [Fld.key, Reg.MOD_SM_ARM] at *; omega)
  have havail (j : Nat) : (s.wr f v).flag (Reg.MOD_SM_AVAIL j) = s.flag (Reg.MOD_SM_AVAIL j) := by
    rw [State.flag, s.rd_wr_bit v (by simp only [Fld.key, Reg.MOD_SM_AVAIL] at *; omega), State.flag]
  simp only [State.armAvail, State.armMembers, hpresent, harm, havail]

/-! ## A field at bit 20 over the frame of an arm (R188, R195) -/

section
variable {f : Fld} (hf : f.key % 32 = 20)
include hf

theorem State.rd_putCmd_bit20 (s : State) (a j : Nat) (c : SmCmd) : (s.putCmd a j c).1.rd f = s.rd f := by
  have hage : f.key % 32 ≠ (Reg.MOD_SM_AGE j).key % 32 := by simp only [Fld.key, Reg.MOD_SM_AGE] at *; omega
  have hlast : f.key % 32 ≠ (Reg.MOD_SM_LAST j).key % 32 := by simp only [Fld.key, Reg.MOD_SM_LAST] at *; omega
  have hact : f.key % 32 ≠ (Reg.RSP_KEY_ACT j).key % 32 := by simp only [Fld.key, Reg.RSP_KEY_ACT] at *; omega
  simp only [State.putCmd, State.rd_setMod]
  rw [State.rd_wr_bit _ _ hact, State.rd_wr_bit _ _ hlast, State.rd_wr_bit _ _ hage]

theorem State.rd_foldl_putCmd_bit20 (a : Nat) (l : List (Nat × SmCmd)) (x : State × Nat) :
    (l.foldl (fun (x : State × Nat) e => ((x.1.putCmd a e.1 e.2).1, x.2 + (x.1.putCmd a e.1 e.2).2)) x).1.rd f = x.1.rd f :=
  List.foldlRecOn (motive := fun y : State × Nat => y.1.rd f = x.1.rd f) l _ rfl
    fun y hy e _ => (State.rd_putCmd_bit20 hf y.1 a e.1 e.2).trans hy

theorem State.rd_trip_bit20 (s : State) {g : Fld} (hg : f.key % 32 ≠ g.key % 32) : (s.trip g).rd f = s.rd f := by
  have hfirst : f.key % 32 ≠ Reg.SUP_TRIP_FIRST.key % 32 := by rw [hf]; decide
  have htime : f.key % 32 ≠ Reg.SUP_TRIPTIME_TIME.key % 32 := by rw [hf]; decide
  simp only [State.trip, State.rd_ite, State.rd_setCtl, State.rd_set1_bit _ hg, State.rd_wr_bit _ _ hfirst,
    State.rd_wr_bit _ _ htime, ite_self]

theorem State.rd_redundancy_bit20 (s : State) (a n : Nat) : (s.redundancy a n).rd f = s.rd f := by
  have hderate : f.key % 32 ≠ (Reg.MOD_ARMDER_DERATE a).key % 32 := by simp only [Fld.key, Reg.MOD_ARMDER_DERATE] at *; omega
  have hlow : f.key % 32 ≠ Reg.MOD_ALRMARM_REDLOW.key % 32 := by rw [hf]; decide
  have halarms : f.key % 32 ≠ Reg.MOD_ALRM_REDLOW.key % 32 ∧ f.key % 32 ≠ Reg.MOD_ALRM_REDWARN.key % 32
      ∧ f.key % 32 ≠ Reg.MOD_ALRM_REDTRIP.key % 32 := by rw [hf]; decide
  obtain ⟨hredlow, hwarn, hredtrip⟩ := halarms
  have htrip : f.key % 32 ≠ Reg.SUP_TRIP_REDTRIP.key % 32 := by rw [hf]; decide
  simp only [State.redundancy, State.rd_ite, State.rd_trip_bit20 hf _ htrip,
    State.rd_wr_bit _ _ hderate, State.rd_wrBit_bit _ _ _ hlow, State.rd_set1_bit _ hredlow, State.rd_set1_bit _ hwarn,
    State.rd_set1_bit _ hredtrip, ite_self]

end

/-! ## NAVAIL after the frame of an arm -/

theorem navail_bit (a : Nat) : (Reg.MOD_ARMSTAT_NAVAIL a).key % 32 = 20 := by
  simp only [Fld.key, Reg.MOD_ARMSTAT_NAVAIL]; omega

/-- LEVSAT of an arm noted, as its frame does first where the level is limited (R184). -/
theorem State.armAvail_levsat (s : State) (c : Prop) [Decidable c] (a b : Nat) :
    (if c then (s.set1 Reg.MOD_ALRM_LEVSAT).wrBit Reg.MOD_ALRMARM_LEVSAT a true else s).armAvail b = s.armAvail b := by
  split
  · rw [State.wrBit, State.armAvail_wr _ _ _ _ (by decide) (by decide) (by decide), State.set1,
      State.armAvail_wr _ _ _ _ (by decide) (by decide) (by decide)]
  · rfl

/-- At bit 20, the frame of an arm that holds submodules writes NAVAIL of the arm, and nothing else. -/
theorem State.rd_modulateArm_bit20 (s : State) {a : Nat} (h : s.armMembers a ≠ []) {f : Fld} (hf : f.key % 32 = 20) :
    (s.modulateArm a).rd f = (s.wr (Reg.MOD_ARMSTAT_NAVAIL a) (s.armAvail a).length).rd f := by
  have hnins : f.key % 32 ≠ (Reg.MOD_ARMSTAT_NINS a).key % 32 := by simp only [Fld.key, Reg.MOD_ARMSTAT_NINS] at *; omega
  have hswaps : f.key % 32 ≠ (Reg.MOD_ARMSTAT_SWAPS a).key % 32 := by simp only [Fld.key, Reg.MOD_ARMSTAT_SWAPS] at *; omega
  have hfrac : f.key % 32 ≠ (Reg.MOD_ARMLEV_FRAC a).key % 32 := by simp only [Fld.key, Reg.MOD_ARMLEV_FRAC] at *; omega
  have hnlev : f.key % 32 ≠ (Reg.MOD_ARMLEV_NLEV a).key % 32 := by simp only [Fld.key, Reg.MOD_ARMLEV_NLEV] at *; omega
  have htrans : f.key % 32 ≠ (Reg.MOD_ARMDER_TRANS a).key % 32 := by simp only [Fld.key, Reg.MOD_ARMDER_TRANS] at *; omega
  have hlevsat : f.key % 32 ≠ Reg.MOD_ALRM_LEVSAT.key % 32 ∧ f.key % 32 ≠ Reg.MOD_ALRMARM_LEVSAT.key % 32 := by rw [hf]; decide
  obtain ⟨hsat, harm⟩ := hlevsat
  unfold State.modulateArm
  rw [if_neg h]
  dsimp only
  rw [State.rd_redundancy_bit20 hf, State.putArm, State.rd_setMod, State.rd_wr_bit _ _ hnlev, State.rd_wr_bit _ _ hfrac,
    State.rd_wr_bit _ _ hswaps, State.rd_wr_bit _ _ hnins, State.armAvail_levsat]
  refine State.rd_wr_congr _ _ ?_
  rw [State.rd_wr_bit _ _ htrans, State.rd_foldl_putCmd_bit20 hf, State.rd_ite, State.rd_wrBit_bit _ _ _ harm,
    State.rd_set1_bit _ hsat, ite_self]

/-- The frames of other arms leave NAVAIL. -/
theorem State.navail_modulateArm_ne (s : State) {a b : Nat} (h : a ≠ b) :
    (s.modulateArm b).rd (Reg.MOD_ARMSTAT_NAVAIL a) = s.rd (Reg.MOD_ARMSTAT_NAVAIL a) := by
  by_cases hb : s.armMembers b = []
  · rw [State.modulateArm, if_pos hb]
  · rw [s.rd_modulateArm_bit20 hb (navail_bit a)]
    exact s.rd_wr_ne _ (by simp only [Fld.key, Reg.MOD_ARMSTAT_NAVAIL]; omega)

/-- The field is 12 bits wide: what it reads is the count modulo 4,096. -/
theorem State.navail_modulateArm (s : State) {a : Nat} (h : s.armMembers a ≠ []) :
    (s.modulateArm a).rd (Reg.MOD_ARMSTAT_NAVAIL a) = (s.armAvail a).length % 4096 := by
  rw [s.rd_modulateArm_bit20 h (navail_bit a), State.rd_wr_same]
  rfl

/-! ## NAVAIL of arm 0, the first of the frame (R196) -/

theorem State.modRead_of_no_upset (s : State) (b : Block) (lo : Nat) (h : s.upset = []) : s.modRead b lo = s := by
  simp only [State.modRead, State.readWords, State.upsetWords, h, List.filter_nil, List.map_nil, List.foldl_nil, if_true, ite_self]

/-- What every step of a fold keeps, the fold keeps. -/
theorem State.foldl_keeps {α β : Type} (g : State → α) (op : State → β → State) (l : List β)
    (h : ∀ (t : State), ∀ x ∈ l, g (op t x) = g t) (s : State) : g (l.foldl op s) = g s :=
  List.foldlRecOn (motive := fun t => g t = g s) l op rfl fun t ht x hx => (h t x hx).trans ht

theorem State.navail_modulatorFrame (s : State) (hmod : s.modulates = true) (hupset : s.upset = []) (h : s.armMembers 0 ≠ []) :
    (s.modulatorFrame none none).rd (Reg.MOD_ARMSTAT_NAVAIL 0) = (s.armAvail 0).length % 4096 := by
  have hothers : ((List.range 12).foldl State.modulateArm s).rd (Reg.MOD_ARMSTAT_NAVAIL 0)
      = (s.modulateArm 0).rd (Reg.MOD_ARMSTAT_NAVAIL 0) := by
    rw [show List.range 12 = 0 :: [1, 2, 3, 4, 5, 6, 7, 8, 9, 10, 11] from rfl, List.foldl_cons]
    exact State.foldl_keeps (fun t => t.rd (Reg.MOD_ARMSTAT_NAVAIL 0)) State.modulateArm _
      (fun t b hb => t.navail_modulateArm_ne fun e => by subst e; exact absurd hb (by decide)) _
  simp only [State.modulatorFrame, State.modCheck, s.modRead_of_no_upset _ _ hupset, if_pos hmod, State.rd_ite, State.set0, State.set1]
  simp (disch := decide) only [State.rd_wr_ne, State.rd_setMod, State.cleanWords, State.rd_setUpset, ite_self]
  rw [hothers, s.navail_modulateArm h]

/-! ## A frame with any number of submodules in arm 0 -/

/-- Submodule `j` is present in arm 0 and available. -/
def State.addSm (s : State) (j : Nat) : State :=
  ((s.wr (Reg.MOD_SM_PRESENT j) 1).wr (Reg.MOD_SM_ARM j) 0).wr (Reg.MOD_SM_AVAIL j) 1

/-- `addSm` has been carried out for submodule `j`. -/
def State.smAdded (s : State) (j : Nat) : Prop :=
  spFind s.regs (Reg.MOD_SM_PRESENT j).key = some 1 ∧ s.rd (Reg.MOD_SM_ARM j) = 0 ∧ s.flag (Reg.MOD_SM_AVAIL j) = true

/-- The keys of two fields of MOD_SM: of two submodules, or at two bits. -/
theorem smKey_ne (l m : Nat) {j k : Nat} (hl : l < 32) (hm : m < 32) (h : j ≠ k ∨ l ≠ m) :
    (0x44008000 + 0x4 * j) * 32 + l ≠ (0x44008000 + 0x4 * k) * 32 + m := by
  omega

theorem State.smAdded_addSm {s : State} {j k : Nat} (h : j = k ∨ s.smAdded j) : (s.addSm k).smAdded j := by
  have hpa : (Reg.MOD_SM_PRESENT j).key ≠ (Reg.MOD_SM_ARM k).key := smKey_ne 31 27 (by decide) (by decide) (.inr (by decide))
  have hpv : (Reg.MOD_SM_PRESENT j).key ≠ (Reg.MOD_SM_AVAIL k).key := smKey_ne 31 19 (by decide) (by decide) (.inr (by decide))
  have hap : (Reg.MOD_SM_ARM j).key ≠ (Reg.MOD_SM_PRESENT k).key := smKey_ne 27 31 (by decide) (by decide) (.inr (by decide))
  have hav : (Reg.MOD_SM_ARM j).key ≠ (Reg.MOD_SM_AVAIL k).key := smKey_ne 27 19 (by decide) (by decide) (.inr (by decide))
  have hvp : (Reg.MOD_SM_AVAIL j).key ≠ (Reg.MOD_SM_PRESENT k).key := smKey_ne 19 31 (by decide) (by decide) (.inr (by decide))
  have hva : (Reg.MOD_SM_AVAIL j).key ≠ (Reg.MOD_SM_ARM k).key := smKey_ne 19 27 (by decide) (by decide) (.inr (by decide))
  have hfind : spFind (s.addSm k).regs (Reg.MOD_SM_PRESENT j).key
      = spFind (s.wr (Reg.MOD_SM_PRESENT k) 1).regs (Reg.MOD_SM_PRESENT j).key :=
    (State.spFind_wr_ne _ _ hpv).trans (State.spFind_wr_ne _ _ hpa)
  by_cases hjk : j = k
  · subst hjk
    refine ⟨hfind.trans (spFind_spPut_same _ _ _), ?_, State.flag_set1_same _ _ rfl⟩
    rw [State.addSm, State.rd_wr_ne _ _ hav, State.rd_wr_same]
    rfl
  · obtain ⟨hpresent, harm, havail⟩ := h.resolve_left hjk
    have hpp : (Reg.MOD_SM_PRESENT j).key ≠ (Reg.MOD_SM_PRESENT k).key := smKey_ne 31 31 (by decide) (by decide) (.inl hjk)
    have haa : (Reg.MOD_SM_ARM j).key ≠ (Reg.MOD_SM_ARM k).key := smKey_ne 27 27 (by decide) (by decide) (.inl hjk)
    have hvv : (Reg.MOD_SM_AVAIL j).key ≠ (Reg.MOD_SM_AVAIL k).key := smKey_ne 19 19 (by decide) (by decide) (.inl hjk)
    refine ⟨hfind.trans ((s.spFind_wr_ne _ hpp).trans hpresent), ?_, ?_⟩
    · rw [State.addSm, State.rd_wr_ne _ _ hav, State.rd_wr_ne _ _ haa, State.rd_wr_ne _ _ hap, harm]
    · rw [State.flag, State.addSm, State.rd_wr_ne _ _ hvv, State.rd_wr_ne _ _ hva, State.rd_wr_ne _ _ hvp]
      exact havail

theorem State.smAdded_foldl (l : List Nat) (s : State) {j : Nat} (h : j ∈ l ∨ s.smAdded j) :
    (l.foldl State.addSm s).smAdded j := by
  induction l generalizing s with
  | nil => exact h.resolve_left List.not_mem_nil
  | cons k l ih =>
    refine ih _ ?_
    rcases h with h | h
    · rcases List.mem_cons.mp h with h | h
      · exact .inr (State.smAdded_addSm (.inl h))
      · exact .inl h
    · exact .inr (State.smAdded_addSm (.inr h))

theorem State.mem_armAvail_of_smAdded {s : State} {j : Nat} (hj : j < 8192) (h : s.smAdded j) : j ∈ s.armAvail 0 := by
  obtain ⟨hfind, harm, havail⟩ := h
  have hpresent : j ∈ s.smPresent := by
    have hkey : (Reg.MOD_SM_PRESENT j).key = (0x44008000 + 4 * j) * 32 + 31 := rfl
    refine List.mem_filterMap.mpr ⟨_, mem_of_spFind hfind, (if_pos ?_).trans (congrArg some ?_)⟩
    · dsimp only; omega
    · dsimp only; omega
  exact List.mem_filter.mpr ⟨List.mem_filter.mpr ⟨hpresent, by simpa using harm⟩, havail⟩

/-- `addSm` leaves every field outside MOD_SM. -/
theorem State.rd_addSm (s : State) {j : Nat} {f : Fld} (hj : j < 8192)
    (hf : f.key < 0x44008000 * 32 ∨ 0x44010000 * 32 ≤ f.key) :
    (s.addSm j).rd f = s.rd f := by
  have hp : f.key ≠ (Reg.MOD_SM_PRESENT j).key := by simp only [Fld.key, Reg.MOD_SM_PRESENT] at *; omega
  have ha : f.key ≠ (Reg.MOD_SM_ARM j).key := by simp only [Fld.key, Reg.MOD_SM_ARM] at *; omega
  have hv : f.key ≠ (Reg.MOD_SM_AVAIL j).key := by simp only [Fld.key, Reg.MOD_SM_AVAIL] at *; omega
  rw [State.addSm, State.rd_wr_ne _ _ hv, State.rd_wr_ne _ _ ha, State.rd_wr_ne _ _ hp]

theorem State.mode_addSm (s : State) {j : Nat} (hj : j < 8192) : (s.addSm j).mode = s.mode := s.rd_addSm hj (.inl (by decide))

theorem State.lrd_addSm (s : State) (j : Nat) (f : Fld) : (s.addSm j).lrd f = s.lrd f := rfl

theorem State.formingDropped_addSm (s : State) (j : Nat) : (s.addSm j).formingDropped = s.formingDropped := rfl

theorem State.modulates_addSm (s : State) {j : Nat} (hj : j < 8192) : (s.addSm j).modulates = s.modulates := by
  simp only [State.modulates, State.worksNow, State.frmComputes, State.regionOn, State.rdBit, State.flag]
  rw [s.lrd_addSm, s.lrd_addSm, s.formingDropped_addSm, s.mode_addSm hj, s.rd_addSm hj (f := blockState .mod) (by decide),
    s.rd_addSm hj (f := blockState .rsp) (by decide), s.rd_addSm hj (f := Reg.SUP_RGN_STAT_ON) (by decide),
    s.rd_addSm hj (f := Reg.MIR_CFG_PAIR) (by decide), s.rd_addSm hj (f := Reg.FRM_STAT_FVALID) (by decide),
    s.rd_addSm hj (f := Reg.ARM_STAT_AVALID) (by decide)]

theorem State.modulates_putArm (s : State) (a : Nat) (x : ArmMod) : (s.putArm a x).modulates = s.modulates := rfl

theorem State.armMod_putArm_same (s : State) (a : Nat) (x : ArmMod) : (s.putArm a x).armMod a = x := spGet_spPut_same _ _ _ _

/-- A frame in FORM_GRID in which MOD_ and RSP_ run and the references are valid. -/
def formingFrame : State :=
  let s := [(Reg.SUP_RGN_STAT_ON, 255), (Reg.SUP_MODE_MODE, mFormGrid), (Reg.FRM_STAT_FVALID, 1), (Reg.ARM_STAT_AVALID, 1),
    (blockEn .mod, 1), (blockState .mod, stRunning), (blockEn .rsp, 1), (blockState .rsp, stRunning)].foldl
      (fun s e => s.wr e.1 e.2) State.reset
  s.setLatch s.regs

/-- The frame with submodules 0 to `n - 1` in arm 0, all of them available. -/
def filledFrame (n : Nat) : State := (List.range n).foldl State.addSm formingFrame

/-- The frame with those submodules ranked. -/
def rankedFrame (n : Nat) : State := (filledFrame n).putArm 0 { ArmMod.reset with order := (filledFrame n).armAvail 0 }

section
variable {n : Nat} (hn : n ≤ 8192)
include hn

theorem filledFrame_keeps {α : Type} (g : State → α) (h : ∀ (t : State) (j : Nat), j < 8192 → g (t.addSm j) = g t) :
    g (filledFrame n) = g formingFrame :=
  State.foldl_keeps g State.addSm _ (fun t j hj => h t j (Nat.lt_of_lt_of_le (List.mem_range.mp hj) hn)) _

theorem rankedFrame_modulates : (rankedFrame n).modulates = true := by
  rw [rankedFrame, State.modulates_putArm, filledFrame_keeps hn State.modulates fun t _ hj => t.modulates_addSm hj]
  decide

theorem rankedFrame_mode : (rankedFrame n).mode = mFormGrid := by
  have h : (filledFrame n).mode = formingFrame.mode := filledFrame_keeps hn State.mode fun t _ hj => t.mode_addSm hj
  exact h.trans (by decide)

theorem rankedFrame_upset : (rankedFrame n).upset = [] := filledFrame_keeps hn State.upset fun _ _ _ => rfl

theorem rankedFrame_latch : (rankedFrame n).latch = formingFrame.latch := filledFrame_keeps hn State.latch fun _ _ _ => rfl

theorem rankedFrame_size : n ≤ ((rankedFrame n).armAvail 0).length := by
  have hsub : List.range n ⊆ (rankedFrame n).armAvail 0 := fun j hj =>
    State.mem_armAvail_of_smAdded (s := filledFrame n) (Nat.lt_of_lt_of_le (List.mem_range.mp hj) hn)
      (State.smAdded_foldl _ _ (.inl hj))
  calc n = (List.range n).length := List.length_range.symm
    _ ≤ _ := List.nodup_range.length_le_of_subset hsub

end

theorem rankedFrame_order (n : Nat) : ((rankedFrame n).armMod 0).order = (rankedFrame n).armAvail 0 :=
  congrArg ArmMod.order ((filledFrame n).armMod_putArm_same 0 _)

end Sys2Proof.Machine

namespace Sys2Proof
open Machine

/-- What the fourth clause of O47 says of NAVAIL holds only of an arm that the 12 bits of the field can count. -/
theorem size_lt_of_modulation (h : Obligations.Modulation) {n : Nat} (hpos : 0 < n) (hn : n ≤ 8192) : n < 4096 := by
  unfold Obligations.Modulation at h
  obtain ⟨-, -, -, hcount, -⟩ := h
  have hsize := rankedFrame_size hn
  have hmembers : (rankedFrame n).armMembers 0 ≠ [] := by
    intro hnil
    rw [State.armAvail, hnil, List.filter_nil, List.length_nil] at hsize
    omega
  have hperm : ((rankedFrame n).armMod 0).order.isPerm ((rankedFrame n).armAvail 0) = true := by
    rw [rankedFrame_order]; exact List.isPerm_iff.mpr (List.Perm.refl _)
  have hmode : (rankedFrame n).lrd (Reg.MOD_ARMCFG_MODE 0) ≠ 2 := by
    rw [State.lrd, rankedFrame_latch hn]; decide
  have hread : (rankedFrame n).unreadable 7 (fun w => decide (16384 ≤ w)) = false := by
    simp [State.unreadable, State.upsetWords, rankedFrame_upset hn]
  obtain ⟨t, ht, -, hnavail, -⟩ :=
    hcount 0 (rankedFrame n) (rankedFrame_modulates hn) (by rw [rankedFrame_mode hn]; decide) hread hmembers hmode hperm
  have hafter : t = ((rankedFrame n).modulatorFrame none none).msiSend := by
    injection ht with ht; exact ht.symm
  have hmodulo : t.rd (Reg.MOD_ARMSTAT_NAVAIL 0) = ((rankedFrame n).armAvail 0).length % 4096 := by
    rw [hafter, State.rd_msiSend]
    exact (rankedFrame n).navail_modulatorFrame (rankedFrame_modulates hn) (rankedFrame_upset hn) hmembers
  have hcounted : t.rd (Reg.MOD_ARMSTAT_NAVAIL 0) = ((rankedFrame n).armAvail 0).length := hnavail
  omega

end Sys2Proof

open Sys2Proof Sys2Proof.Machine

/-- Refutes O47. Its fourth clause has NAVAIL read the number of available submodules of the arm and bounds no arm, but the field has 12
bits: with 4,096 submodules available in arm 0, twice what R176 lets an arm hold, it reads their number modulo 4,096. -/
theorem not_modulation : ¬ Obligations.Modulation := fun h =>
  absurd (size_lt_of_modulation h (n := 4096) (by decide) (by decide)) (by decide)
end
